-- ==== Sys2Proof/Word.lean ====
section
/-!
DEFINITION. The word and byte types of the register space, and the one shape of sparse table
(`Tbl`) that State uses for everything the part holds by number: registers, mailboxes, ports,
channels, fault sources, power domains.

A table is a list of (key, value) pairs in one canonical form: keys strictly rising, no entry
equal to the value an unlisted key reads as. Equal tables are therefore equal data.
-/

namespace Sys2Proof

/-- A 32-bit register of the host register space (R30). -/
abbrev Word := BitVec 32

/-- A byte of a window, a frame or a record. -/
abbrev Byte := BitVec 8

/-- A sparse table: pairs of key and value, keys strictly rising. -/
abbrev Tbl (α : Type) := List (Nat × α)

/-- The value a table holds at a key, `d` where nothing is listed. -/
def Tbl.getD {α : Type} (d : α) : Tbl α → Nat → α
  | [], _ => d
  | (k, v) :: t, i => if i = k then v else Tbl.getD d t i

/-- The table with the key's entry removed. -/
def Tbl.erase {α : Type} : Tbl α → Nat → Tbl α
  | [], _ => []
  | (k, v) :: t, i => if i = k then Tbl.erase t i else (k, v) :: Tbl.erase t i

/-- Put one pair at its place among rising keys. -/
def Tbl.insert {α : Type} : Tbl α → Nat → α → Tbl α
  | [], i, x => [(i, x)]
  | (k, v) :: t, i, x => if i < k then (i, x) :: (k, v) :: t else (k, v) :: Tbl.insert t i x

/-- Write one key; writing the value an unlisted key reads as removes the entry. -/
def Tbl.setD {α : Type} [DecidableEq α] (d : α) (t : Tbl α) (i : Nat) (x : α) : Tbl α :=
  if x = d then Tbl.erase t i else Tbl.insert (Tbl.erase t i) i x

/-- Change one key's value by a function. -/
def Tbl.modD {α : Type} [DecidableEq α] (d : α) (t : Tbl α) (i : Nat) (f : α → α) : Tbl α :=
  Tbl.setD d t i (f (Tbl.getD d t i))

/-- Keys rise strictly and are all at least `lo`, and no entry equals the default. -/
def Tbl.wfFrom {α : Type} [DecidableEq α] (d : α) : Nat → Tbl α → Bool
  | _, [] => true
  | lo, (k, v) :: t => decide (lo ≤ k) && decide (v ≠ d) && Tbl.wfFrom d (k + 1) t

/-- The canonical form of a table. -/
def Tbl.wf {α : Type} [DecidableEq α] (d : α) (t : Tbl α) : Bool := Tbl.wfFrom d 0 t

end Sys2Proof
end

