-- ==== Sys2Proof/Syntax.lean ====
section
/-!
DEFINITION. The commands of the block: one constructor per row of spec/opcode_table.json.

Rows 0 to 103 are the commands of the catalogue; each names the mailbox whose accepted command the
hub now runs (its parameters stand in that mailbox's window). The rows after them are the accesses,
protocol steps and events the manual describes; what the world outside brings (a measured value, a
partner's answer, a received frame) is an operand.
-/

namespace Sys2Proof

/-- A downstream port P00 to P47 (R6). On the SVH16 only P00 to P15 exist. -/
abbrev Port := Fin 48

/-- A hub-class port number, counted from 1 by an upstream USB host (R6). -/
abbrev HubPort := Fin 64

/-- A fault source FS0 to FS127 (R426). -/
abbrev Source := Fin 128

/-- The straps sampled when `RESET_N` rises (R482). -/
structure Straps where
  /-- `HOSTSEL`: true is an SPI host (R14). -/
  hostsel : Bool := false
  /-- `BOOTSEL0`: true is a child chip. -/
  bootsel0 : Bool := false
  /-- `BOOTSEL1`: true is loader mode (R498). -/
  bootsel1 : Bool := false
  deriving DecidableEq, Repr

/-- What a debounced CC attach shows (R147, R341, R354). -/
inductive AttachKind where
  /-- A sink, which the port powers. -/
  | sink
  /-- A sink seen with the plug the other way round. -/
  | sinkFlipped
  /-- A source: another supply drives the cable. -/
  | source
  /-- An audio or debug accessory. -/
  | accessory
  deriving DecidableEq, Repr

/-- The pull-up a device shows on the data lines (R143). -/
inductive Pull where
  /-- On `DP`: full speed, or high speed after the chirp. -/
  | dp
  /-- On `DM`: low speed. -/
  | dm
  deriving DecidableEq, Repr

/-- What a device does during a reset (R144). -/
inductive Chirp where
  /-- No valid chirp K. -/
  | none
  /-- A chirp K, and high-speed terminations at the end of the reset. -/
  | high
  /-- A chirp K, but no high-speed terminations at the end. -/
  | unswitched
  deriving DecidableEq, Repr

/-- A PD partner's answer to a swap (R355, R357). -/
inductive PdAnswer where
  | accept
  | reject
  | waitAnswer
  | none
  deriving DecidableEq, Repr

/-- A message a PD partner sends that has no row of its own (R340, R348, R357): unsolicited, or the
answer to a message of the hub's. -/
inductive PdMessage where
  | getSourceCap
  | getSinkCap
  | goodCrc
  | accept
  | notSupported
  /-- `Sink_Capabilities`, with its Fast Role Swap current field (R357). -/
  | sinkCapabilities (frs : Fin 4)
  | drSwap
  | vconnSwap
  | bist
  /-- A structured VDM command the partner initiates; true is Attention (R340). -/
  | vdm (attention : Bool)
  /-- A message R340 does not list. -/
  | unknown
  deriving DecidableEq, Repr

/-- A partner's answer to Enter Mode or Exit Mode (R361, R363). -/
inductive ModeAnswer where
  | ack
  | nak
  | busy
  deriving DecidableEq, Repr

/-- A level change on the reference inputs (R107): the ticks until its first tick, for how many ticks the
inputs then hold, and the levels of `PREF0` to `PREF5` after it, bit n for `PREFn`. -/
structure PinChange where
  after : Nat
  hold : Nat
  levels : Nat
  deriving DecidableEq, Repr

/-- A pulse on `PLINK_IN` (R135): the ticks until its rising edge, and its width in ns. -/
structure LinkPulse where
  after : Nat
  width : Nat
  deriving DecidableEq, Repr

/-- How a transaction on a port's bus ended (R192, R193, R221). -/
inductive TxnOutcome where
  /-- Data received or sent. -/
  | ack (data : List Byte)
  | nak
  | stall
  /-- No answer, or a CRC error. -/
  | error
  /-- More data than the endpoint admits. -/
  | overrun
  deriving DecidableEq, Repr

/-- What enumeration reads from a device (R174, R177). -/
structure DevDesc where
  /-- Tier below the root port: 1 for a device on the port itself. -/
  tier : Nat := 1
  /-- Tier-1 and tier-2 hub ports, 0 where there is none. -/
  hub1 : Nat := 0
  hub2 : Nat := 0
  speed : Nat := 0
  vid : Nat := 0
  pid : Nat := 0
  bcd : Nat := 0
  /-- The serial string; none where the device has none. -/
  serial : Option (List Byte) := Option.none
  devDesc : List Byte := []
  cfgDesc : List Byte := []
  /-- Whether the device is an external hub. -/
  isHub : Bool := false
  /-- Of an Otind chip: its `HOSTSEL` selects USB (R205). -/
  hostUsb : Bool := true
  deriving DecidableEq, Repr

/-- What a child chip says of itself when it joins (R205, R206). -/
structure ChildDesc where
  serial : Nat := 0
  ports : Nat := 48
  /-- The chip the child's upstream port plugs into, and the port of it. -/
  parent : Nat := 0
  parentPort : Nat := 0
  deriving DecidableEq, Repr

/-- A join (R206): a child's, as it reaches the root, or this chip's own below its parent, with the number
and the tier it is given. -/
inductive Join where
  | child (p : Port) (child : ChildDesc)
  | own (number : Fin 64) (tier : Fin 3)
  deriving DecidableEq, Repr

/-- Where a device disconnects: the port's own pull-up disappears (R148), or an external hub's port, named by
its path, loses its device or reports an over-current (R181, R182). -/
inductive DisconnectAt where
  | pullUp
  | hubPort (hub1 hub2 : Nat) (overCurrent : Bool)
  deriving DecidableEq, Repr

/-- A frame on a CAN bus (R368, R376). -/
structure CanFrame where
  id : Nat := 0
  ext : Bool := false
  fd : Bool := false
  brs : Bool := false
  /-- Error state indicator, as received (R379). -/
  esi : Bool := false
  rtr : Bool := false
  dlc : Nat := 0
  data : List Byte := []
  deriving DecidableEq, Repr

/-- How a transmission attempt ended (R383, R384): an error by its code in `LAST_ERR` less 1 (R393), and
whether it raises the transmit counter (ISO 11898-1 excepts an ACK error of an error-passive node and a stuff
error in arbitration). -/
inductive CanResult where
  | sent
  | lostArbitration
  | busError (kind : Fin 6) (counts : Bool)
  deriving DecidableEq, Repr

/-- What moves the error counters besides the end of a transmission (R386, ISO 11898-1): an error detected as
receiver (its code in `LAST_ERR` less 1); a dominant bit after, or a bit error within, the controller's error or
overload flag, as receiver and as transmitter. -/
inductive CanError where
  | received (kind : Fin 6)
  | receiverFlag
  | transmitterFlag
  deriving DecidableEq, Repr

/-- A page of protected memory (R396): its region, its number in the region and the first byte in error; with
it, of a page of `META`, the pages the damaged descriptors describe, since the manual gives no map of them. -/
structure PageRef where
  region : Nat := 0
  page : Nat := 0
  offset : Nat := 0
  described : List (Nat × Nat) := []
  deriving DecidableEq, Repr

/-- Who read a page on which a parity error was found (R405, R422). Cores: 0 to 5 group engines, 6
management, 7 warden. -/
inductive Requester where
  | fetch (core : Fin 8)
  | coreData (core : Fin 8)
  | dataMover
  | journal
  | queue (events : Bool)
  deriving DecidableEq, Repr

/-- What the domain link brings from a child (R207, R209). -/
inductive DomainFrame where
  /-- The target chip's answer to a command relayed from a mailbox, with its `TIME32` (R207). -/
  | response (mb : Nat) (status : Nat) (rflags : Nat) (time32 : Nat) (results : List Byte)
  /-- An event record the child raised. -/
  | event (bytes : List Byte)
  /-- A record of a child's channel, in stream format. -/
  | record (bytes : List Byte)
  deriving DecidableEq, Repr

/-- The commands of the block. -/
inductive Instr where
  /-- R103. Opens a session on a closed session or reports the open one, returning epoch, CSEQ
      window, credits and any closing summary. -/
  | sysHello (mb : Fin 8)
  /-- R104. Reports session state, reads and clears HRS_RESTARTS, and clears RESYNC_PEND. -/
  | sysResync (mb : Fin 8)
  /-- R287. Query returning identity, capacities and options of a chip. -/
  | sysInfo (mb : Fin 8)
  /-- R99. Aborts the uncommitted POSTED commands of the mailboxes named in its mask. -/
  | sysAbort (mb : Fin 8)
  /-- R79. Opens or closes the expert level of one opcode group and its expert window. -/
  | sysExpert (mb : Fin 8)
  /-- R287. Commits a chip reset that begins 5 ms after DONE with CAUSE CHIP_RESET. -/
  | sysReset (mb : Fin 8)
  /-- R288. Configures a disabled angle clock's reference, loop and holdover fields. -/
  | angConfig (mb : Fin 8)
  /-- R288. Enables or disables an angle clock, refused under R118 while the clock is in use. -/
  | angEnable (mb : Fin 8)
  /-- R288. Query returning the state, phase error, rate, cycle and angle of a time base. -/
  | angStatus (mb : Fin 8)
  /-- R120. Steps the wall clock to a given value and emits a WALL anchor with STEP. -/
  | timeSet (mb : Fin 8)
  /-- R120. Slews the wall clock by up to 500 ppm until the requested offset is absorbed. -/
  | timeAdjust (mb : Fin 8)
  /-- R119. Sets the wall-clock discipline source, edge, holdover limit and enable. -/
  | timeDisc (mb : Fin 8)
  /-- R131. Configures a phase output, reloading a running output at its next target. -/
  | phaseSet (mb : Fin 8)
  /-- R132. Configures a port's sync driver through posted port-die writes. -/
  | phasePsync (mb : Fin 8)
  /-- R133. Configures a phase-capture input's enable, edge, time base and deglitch. -/
  | phaseCapture (mb : Fin 8)
  /-- R138. Configures the domain phase link receiver, transmitter and slot sourcing. -/
  | phaseLink (mb : Fin 8)
  /-- R150. Switches a port between CONCENTRATED and TRANSPARENT, committing at its journal
      commit. -/
  | portMode (mb : Fin 8)
  /-- R289. Drives a reset on a concentrated port and re-enumerates the device. -/
  | portReset (mb : Fin 8)
  /-- R162. Suspends a concentrated port's whole segment. -/
  | portSuspend (mb : Fin 8)
  /-- R163. Drives a resume on a suspended concentrated port and completes after resume recovery. -/
  | portResume (mb : Fin 8)
  /-- R289. Query returning a port's state, speed, mode, cause and running counts. -/
  | portStatus (mb : Fin 8)
  /-- R289. Sets a port's maximum speed, connect debounce and reset length for its next connect or
      reset. -/
  | portCfg (mb : Fin 8)
  /-- R290. Query returning device-table entries from a given local ID. -/
  | devList (mb : Fin 8)
  /-- R290. Query returning a device's descriptors and serial CRC-32. -/
  | devInfo (mb : Fin 8)
  /-- R179. Sets a port's admission policy for the next admission. -/
  | devPolicy (mb : Fin 8)
  /-- R186. Admits and opens a channel, committing at its journal commit and returning its handle
      and bound. -/
  | chanOpen (mb : Fin 8)
  /-- R200. Closes a channel, draining to a LAST record or discarding records with ABORT. -/
  | chanClose (mb : Fin 8)
  /-- R199. Pauses a channel after the transaction on the wire. -/
  | chanPause (mb : Fin 8)
  /-- R192. Returns a paused or halted channel to ACTIVE, clearing a STALL or re-running admission
      as needed. -/
  | chanResume (mb : Fin 8) (clearOk : Bool)
  /-- R199. Pauses every OPENING and ACTIVE channel of a group and stops the group. -/
  | chanStopGroup (mb : Fin 8)
  /-- R199. Returns to ACTIVE only the channels that the group stop paused. -/
  | chanStartGroup (mb : Fin 8)
  /-- R203. Runs one proxied control request on a CONTROL channel exactly once. -/
  | chanCtrl (mb : Fin 8)
  /-- R291. Sets the current OUT value of a periodic OUT channel or fills bulk OUT buffers or
      descriptors. -/
  | chanWrite (mb : Fin 8)
  /-- R291. Query returning a channel's state, sequence window, bounds and counts. -/
  | chanInfo (mb : Fin 8)
  /-- R197. Query returning a channel's latest-value slot. -/
  | chanLatest (mb : Fin 8)
  /-- R198. Query returning records from a channel's history ring. -/
  | chanHistory (mb : Fin 8)
  /-- R264. Acknowledges ranges of delivered records, all or none, and frees them. -/
  | chanAck (mb : Fin 8)
  /-- R266. Delivers a STREAM channel's unacknowledged records again from the oldest. -/
  | chanRewind (mb : Fin 8)
  /-- R236. Opens a schedule transaction on a chip and returns its TXN. -/
  | schedBegin (mb : Fin 8)
  /-- R239. Adds an open, sync, inrush, CAN transmission or close item to an OPEN transaction. -/
  | schedAdd (mb : Fin 8)
  /-- R239. Adds an item replacing an open channel's schedule to an OPEN transaction. -/
  | schedChange (mb : Fin 8)
  /-- R241. Admits the whole transaction and commits it with a resolved apply point. -/
  | schedCommit (mb : Fin 8)
  /-- R237. Discards an OPEN transaction. -/
  | schedCancel (mb : Fin 8)
  /-- R245. Query returning a transaction's items or a port's or chip's admission state. -/
  | schedReport (mb : Fin 8)
  /-- R293. Releases a power hold and resumes the power-up order at the moisture check. -/
  | pwrOn (mb : Fin 8)
  /-- R293. Removes a port's power and holds it off with cause 2. -/
  | pwrOff (mb : Fin 8)
  /-- R323. Moves a LATCHED_OFF or STUCK_ON port to OFF and resets its ladder. -/
  | pwrClear (mb : Fin 8)
  /-- R317. Loads a port's I–t curve, inrush limit, timer, cool-down base, retry limit and fast
      trip. -/
  | pwrCurve (mb : Fin 8)
  /-- R306. Declares the RAIL_HI voltage and the rail and feed power limits. -/
  | pwrRails (mb : Fin 8)
  /-- R333. Sets a port's priority class. -/
  | pwrPriority (mb : Fin 8)
  /-- R332. Sets the stagger slot period for slots booked afterwards. -/
  | pwrStagger (mb : Fin 8)
  /-- R293. Query returning a port's or the chip's power state, measurements and budget. -/
  | pwrStatus (mb : Fin 8)
  /-- R294. Query returning a port's contract, roles, alternate mode, SBU position and moisture
      state. -/
  | pdStatus (mb : Fin 8)
  /-- R345. Sets a port's offered capabilities and sends new Source_Capabilities. -/
  | pdCaps (mb : Fin 8)
  /-- R350. Sends Hard_Reset and starts the hard-reset power cycle. -/
  | pdHardreset (mb : Fin 8)
  /-- R355. Requests PR_Swap on a service port. -/
  | pdSwap (mb : Fin 8)
  /-- R357. Arms or disarms fast role swap on a service port. -/
  | pdFrs (mb : Fin 8)
  /-- R351. Sets a port's moisture threshold and interval. -/
  | pdMoist (mb : Fin 8)
  /-- R363. Enters or exits an Otind alternate mode and switches the SBU multiplexer. -/
  | pdAltmode (mb : Fin 8)
  /-- R371. Sets a disabled CAN controller's mode, retry limit and bit timing. -/
  | canConfig (mb : Fin 8)
  /-- R388. Enables a CAN controller, or disables it letting the frame in flight finish and
      aborting pending buffers. -/
  | canEnable (mb : Fin 8)
  /-- R377. Changes one filter pair as one, possibly while the controller runs. -/
  | canFilter (mb : Fin 8)
  /-- R380. Loads a TX buffer as pending, armed for a one-shot target, or held. -/
  | canTx (mb : Fin 8)
  /-- R385. Aborts named pending, armed or held buffers; a frame on the bus finishes. -/
  | canTxabort (mb : Fin 8)
  /-- R387. Starts bus-off recovery. -/
  | canRecover (mb : Fin 8)
  /-- R375. Tries timing candidates in listen-only mode and stores the first that succeeds. -/
  | canAutobaud (mb : Fin 8)
  /-- R295. Query returning a controller's state, counters and queue levels. -/
  | canStatus (mb : Fin 8)
  /-- R296. Query returning a region's strength, mode, retention and error counts. -/
  | integStatus (mb : Fin 8)
  /-- R415. Sets a region's update mode and retention. -/
  | integRegion (mb : Fin 8)
  /-- R416. Starts converting a region to a new page-code strength page by page. -/
  | integRestrength (mb : Fin 8)
  /-- R407. Sets the scrub rate of transfer SRAM or external memory. -/
  | integScrub (mb : Fin 8)
  /-- R422. Query returning integrity log entries. -/
  | integLog (mb : Fin 8)
  /-- R409. Moves a bank out to B16 or back. -/
  | integRotate (mb : Fin 8)
  /-- R421. Loads the flip mask for the next write to a byte. -/
  | integInject (mb : Fin 8)
  /-- R297. Query returning the state, class, threshold and counts of 16 fault sources. -/
  | faultStatus (mb : Fin 8)
  /-- R432. Sets a fault source's threshold, reaction class and window and zeroes its count. -/
  | faultConfig (mb : Fin 8)
  /-- R434. Returns a fault source to CLEAR and restores power removed by GROUP_SAFE. -/
  | faultClear (mb : Fin 8)
  /-- R428. Overrides a source's wires with an event, a wire-fault pattern or a release. -/
  | faultForce (mb : Fin 8)
  /-- R440. Arms a wind-down script received as data units. -/
  | wardenArm (mb : Fin 8)
  /-- R437. Enters warden mode, or the safe state when the safety set is not valid. -/
  | wardenEnter (mb : Fin 8)
  /-- R447. Leaves warden mode, restarting the held blocks and declaring an epoch break. -/
  | wardenLeave (mb : Fin 8)
  /-- R297. Query returning warden mode, script state and entry cause. -/
  | wardenStatus (mb : Fin 8)
  /-- R298. Query returning the chips of the domain. -/
  | domList (mb : Fin 8)
  /-- R298. Removes and returns the oldest mirrored event record of a child chip. -/
  | domEvent (mb : Fin 8)
  /-- R208. Removes a lost child from the domain as an epoch break of the root. -/
  | domForget (mb : Fin 8)
  /-- R457. Requests a power domain to ON, RET or OFF. -/
  | domPstate (mb : Fin 8)
  /-- R463. Sets a power domain's idle timer, idle target and wake-source mask. -/
  | domPcfg (mb : Fin 8)
  /-- R466. Query returning a power domain's state, settings and last-wake record. -/
  | domStatus (mb : Fin 8)
  /-- R298. Query returning keeper contents. -/
  | domKeeper (mb : Fin 8)
  /-- R299. Query returning the state of both image slots and any pending activation. -/
  | fwInfo (mb : Fin 8)
  /-- R496. Starts erasing an image slot for staging. -/
  | fwBegin (mb : Fin 8)
  /-- R496. Programs image data units into a staging slot at the staged count. -/
  | fwWrite (mb : Fin 8)
  /-- R494. Verifies a slot's image and reports the outcome. -/
  | fwVerify (mb : Fin 8)
  /-- R497. Records an activation of a verified slot at next start, at once or at a wall time. -/
  | fwActivate (mb : Fin 8)
  /-- R299. Discards a staging slot or cancels a pending activation. -/
  | fwCancel (mb : Fin 8)
  /-- R299. Query returning station-profile bytes. -/
  | profRead (mb : Fin 8)
  /-- R299. Stores a new station profile beside the active one for the next chip-level start. -/
  | profWrite (mb : Fin 8)
  /-- R300. Query returning the upstream transport, speed and budget. -/
  | linkStatus (mb : Fin 8)
  /-- R300. Lowers the upstream budget. -/
  | linkBudget (mb : Fin 8)
  /-- R300. Removes the upstream connection for an off time and reconnects. -/
  | linkDetach (mb : Fin 8)
  /-- R505. Selects a test-multiplexer signal or permanently disables the multiplexer. -/
  | testTmux (mb : Fin 8)
  /-- R507. Runs logic BIST on a group or memory BIST on a rotated bank. -/
  | testBist (mb : Fin 8)
  /-- R509. Runs a PHY loopback test on a port. -/
  | testLoop (mb : Fin 8)
  /-- R510. Query returning the last BIST and loopback results. -/
  | testResult (mb : Fin 8)
  /-- R64. A write to CCI_DOORBELL rings idle mailboxes in ascending order and starts their
      commands. -/
  | doorbellRing (mask : Byte)
  /-- R65. A write of 1 to CCI_DONE bits returns DONE mailboxes to IDLE. -/
  | cciDoneWrite (mask : Byte)
  /-- R99. A write to CCI_ABORT.REQ requests abort of named mailboxes' commands. -/
  | abortReqWrite (mask : Byte)
  /-- R83. A 64-byte data unit arrives by CCI_DATAIN or the data pipe and is consumed into its
      command's buffer. -/
  | dataUnit (bytes : List Byte)
  /-- R94. A four-word read of CCI_EVREAD returns and removes the oldest event. -/
  | eventRead (words : Fin 5)
  /-- R94. A 16-word read of CCI_RQREAD returns and removes 64 stream bytes. -/
  | streamRead (words : Fin 17)
  /-- R46. A write to a bit alias applies bit 0 to the aliased bit alone under its access type. -/
  | bitAliasWrite (off : BitVec 16) (val : Word)
  /-- R45. A read of a bit alias returns the bit and clears it alone if it is RC. -/
  | bitAliasRead (off : BitVec 16)
  /-- R41. A write setting a lock bit locks its fields for every later write. -/
  | lockBitSet (off : BitVec 16) (val : Word)
  /-- R36. A host write to a register without a row of its own, judged under access type, lock and
      CFG rules. -/
  | registerWrite (off : BitVec 16) (val : Word)
  /-- R34. A completed read of a register holding RC fields returns and clears them. -/
  | rcFieldRead (off : BitVec 16)
  /-- R140. A read of a *_LO register latches its *_HI partner. -/
  | loRegisterRead (off : BitVec 16)
  /-- R476. Clears the keeper's lightning count and wall time. -/
  | ltnClr
  /-- R467. A write to PD_PADHOLD.REL releases a held pad bank on the SVH16. -/
  | padHoldRelease (val : Word)
  /-- R434. A write to CAMP_CLEAR clears the selected fault source as fault.clear does. -/
  | campClear
  /-- R428. A write to CAMP_FORCE overrides the selected source's wires. -/
  | campForce (pat : BitVec 2)
  /-- R504. A write to TMUX_SELn changes a pin's selected signal at the next tick. -/
  | tmuxSelWrite (off : BitVec 16) (val : Word)
  /-- R55. A USB vendor request reads consecutive HRS registers. -/
  | regRead (off : BitVec 16) (len : Nat)
  /-- R56. A USB vendor request writes consecutive HRS registers once its data stage completes. -/
  | regWrite (off : BitVec 16) (len : Nat) (data : List Byte)
  /-- R59. An SPI read frame returns registers, taking effect only when its chip select rises
      after the CRC byte. -/
  | spiReadFrame (header : List Byte) (statusBytes clocked : Nat)
  /-- R60. An SPI write frame is applied at chip-select rise only if complete with a matching CRC. -/
  | spiWriteFrame (bytes : List Byte)
  /-- R62. Opcode 0x05 returns the SPI status byte of the last non-status frame. -/
  | spiStatusFrame
  /-- R61. A misaligned, unknown, range-crossing or truncated-header frame is not applied and sets
      status. -/
  | spiFrameRefused (bytes : List Byte)
  /-- R97. A command-pipe transfer writes a command into a window and rings its doorbell as one
      action. -/
  | commandPipeTransfer (bytes : List Byte)
  /-- R98. The ACK of the packet ending an EP1 IN transfer delivers its records. -/
  | ep1InTransferEnd (acked : Bool)
  /-- R275. An ACKed interrupt packet removes its event records from the queue. -/
  | ep3InEventPacket (n : Fin 5) (acked : Bool)
  /-- R65. The hub writes a command's whole response and sets its DONE bit. -/
  | mailboxResponse (mb : Fin 8)
  /-- R83. A command whose LAST unit has not arrived within DTIMEOUT ends with TIMEOUT. -/
  | dtimeoutExpiry (mb : Fin 8)
  /-- R100. An abort not resolved within 1 ms forces a management restart. -/
  | abortEscalation
  /-- R143. The upstream host requests a reset of a transparent port, or of the embedded port. -/
  | setPortFeaturePortReset (h : HubPort)
  /-- R159. Removes power from a transparent port with cause 2. -/
  | clearPortFeaturePortPower (h : HubPort)
  /-- R159. Resumes the power-up order on an unpowered transparent port. -/
  | setPortFeaturePortPower (h : HubPort)
  /-- R162. Selectively suspends a transparent port. -/
  | setPortFeaturePortSuspend (h : HubPort)
  /-- R162. Resumes a selectively suspended transparent port. -/
  | clearPortFeaturePortSuspend (h : HubPort)
  /-- R146. The upstream host disables a transparent port, which returns to ATTACHED. -/
  | clearPortFeaturePortEnable (h : HubPort)
  /-- R160. Sets a transparent port's LED indication. -/
  | setPortFeaturePortIndicator (h : HubPort) (sel : Fin 4)
  /-- R160. Runs a USB 2.0 test mode on a transparent port. -/
  | setPortFeaturePortTest (h : HubPort) (sel : Fin 6)
  /-- R156. Switches the hub function between single and multi transaction translators. -/
  | alternateSettingChange (alt : Fin 2) (busy : Nat)
  /-- R275. An upstream bus reset or detach returns the hub and Caside functions to default and
      sets RESYNC_PEND. -/
  | upstreamReset (detach : Bool)
  /-- R157. The upstream link attaches, sampling OC_MODE and setting the upstream budget. -/
  | upstreamAttach (highSpeed : Bool)
  /-- R161. After 3 ms of upstream idle the hub function suspends its transparent ports. -/
  | globalSuspend (rwake caside : Bool)
  /-- R20. A debounced CC attach starts the power-up order with a moisture check. -/
  | ccAttach (p : Port) (kind : AttachKind)
  /-- R147. A debounced CC detach sends the port to OFF at once. -/
  | ccDetach (p : Port)
  /-- R351. A moisture reading tests SBU1 and SBU2 and judges the cable wet or dry. -/
  | moistureReading (p : Port) (kohm1 kohm2 : Nat)
  /-- R352. The moisture interval expires and a reading is taken on a WET or powered port. -/
  | moistureInterval (p : Port) (kohm1 kohm2 : Nat)
  /-- R142. A device pull-up is sensed once the port is POWERED and its PD step has ended. -/
  | connectSensed (p : Port) (pull : Pull)
  /-- R143. A stable pull-up for CONN_DB moves a concentrated port to ATTACHED and starts a reset. -/
  | connectDebounceEnd (p : Port)
  /-- R144. A port reset ends, settling the speed and enabling the port. -/
  | resetEnd (p : Port) (chirp : Chirp)
  /-- R148. The pull-up disappears with CC attached and the port returns to POWERED. -/
  | usbDisconnect (p : Port) (lost : DisconnectAt)
  /-- R164. A device drives K on a suspended port and the hub drives a resume. -/
  | remoteWake (p : Port)
  /-- R163. The resume EOP ends and the port enters ENABLED. -/
  | resumeEnd (p : Port)
  /-- R163. 10 ms after a concentrated port's resume, port.resume completes. -/
  | resumeRecoveryEnd (p : Port)
  /-- R166. A clamp-current or VO surge signature idles the port's bus and is counted. -/
  | surgeSignature (p : Port) (data cc vo : Bool)
  /-- R168. 1 ms without a further signature, the port recovers by reset or by reporting to the
      upstream host. -/
  | surgeRecovery (p : Port)
  /-- R170. Babble at the end of a frame sends the port to ERROR with cause 4. -/
  | babble (p : Port)
  /-- R170. 100 ms after babble the hub resets a concentrated port once. -/
  | babbleReset (p : Port)
  /-- R311. A booked stagger slot opens and the gate ramps under the inrush limit. -/
  | staggerSlotOpen (p : Port) (voMv : Nat)
  /-- R312. At the third qualifying sample the hub asserts power-good and arms the breaker. -/
  | powerGood (p : Port) (gateMv voMv railMv dropMv : Nat)
  /-- R313. The inrush timer expires before power-good and the port trips. -/
  | inrushFail (p : Port) (mA : Nat)
  /-- R314. Power-good criteria failing for 10 ms trip the port. -/
  | pgLost (p : Port) (voMv : Nat)
  /-- R316. A breaker accumulator reaches its trip time and the gates are removed. -/
  | itTrip (p : Port) (mA : Nat)
  /-- R318. Current reaching the fast-trip threshold removes the gates within 1 µs. -/
  | fastTrip (p : Port) (mA : Nat)
  /-- R320. A cool-down timer expires and the port resumes at its first booked slot. -/
  | cooldownExpiry (p : Port)
  /-- R321. 600 s of continuous power-good without a trip returns the ladder count to 0. -/
  | ladderReset (p : Port)
  /-- R325. VO above 1.0 V for 5 ms with both gates off latches the port STUCK_ON. -/
  | stuckOn (p : Port) (voMv : Nat)
  /-- R326. A trip demanded on a STUCK_ON port removes the group's master gate. -/
  | gmgStuck (g : Fin 6)
  /-- R327. The periodic drop check finds a drop above DROP_MAX and posts a warning. -/
  | fetWarn (p : Port) (dropMv mA : Nat)
  /-- R303. The cathode above a feed's anode turns that feed's FET off within 500 ns. -/
  | feedReverseOff (f : Fin 2)
  /-- R304. A feed becomes present or is lost, changing the carrying feed and budget. -/
  | feedPresenceChange (f : Fin 2) (mv : Nat)
  /-- R304. A feed above 62 V has its FET turned off and counts on FS60 or FS61. -/
  | feedOv (f : Fin 2) (mv : Nat)
  /-- R306. A rail out of band for 1 ms counts on FS62 or FS63 and blocks grants on it. -/
  | railOutOfBand (r : Fin 2) (mv : Nat)
  /-- R307. A rail out of band for 100 ms has power removed from every port on it. -/
  | railPowerRemoval (r : Fin 2)
  /-- R307. A rail back in band for 1 s has its ports granted again. -/
  | railRestore (r : Fin 2)
  /-- R330. Clover grants a waiting port budget and books its stagger slot. -/
  | budgetGrant (p : Port)
  /-- R334. Feed budget below load sheds whole priority classes from class 7 down. -/
  | shed
  /-- R335. Budget covering shed classes for RESTORE seconds grants the shed ports again. -/
  | shedRestore
  /-- R343. The port sends Source_Capabilities 20 ms after power-good or on a re-offer. -/
  | sourceCapabilitiesSend (p : Port) (answered : Bool)
  /-- R346. A sink Request is answered with Reject, Wait or Accept within 15 ms. -/
  | request (p : Port) (rdo : Word) (pd2 : Bool)
  /-- R347. Once the output is ready the port sends PS_RDY and the contract becomes explicit. -/
  | psRdy (p : Port)
  /-- R348. A missing GoodCRC, Request or response escalates along the negotiation ladder. -/
  | pdResponseTimeout (p : Port)
  /-- R348. A Soft_Reset is sent or received on the port. -/
  | softReset (p : Port) (byPartner : Bool)
  /-- R350. A Hard_Reset removes power, exits any mode and waits before ramping again. -/
  | hardReset (p : Port) (byPartner : Bool)
  /-- R350. 700 ms after VO falls the port ramps again at 5 V in a fresh slot. -/
  | hardResetWaitEnd (p : Port)
  /-- R349. The port keeps 5 V at Default USB power and ends its PD step. -/
  | typeCOnlyFallback (p : Port)
  /-- R349. In the fallback the port resends Source_Capabilities every 2 s, up to 10 times. -/
  | fallbackReoffer (p : Port)
  /-- R348. An explicit contract standing 10 s returns HRST to 0. -/
  | hrstReset (p : Port)
  /-- R355. A partner's PR_Swap on a service port is accepted or rejected. -/
  | prSwap (p : Port) (partnerStarts : Bool) (answer : PdAnswer)
  /-- R357. VO collapse or PFW_N fall on an enabled port triggers a fast role swap. -/
  | frSwap (p : Port)
  /-- R360. After a PD 3.x contract the hub discovers identity, SVIDs and Otind modes. -/
  | discoverIdentity (p : Port) (ufp : Bool) (svid : Nat) (modes : List Nat)
  /-- R363. An Enter Mode ACK switches the SBU multiplexer to PSYNC or CANB. -/
  | enterModeAck (p : Port) (ans : ModeAnswer)
  /-- R363. A partner's Exit Mode sets the SBU multiplexer to OPEN before the ACK. -/
  | partnerExitMode (p : Port)
  /-- R359. A service port's VBUS above 4.0 V with VPD low starts the dead-battery rescue
      sequence. -/
  | rescueVbus (p : Port) (mv : Nat)
  /-- R359. 20 ms after RESCUE_EN the hub checks VRES_SNS and retries or gives up. -/
  | rescueRegulationCheck (p : Port) (mv : Nat)
  /-- R111. An accepted reference edge updates an angle clock's loop and lock state. -/
  | referenceEvent (k : Fin 4) (chg : PinChange)
  /-- R110. An index edge realigns an angle clock to OFFSET. -/
  | indexEdge (k : Fin 4) (m : Fin 8) (after hold : Nat) (rising : Bool)
  /-- R109. A backward quadrature event holds the clock and sets REVERSE. -/
  | reverse (k : Fin 4) (aLeads : Bool)
  /-- R116. No reference event within 1.5 intervals moves the clock to HOLDOVER. -/
  | referenceLoss (k : Fin 4)
  /-- R115. HOLD_LIM elapsed in HOLDOVER moves the clock to FREE. -/
  | holdLimExpiry (tb : Fin 5)
  /-- R111. The angle wraps and the cycle count increments. -/
  | cycleWrap (k : Fin 4)
  /-- R125. Every 30 s of wall time an anchor is emitted for each time base in use. -/
  | anchorPeriodic (tb : Fin 5)
  /-- R119. A PPS or link second edge steers the wall clock. -/
  | wallDisciplineEdge (after : Nat) (rising : Bool)
  /-- R119. 1.5 s without a discipline edge enters wall HOLDOVER, and WALL_CFG.HOLD_LIM later
      FREE. -/
  | wallHoldover
  /-- R137. A received link cycle or second mark drives the chip's LINK clocks. -/
  | linkMark (pulse : LinkPulse)
  /-- R139. A received link frame may adopt or skew a follower's cycle count or step wall time. -/
  | linkFrame (pulses : List LinkPulse)
  /-- R136. After each second mark the transmitter sends wall and slot frames. -/
  | linkTransmit
  /-- R133. An accepted capture edge is dated and queued for CAPTURE channels. -/
  | captureEdge (m : Fin 8) (after hold : Nat) (rising : Bool)
  /-- R128. A phase-output target is crossed and the pin edge placed. -/
  | phaseOutputTarget (n : Fin 16)
  /-- R132. A port sync target falls due and pulses SBU1, or is dropped. -/
  | psyncTarget (p : Port)
  /-- R217. A schedule target falls due as the live time base reaches it. -/
  | targetDue (slot : Fin 4096)
  /-- R218. At the first idle moment Tansy issues the highest-priority due token. -/
  | tokenIssue (p : Port)
  /-- R220. A guaranteed target not started by its LATE_BOUND yields a MISSED record. -/
  | lateMiss (slot : Fin 4096)
  /-- R214. An undispatched best-effort target is replaced by the next one with a MISSED record. -/
  | bestEffortReplaced (slot : Fin 4096)
  /-- R219. An SOF falls due and follows any transaction on the wire. -/
  | sof (p : Port)
  /-- R193. A USB transaction ends with data, NAK, STALL or error and yields its record. -/
  | transactionEnd (p : Port) (outcome : TxnOutcome)
  /-- R196. A built record is filtered, committed with a sequence number and sent to its
      destinations. -/
  | recordCommit (slot : Fin 4096)
  /-- R242. At the apply point every affected block switches to the calendar loaded at commit. -/
  | applyPoint
  /-- R237. 60 s with no sched command cancels an OPEN transaction. -/
  | transactionIdleTimeout
  /-- R174. The embedded host enumerates a device after reset. -/
  | enumeration (p : Port) (dev : DevDesc)
  /-- R175. A failed enumeration step retries up to 3 times, then fails the port or hub port. -/
  | enumerationStepFail (p : Port) (step : Fin 8) (hub1 hub2 : Nat)
  /-- R206. An admitted Otind child joins the domain and receives a chip number. -/
  | childJoin (join : Join)
  /-- R208. A child's link is lost and relayed commands are held until rejoin. -/
  | childLost (chip : Fin 64) (reason : Fin 4)
  /-- R95. A Cowslip occupancy mismatch discards its items and raises its fault source. -/
  | cowslipFlush (q : Fin 6) (far : Fin 64) (sent : Nat)
  /-- R268. The record area changes level between NORMAL, PRESSURE and FULL. -/
  | journalLevel
  /-- R273. Management writes a state-area checkpoint at least once per second or 1,000 entries. -/
  | checkpoint
  /-- R271. PFW_N low for 2 µs seals the journal and stores SEAL_CSEQ in the keeper. -/
  | seal
  /-- R272. PFW_N high for 10 ms with supplies in range unseals the journal. -/
  | unseal
  /-- R273. Yarrow restarts the management pair, which replays the journal and answers POSTED
      mailboxes. -/
  | managementRestart (cause : Fin 3)
  /-- R274. A group engine restarts and reloads its channels from the state area. -/
  | groupRestart (g : Fin 6)
  /-- R426. A management restart not complete within 20 ms raises FS106. -/
  | managementRestartTimeout
  /-- R426. A group restart not complete within 15 ms raises FS107 and holds the engine in reset. -/
  | groupRestartTimeout (g : Fin 6)
  /-- R204. A proxied control request exceeding CTRL_TMO completes with CTRL_ABORTED. -/
  | ctrlTmoExpiry (slot : Fin 4096)
  /-- R379. A received CAN frame is filtered into a queue and appended as a record. The command stands at the
  frame's SOF; the frame takes `ticks` of 10 ns. -/
  | canFrameReceived (c : Fin 2) (frame : CanFrame) (ticks : Nat)
  /-- R382. At each start of arbitration the highest-priority pending buffer is entered. -/
  | canArbitrationStart (c : Fin 2)
  /-- R384. A transmission ends SENT, FAILED or ABORTED and the buffer empties. -/
  | canTxEnd (c : Fin 2) (result : CanResult)
  /-- R381. An armed buffer's target falls due and it becomes pending. -/
  | canArmedDue (c : Fin 2) (buf : Fin 32)
  /-- R386. The transmit counter passing 255 sends the controller bus-off and aborts buffers. -/
  | busOff (c : Fin 2)
  /-- R386. Error counters move the controller between error-active and error-passive. -/
  | canErrorStateChange (c : Fin 2) (err : CanError)
  /-- R387. 128 recessive sequences return the controller to error-active. -/
  | busOffRecoveryEnd (c : Fin 2)
  /-- R375. A candidate's dwell ends without success and the next is tried. -/
  | autobaudDwellEnd (c : Fin 2)
  /-- R388. After the intermission EN_STAT falls and CANx_STB rises. -/
  | canDisableComplete (c : Fin 2)
  /-- R427. A source's pair changes to fault for 2 samples and is counted. -/
  | faultEvent (src : Source) (persists : Bool)
  /-- R427. A 0b00 or 0b11 pattern for 2 samples counts on the source and FS59. -/
  | wireFault (src : Source) (high : Bool)
  /-- R430. A reacted source's cause goes and it moves to REACTED. -/
  | causeGone (src : Source)
  /-- R436. A Campion self-check mismatch raises FS58 and forces the safe state. -/
  | selfCheckFail
  /-- R451. No Yarrow heartbeat for 2 ms raises FS57. -/
  | wardenHeartbeatMissing
  /-- R451. Every 500 µs the hub makes an ALIVE edge if heartbeat and self-check hold. `ago`: ticks from
  Yarrow's last heartbeat to the edge. -/
  | aliveEdge (ago : Nat)
  /-- R437. Within 5 ms Yarrow answers mailboxes, voids transactions and closes expert levels. -/
  | wardenCleanup
  /-- R445. A wind-down step or group starts at its instant. -/
  | scriptStepStart
  /-- R445. A script frame falls due at s + k × PERIOD and enters arbitration. -/
  | scriptFrame (buf : Fin 8)
  /-- R445. A received frame at or below the limit ends a WAIT_RX step. -/
  | waitRxMatch (frame : CanFrame)
  /-- R445. A step's duration ends, or a WAIT_RX times out to ON_TIMEOUT. -/
  | scriptStepEnd
  /-- R450. SAFE_HOLD expires and the hub resets itself. -/
  | safeHoldExpiry
  /-- R404. A parity error on a read starts page correction. -/
  | parityError (page : PageRef) (errors : Nat) (who : Requester)
  /-- R400. Teasel recomputes a stale LAZY page's code. -/
  | staleRecompute (page : PageRef)
  /-- R401. A write finding the stale queue full is handled as EAGER and counted. -/
  | staleOvf (page : PageRef)
  /-- R407. The scrubber visits a page, corrects it or poisons it. -/
  | scrubVisit (page : PageRef) (errors : Nat)
  /-- R416. One page is decoded at its old strength and encoded at the new. -/
  | restrengthStep (errors offset : Nat)
  /-- R418. A restrength ends early and leaves the region MIXED. -/
  | rsEnded
  /-- R409. A bank copy completes and its addresses are remapped in one cycle. -/
  | rotationCopyDone
  /-- R412. An SRAM bank meeting a retirement condition is rotated out for good. -/
  | bankRetired (bank : Fin 17)
  /-- R413. An external page is copied into a spare frame. -/
  | pageRetired (page : PageRef)
  /-- R414. A retired frame or bank is recorded in NOR within 1 s. -/
  | retirementListWrite
  /-- R421. An armed flip is applied to the next write to its range. -/
  | injectionFired (page : PageRef) (byteOff : Nat)
  /-- R463. A domain's idle timer expires and issues a sleep request. -/
  | idleTimerExpiry (d : Fin 33)
  /-- R459. The power controller stops clocks, isolates and lowers a domain's supply. -/
  | domainEntry (d : Fin 33)
  /-- R460. A wake source takes a domain to ON, abandoning or following entry. -/
  | domainWake (d : Fin 33) (src : Fin 16)
  /-- R460. A waking domain reaches ON after its domain reset. -/
  | wakeComplete (d : Fin 33)
  /-- R470. The regulator acknowledges a VOUT_COMMAND. -/
  | vcoreAck
  /-- R470. No acknowledgement in 2 ms rewrites once, then raises FS94 and VCORE_FAIL. -/
  | vcoreAckTimeout (statusWord : BitVec 16)
  /-- R471. PM_ALERT_N falling reads STATUS_WORD and clears faults. -/
  | pmAlert (statusWord : BitVec 16)
  /-- R475. An accepted edge on WAKE0–WAKE3 is latched and acts as a wake source. -/
  | wakeInput (input : Fin 4) (rising : Bool)
  /-- R474. Every 60 s the hub writes the wall-time and RTC pair into the keeper. -/
  | wallPairWrite
  /-- R474. Every 24 h the hub writes wall time to the NOR record. -/
  | norWallWrite
  /-- R461. The wall alarm PD_ALARM falls due as wake source 5. -/
  | palarmDue
  /-- R38. A posted keeper or port-die write completes and BUSY clears. -/
  | postedWriteComplete (dom : Fin 3)
  /-- R278. The retention supply falling below its minimum latches RET_LOW and breaks the epoch. -/
  | retLow
  /-- R278. VBAK leaving its range while running declares an epoch break. -/
  | vbakLoss
  /-- R483. VDD18 or VCORE rising into range resets the hub. -/
  | powerOnReset (straps : Straps) (keeperKept journalKept : Bool)
  /-- R483. RESET_N low for 10 µs resets the hub and straps are sampled at its rise. -/
  | pinReset (straps : Straps)
  /-- R484. A commanded or internal chip reset seals the journal and resets the digital die. -/
  | chipReset
  /-- R426. A clock-monitor fault forces the safe state and a chip reset 1 ms later. -/
  | clock
  /-- R486. The hub starts through ROM, image verification, journal initialisation and connection. -/
  | bootSequence (linearVout : Bool)
  /-- R495. 60 s on trial without failure confirms the image and sets the thermometer. -/
  | imageConfirm
  /-- R495. A failure on trial counts and the third reverts to the other slot. -/
  | bootFailure
  /-- R497. A wall-time activation falls due and chip-resets into the slot. -/
  | activationDue
  /-- R299. A slot erase ends and EV120 code 0x01 is posted. -/
  | eraseEnd (slotB : Bool)
  /-- R499. A rescue start powers the rescue island and presents Caside on the rescue port. -/
  | rescueStart
  /-- R499. The rescue port detaches and the hub chip-resets or loses supply. -/
  | rescuePortDetach
  /-- R500. After a fast role swap, a returned feed drops RESCUE_EN, or loss of PGOOD_IN starts a
      rescue. -/
  | frsFeedReturn (feedPresent : Bool)
  /-- R507. Logic or memory BIST ends and the group restarts or stays held. -/
  | bistDone (pass : Bool) (signature : Word)
  /-- R509. A loopback test ends at its duration or early on a port event. -/
  | loopDone (packets errors : Nat)
  /-- R161. Upstream bus activity ends the hub function's global suspend and resumes its suspended
      transparent ports and the delivery of records and events. -/
  | upstreamResume
  /-- R158. The upstream host configures the hub function, after which connections on transparent
      ports are reported again. -/
  | hubSetConfiguration (configured : Bool)
  /-- R354. A source partner's Source_Capabilities reach a service port in sink role, and the hub
      requests the 5 V object or, during rescue, the object of highest power. -/
  | partnerSourceCapabilities (p : Port) (pdos : List Word)
  /-- R340. An unsolicited partner PD message (Get_Source_Cap, Get_Sink_Cap, DR_Swap, VCONN_Swap,
      BIST, a VDM or an unlisted message) is answered as the supported subset states. -/
  | pdMessageReceived (p : Port) (msg : PdMessage)
  /-- R429. A Campion sub-window of W/16 ends, dropping the oldest events from a source's count
      and moving a COUNTING source with a count of 0 to CLEAR. -/
  | subWindowEnd (src : Source)
  /-- R306. A rail returns within ±10 % of its declared voltage, posting EV62 or EV63 and re-
      offering Source_Capabilities when the rail is RAIL_HI. -/
  | railInBand (r : Fin 2) (mv : Nat)
  /-- R477. VBAK rises back to 1.8 V or above, clearing VBAK_LOW and posting EV101 with code 0x03
      and byte 8 = 0. -/
  | vbakRestored
  /-- R481. Every supply except VBAK, and possibly the retention supply, leaves its range, so the
      hub stops with or without a seal and only the keeper and the retained journal survive. -/
  | supplyLoss
  /-- R512. A TCK edge advances the IEEE 1149.1 TAP controller under TMS and TDI, loading
      instructions or shifting the boundary register. -/
  | tapClock (tms tdi resetLow : Bool)
  /-- R207. The root receives a child's response, record, event or acknowledgement over the domain
      link and forwards it, answering the relayed mailbox or extending its record stream. -/
  | domainLinkFrame (chip : Fin 64) (frame : DomainFrame)
  /-- R120. A time.adjust slew has absorbed its requested offset, and the wall clock returns to
      its undisturbed rate. -/
  | wallSlewEnd
  deriving DecidableEq, Repr

end Sys2Proof
end

