-- ==== Sys2Proof/WellFormed.lean ====
section
/-!
DEFINITION. Which commands are well formed: the operand shapes a transport, a bus or a link can
deliver at all. A command that is not well formed names no event of the block.
-/

namespace Sys2Proof

/-- Payload lengths a CAN frame can have (R368): 0 to 8, then the FD steps. -/
def canLengthOk (fd : Bool) (n : Nat) : Bool :=
  if fd then n ≤ 8 || n ∈ [12, 16, 20, 24, 32, 48, 64] else n ≤ 8

/-- A CAN frame whose identifier and data fit its format (R368, R376). -/
def CanFrame.wf (f : CanFrame) : Bool :=
  (f.id < (if f.ext then 2 ^ 29 else 2 ^ 11)) && canLengthOk f.fd f.data.length &&
    f.dlc < 16 && !(f.fd && f.rtr) && (f.fd || !f.brs) && (!f.rtr || f.data.isEmpty)

/-- The descriptors of a device lie in their USB 2.0 ranges (R174, R177, R181). -/
def DevDesc.wf (d : DevDesc) : Bool :=
  1 ≤ d.tier && d.tier ≤ 4 && d.vid < 65536 && d.pid < 65536 && d.bcd < 65536 &&
    1 ≤ d.speed && d.speed ≤ 3

/-- The well-formed commands. Every operand not named here is bounded by its type. -/
def Instr.wf : Instr → Bool
  | .dataUnit bytes => bytes.length ≤ 64
  | .registerWrite off _ | .bitAliasWrite off _ | .lockBitSet off _ | .tmuxSelWrite off _
  | .rcFieldRead off | .loRegisterRead off | .bitAliasRead off => off.toNat % 4 = 0
  | .regWrite _ len data => data.length ≤ len
  | .spiReadFrame header _ _ => header.length = 4
  | .canFrameReceived _ f _ | .waitRxMatch f => f.wf
  | .enumeration _ d => d.wf
  | .linkFrame l => l.length ≤ 128
  | .moistureReading _ a b | .moistureInterval _ a b => a ≤ 4294967295 && b ≤ 4294967295
  | .partnerSourceCapabilities _ pdos => pdos.length ≤ 7
  | .referenceEvent _ c => c.levels < 64
  | _ => true

end Sys2Proof
end

