-- ==== Sys2Proof/Decode.lean ====
section
/-!
DEFINITION. The decoder over the bits of spec/opcode_table.json. The table gives no row any bits
(every row's list of fields is empty), so no word spells a command and the decoder refuses all.
-/

namespace Sys2Proof

/-- The command an instruction of `nbits` bits with value `w` spells by the table: none, since no
row of the table has bits (assumption 1). -/
def decodeTableWord (_nbits _w : Nat) : Option Instr := none

/-- The command a vendor request to the Caside function's interface makes (R55): `bmRequestType`, `bRequest`,
`wValue` (the offset), `wLength`, and the bytes of the data stage. -/
def vendorRequest (reqType req value len : Nat) (data : List (BitVec 8)) : Option Instr :=
  if reqType = 0xC1 ∧ req = 0x10 then some (.regRead (BitVec.ofNat 16 value) len)
  else if reqType = 0x41 ∧ req = 0x11 then some (.regWrite (BitVec.ofNat 16 value) len data)
  else none

end Sys2Proof
end

