-- ==== Sys2Proof/Config.lean ====
section
/-!
DEFINITION. What one implementation fixes and the manual leaves open: free values. Each is an
opaque constant without a body, so that no proof can see a number behind it. The log entry that
declares each is named beside it.
-/

namespace Sys2Proof.Config

/-- The free value a step draws (assumption 5): applied to State's `freeCtr`, which the step that
draws it advances. -/
opaque freeValue : Nat → BitVec 32

/-- Whether an ECDSA P-256 signature over the image header verifies under the key held in the boot
ROM (R494): a function of the 112 signed header bytes, whose key the manual does not print
(assumption 6). -/
opaque signatureOk : List (BitVec 8) → Bool

/-- SHA-256 of an image body (R493): the hash the manual names without giving its definition
(assumption 6). -/
opaque sha256 : List (BitVec 8) → List (BitVec 8)

/-- Which instruction of the test access port a code of its instruction register selects (R512), but for all
ones, which is `BYPASS` by IEEE 1149.1: the manual names the instructions without their codes (assumption 58). -/
opaque tapCode : Nat → Nat

end Sys2Proof.Config
end

