-- ==== Sys2Proof/Machine/State.lean ====
section
/-!
DEFINITION. The state of one SVH48 or SVH16 chip as plain data: every register, mailbox, queue,
port, channel, clock, table and latch the manual gives it, and the queue of waiting commands.
Every field carries its reset value as its default, so that `State.reset` is the record of
defaults. A field's comment names the rule that gives it; fields marked MODEL are the model's own.
-/

namespace Sys2Proof.Machine

/-- How a step stops the run with a fault. -/
inductive Fault where
  /-- A register write altered a reserved live field: R43 leaves the behaviour after it
  unspecified. Raised by every path of a register write. Safe: the model stops. -/
  | reservedLiveWrite
  deriving DecidableEq, Repr

/-- How a step is refused. -/
inductive Refusal where
  /-- No meaning is given to the command yet. Safe: the model stops. -/
  | notModelled (mnemonic : String)
  deriving DecidableEq, Repr

/-- The two orderable parts (R1, R3). -/
inductive Variant where
  | svh48
  | svh16
  deriving DecidableEq, Repr

/-- Status words (R285), and the one success word. -/
inductive Status where
  | ok | busy | badParam | noResource | notPermitted | locked | wrongState | staleHandle
  | aborted | expertRequired | duplicate | timeout | ctrlAborted | mixed
  deriving DecidableEq, Repr

/-! ## The command interface (chapter 3) -/

/-- A response as the window receives it (R72). -/
structure Resp where
  status : Status := .ok
  cached : Bool := false
  escalated : Bool := false
  committed : Bool := false
  results : List Byte := []
  time32 : Nat := 0
  deriving DecidableEq, Repr

/-- Mailbox states (R63). -/
inductive MbState where
  | idle | posted | done
  deriving DecidableEq, Repr

/-- What a committed command still waits for before it is answered (R255, R256, and the answers
the catalogue places after a completion). -/
inductive Wait where
  /-- The incomplete result-cache entry of this `CSEQ` (R256). -/
  | cacheEntry (cseq : Nat)
  /-- `chan.pause`, `chan.stop_group`: transactions of these slots in flight (R199). -/
  | paused (slots : List Nat) (results : List Byte)
  /-- `chan.close` with `ABORT`: the transaction in flight (R202). -/
  | closed (slot : Nat)
  /-- `chan.ctrl`: the control request of the channel (R203). -/
  | ctrl (slot : Nat)
  /-- `port.mode`: the change of R150 (a transaction on the bus). -/
  | portMode (p : Nat)
  /-- `port.reset`: the reset's end. -/
  | portReset (p : Nat)
  /-- `port.suspend`: the transaction in progress (R162). -/
  | portSuspend (p : Nat)
  /-- `port.resume`: the resume's end (R165). -/
  | portResume (p : Nat)
  /-- `can.enable` 0: the frame on the bus (R388). -/
  | canDisable (c : Nat) (mask : Nat)
  /-- `can.txabort`: the frame on the bus (R385). -/
  | canAbort (c : Nat) (aborted : Nat) (onBus : Nat)
  /-- `can.autobaud`: the candidates (R375). -/
  | autobaud (c : Nat)
  /-- `integ.rotate`, and the way out of a memory BIST: the copy (R409). -/
  | rotate
  /-- `dom.pstate`: the state asked for (R464). -/
  | domain (code : Nat) (target : Nat)
  /-- `pd.swap`: the swap's outcome (R355). -/
  | pdSwap (p : Nat)
  /-- `pd.altmode`: Enter Mode or Exit Mode acknowledged (R361). -/
  | altMode (p : Nat)
  /-- `test.bist` (R507, R508). -/
  | bist
  /-- `test.loop` (R509). -/
  | loop (p : Nat)
  /-- A command relayed to a child chip (R207). -/
  | relay (chip : Nat)
  deriving DecidableEq, Repr

/-- How far a posted command has come. -/
inductive Phase where
  /-- Accepted and judged; its own row runs next. -/
  | ready
  /-- Committed (or relayed), waiting for a completion. -/
  | waiting (w : Wait)
  /-- The response is built; `MAILBOX_RESPONSE` writes it. -/
  | answered (r : Resp)
  deriving DecidableEq, Repr

/-- One mailbox (R63) with the data path of its command (R81 to R84). -/
structure Mailbox where
  state : MbState := .idle
  phase : Phase := .ready
  /-- The 256-byte window, unlisted bytes 0. -/
  win : Tbl Byte := []
  /-- Fields of the accepted command, kept from the header (R70). -/
  op : Nat := 0
  cseq : Nat := 0
  quiet : Bool := false
  data : Bool := false
  expert : Bool := false
  /-- MODEL. The acceptance ordinal (R284) and the tick of the doorbell (R83). -/
  order : Nat := 0
  since : Nat := 0
  /-- Payload of the data units consumed, the next unit index, and whether `LAST` came (R83). -/
  buf : List Byte := []
  nextUnit : Nat := 0
  lastSeen : Bool := false
  /-- Units received whose credits no EV105 has reported yet (R84). -/
  owed : Nat := 0
  /-- A wrong index or `TIMEOUT` ended the command: its later units are orphans (R83, R84). -/
  dead : Bool := false
  /-- Whether the command has reached its journal commit (R253), and its time. -/
  committed : Bool := false
  commitTime : Nat := 0
  /-- A management restart cut the command: its response carries `ESCALATED` (R101). -/
  escalated : Bool := false
  deriving DecidableEq, Repr

/-- One result-cache entry (R75, R256); `resp` is none while the command runs. -/
structure CacheEnt where
  cseq : Nat := 0
  mb : Nat := 0
  resp : Option Resp := none
  deriving DecidableEq, Repr

/-- One event record (R89). -/
structure Event where
  source : Nat := 0
  code : Nat := 0
  eseq : Nat := 0
  time32 : Nat := 0
  detail : List Byte := []
  deriving DecidableEq, Repr

/-- A record header and its data (R559). -/
structure Rec where
  handle : Nat := 0
  seq : Nat := 0
  missed : Bool := false
  error : Bool := false
  last : Bool := false
  holdover : Bool := false
  angle : Nat := 0
  time32 : Nat := 0
  data : List Byte := []
  /-- MODEL. The stamp of the target it serves, or the index of its ring descriptor; no part of the
  record. -/
  stamp : Nat := 0
  deriving DecidableEq, Repr

/-- The host's side of the command interface: registers 0x0100 to 0x02FF that are not plain
storage, and the queues behind them. -/
structure Cci where
  mbs : Tbl Mailbox := []
  /-- MODEL. Next acceptance ordinal. -/
  nextOrder : Nat := 0
  session : Bool := false
  resyncPend : Bool := false
  /-- Credits of the session (R82), and the units that wait to be consumed: tick and mailbox (R84). -/
  credits : Nat := 64
  inq : List (Nat × Nat) := []
  cseqHi : Nat := 0
  evictHi : Nat := 0
  /-- The result cache, oldest first, at most 64 (R75). -/
  cache : List CacheEnt := []
  /-- Opcode groups open at expert level, rising (R79). -/
  expert : List Nat := []
  /-- `CCI_ABORT.REQ` bits pending, and the tick of the request (R99, R100). -/
  abortReq : Nat := 0
  abortSince : Nat := 0
  /-- `ESEQ` of the next event (R89). -/
  eseq : Nat := 0
  evq : List Event := []
  evqHi : Bool := false
  rqHi : Bool := false
  /-- The record queue, its output stage first, then the ring: records with the bytes of each still to be sent
  (R85). -/
  ring : List (Rec × List Byte) := []
  /-- Records the transport sends again ahead of every other (R87, R261, R266). -/
  resend : List Rec := []
  /-- The closing summary of the ended epoch, result bytes 20 to 35 of `sys.hello` (R280). -/
  closing : List Byte := []
  /-- Interrupts of the host port (R91): the assertions follow from the pending bits. -/
  upstreamResets : Nat := 0
  /-- The Caside function signals remote wake upstream (R164). -/
  wakeUp : Bool := false
  crcMismatches : Nat := 0
  deriving DecidableEq, Repr

/-! ## The journal (chapter 8) -/

/-- One entry of the record area (R251, R267). -/
structure JEnt where
  rcd : Rec := {}
  /-- The record has entered the record queue. -/
  queued : Bool := false
  delivered : Bool := false
  acked : Bool := false
  /-- Bytes the entry occupies. -/
  size : Nat := 0
  /-- A 24-byte reference entry of a ring channel (R195). -/
  ringRef : Bool := false
  deriving DecidableEq, Repr

/-- Sorrel (R250 to R280). -/
structure Journal where
  sealed : Bool := false
  /-- Record-area level: 0 `NORMAL`, 1 `PRESSURE`, 2 `FULL` (R268). -/
  level : Nat := 0
  /-- The record area in log order. -/
  area : List JEnt := []
  /-- Command-log entries since the last checkpoint, and its time (R273). -/
  logged : Nat := 0
  checkpointAt : Nat := 0
  checkpoints : Nat := 0
  deriving DecidableEq, Repr

/-! ## Fault collector and warden (chapter 14) -/

/-- One fault source of Campion (R426 to R430). -/
structure FaultSrc where
  /-- 0 `CLEAR`, 1 `COUNTING`, 2 `REACTED`, 3 `CAUSE_PRESENT`. -/
  st : Nat := 0
  /-- The sampled pair of wires: 1 is no fault, 2 fault, 0 and 3 wire faults. -/
  pair : Nat := 1
  /-- The pattern a force holds (R428). -/
  forced : Nat := 0
  /-- N, class and window where they were changed from the table of R426. -/
  cfg : Option (Nat × Nat × Nat) := none
  /-- Events by sub-window (R429): its number and the events in it, newest first. -/
  subs : List (Nat × Nat) := []
  total : Nat := 0
  downgraded : Bool := false
  /-- The class of 2 to 5 it last reacted as. -/
  reactedAs : Nat := 0
  deriving DecidableEq, Repr

/-- The fault collector. -/
structure Campion where
  srcs : Tbl FaultSrc := []
  lastSrc : Nat := 0
  lastClass : Nat := 0
  lastTime : Nat := 0
  selfOk : Bool := true
  deriving DecidableEq, Repr

/-- One step of a wind-down script (R442). -/
structure Step where
  op : Nat := 0
  sflags : Nat := 0
  dlc : Nat := 0
  mix : Nat := 0
  id : Nat := 0
  data : List Byte := []
  period : Nat := 0
  duration : Nat := 0
  fpos : Nat := 0
  ffmt : Nat := 0
  onTimeout : Nat := 0
  endVal : Nat := 0
  deriving DecidableEq, Repr

/-- A script as armed (R440, R441). -/
structure Script where
  steps : List Step := []
  mirrorIds : List Nat := []
  crc : Nat := 0
  deriving DecidableEq, Repr

/-- Yarrow: warden mode, the script, the safe state and `ALIVE` (R437 to R452). -/
structure Warden where
  mode : Bool := false
  /-- Entry cause: a source, or 0xFF for a command. -/
  cause : Nat := 0
  entryTime : Nat := 0
  /-- `WARDEN_CLEANUP` (step 3 of R437) is still to come. -/
  cleanup : Bool := false
  script : Option Script := none
  /-- Data of the last `SENT` frame per mirror entry (R444). -/
  mirrors : Tbl (List Byte) := []
  /-- 0 none running, 2 running, 3 complete. -/
  run : Nat := 0
  /-- First step of the present group, its start tick, frames sent per position. -/
  stepIdx : Nat := 0
  started : Bool := false
  startAt : Nat := 0
  frames : Tbl Nat := []
  /-- Positions of the group whose `WAIT_RX` has met its frame (R445), with the tick. -/
  matched : List (Nat × Nat) := []
  safe : Bool := false
  safeAt : Nat := 0
  /-- `HRS_ALIVE.RUN`, `TOGGLES` and the pin's level; the tick of the last heartbeat. -/
  aliveRun : Bool := false
  toggles : Nat := 0
  aliveLevel : Bool := false
  heartbeat : Nat := 0
  /-- Tick of the last edge of `ALIVE`. -/
  edgeAt : Nat := 0
  /-- `DEGRADED_N` and `SAFE_N` asserted; at reset both are (R486 step 3, R452). -/
  degraded : Bool := true
  safePin : Bool := true
  deriving DecidableEq, Repr

/-! ## Power domains and keeper (chapter 15) -/

/-- A power domain (R455 to R466). -/
structure Domain where
  /-- 0 ON, 1 RET, 2 OFF. -/
  st : Nat := 0
  /-- Entry under way: target 1 or 2, and what asked (0 command, 1 idle timer). -/
  entry : Option (Nat × Nat) := none
  /-- Wake under way: the source and its tick. -/
  wake : Option (Nat × Nat) := none
  /-- A wake that met an entry at or past AP3 (R462): the source and its tick. -/
  wakeAfter : Option (Nat × Nat) := none
  /-- A sleep request deferred by a wake (R462). -/
  deferred : Option Nat := none
  ap : Nat := 0
  lastSrc : Nat := 0xFF
  wflags : Nat := 0
  fromSt : Nat := 0
  toWas : Nat := 0
  wakeTime : Nat := 0
  wakeUs : Nat := 0
  entries : Nat := 0
  /-- Tick at which the idle timer last restarted (R463). -/
  idleAt : Nat := 0
  deriving DecidableEq, Repr

/-- The power controller's own state (R467 to R471). -/
structure PowerCtl where
  /-- The domains; an empty `B16` is OFF (R457). -/
  doms : Tbl Domain := [(0x20, { st := 2 })]
  vcoreMv : Nat := 800
  /-- A `VOUT_COMMAND` unacknowledged: millivolts and attempts; the tick of its last write. -/
  vcorePend : Option (Nat × Nat) := none
  vcoreAt : Nat := 0
  /-- A raise that waits for a lowering (R470). -/
  vcoreNext : Option Nat := none
  pmsw : Nat := 0
  /-- `PD_ALARM` has fallen due since it was last written (R461). -/
  alarmDone : Bool := false
  /-- Pad banks of G0 and G1 held (SVH16) or floating (SVH48). -/
  held : List Nat := []
  /-- Levels the hold latches keep, bit n for `PHOn` (SVH16). -/
  padLevel : Nat := 0
  deriving DecidableEq, Repr

/-- What the keeper holds (R473, R479). -/
structure Keeper where
  epoch : Nat := 1
  sealCseq : Nat := 0
  sealValid : Bool := false
  retLow : Bool := false
  ltnCount : Nat := 0
  ltnWall : Nat := 0
  b16Bank : Nat := 0x1F
  b16Retired : Bool := false
  safeSrc : Nat := 0
  safeValid : Bool := false
  /-- Wall times (ns) of the safe states of the last 24 h, newest first, at most 3. -/
  safeTimes : List Nat := []
  /-- Those of them since the last power-on or `RESET_N`, for the timer of R450. -/
  holdTimes : List Nat := []
  rescueRefused : Nat := 0
  wallNs : Nat := 0
  wallRtc : Nat := 0
  /-- Tick of the last periodic write of the pair (R474). -/
  pairAt : Nat := 0
  wallValid : Bool := false
  wakeCfg : Nat := 0
  wakeSeen : Nat := 0
  wakeLast : Nat := 0
  /-- Edges latched while the hub had no supply, still to be posted (R475). -/
  wakeOff : Nat := 0
  wakeTime : Nat := 0
  chkOk : Bool := true
  vbakLow : Bool := false
  rtc : Nat := 0
  valErr : Bool := false
  deriving DecidableEq, Repr

/-! ## Start-up and firmware (chapter 16) -/

/-- States of an image slot, by the code of `fw.info` (R299). -/
structure Slot where
  /-- 0 empty, 1 erasing, 2 staging, 3 staged, 4 verified, 5 running, 6 failed. -/
  st : Nat := 0
  failures : Nat := 0
  /-- Size named by `fw.begin`. -/
  size : Nat := 0
  /-- The bytes programmed. -/
  bytes : List Byte := []
  deriving DecidableEq, Repr

/-- NOR, OTP and the boot ROM's state (R486 to R500). -/
structure Boot where
  slotA : Slot := { st := 5 }
  slotB : Slot := {}
  /-- The slot whose image runs: false A, true B. -/
  running : Bool := false
  /-- The slot last confirmed. -/
  confirmed : Bool := false
  trial : Bool := false
  /-- The slot the coming start must take (R495). -/
  nextSlot : Option Bool := none
  trialAt : Nat := 0
  /-- Pending activation: slot, mode, wall time in µs. -/
  pendingAct : Option (Bool × Nat × Nat) := none
  /-- `fw.verify` revert notice still to be posted: the slot abandoned. -/
  reverted : Option Bool := none
  profile : List Byte := []
  previous : List Byte := []
  /-- A profile written for the next chip-level start (R299). -/
  nextProfile : Option (List Byte) := none
  retireList : List (Nat × Nat) := []
  norEpoch : Nat := 0
  norWall : Nat := 0
  norWallAt : Nat := 0
  otpSerial : Nat := 0
  otpThermo : Nat := 0
  otpTmuxOff : Bool := false
  /-- External memory fitted, MiB raw (R13). -/
  ddrMiB : Nat := 1024
  loader : Bool := false
  /-- The rescue port while a rescue start runs (R499). -/
  rescue : Option Nat := none
  /-- The boot sequence has completed: the host link works (step 6 of R486). -/
  up : Bool := false
  /-- A chip reset asked for: cause code and the tick it begins (R483, R497). -/
  resetReq : Option (Nat × Nat) := none
  /-- The hub has no supply (R481). -/
  dark : Bool := false
  /-- Keeper and journal survived to the coming start (R278). -/
  keeperKept : Bool := false
  journalKept : Bool := false
  fwMinor : Nat := 0
  deriving DecidableEq, Repr

/-! ## Angle timebase (chapter 4) -/

/-- One angle clock (R105 to R118). -/
structure Ang where
  /-- 0 `UNLOCKED`, 1 `ACQUIRING`, 2 `LOCKED`, 3 `HOLDOVER`, 4 `FREE` (R115). -/
  st : Nat := 0
  /-- Cycle count (48 bits) and angle (16 bits). -/
  cycle : Nat := 0
  angle : Nat := 0
  /-- Fraction of one au the accumulator has gathered, in units of 10^-17 au (R105). -/
  frac : Nat := 0
  /-- Accepted levels of the reference lines (R107): bit 0 the input or line A, bit 1 line B. -/
  lines : Nat := 0
  /-- Tick of the last accepted reference edge, and whether the edges exceed 2 MHz (R108). -/
  edgeAt : Option Nat := none
  fast : Bool := false
  /-- Reference events accepted since enable, up to 2 (R115). -/
  seen : Nat := 0
  reverse : Bool := false
  indexed : Bool := false
  /-- The next index edge has no expected position (R110). -/
  firstIndex : Bool := true
  /-- The reference's angle at its zero event, and the events since (R106). -/
  base : Nat := 0
  evIdx : Nat := 0
  /-- Last phase error, signed au, and what of it is still to be absorbed (R111). -/
  pherr : Int := 0
  owe : Int := 0
  /-- Cycle rate estimate in 10^-9 Hz, and the rates of the last cycles, newest first (R115). -/
  rate : Nat := 0
  rates : List Nat := []
  /-- Consecutive cycles within `LOCK_TOL` (R113), and events beyond `UNLOCK_TOL` (R114). -/
  lockRun : Nat := 0
  /-- Events since the first event of the present reference cycle, and that event's tick (R113). -/
  inCycle : Nat := 0
  cycleAt : Nat := 0
  unlockRun : Nat := 0
  lastEvent : Nat := 0
  heldAt : Nat := 0
  /-- A `LINK` follower ahead of its source holds until this count (R139). -/
  linkHold : Option Nat := none
  /-- A `LINK` clock adopts the source's count at the next mark (R139). -/
  adopt : Bool := false
  deriving DecidableEq, Repr

/-- The wall clock (R119 to R122). -/
structure Wall where
  ns : Nat := 0
  /-- 1 `ACQUIRING`, 2 `LOCKED`, 3 `HOLDOVER`, 4 `FREE`. -/
  st : Nat := 4
  valid : Bool := false
  adj : Int := 0
  ppserr : Int := 0
  /-- Consecutive edges within 1 µs; whether an edge came since `ACQUIRING`. -/
  goodEdges : Nat := 0
  edgeSeen : Bool := false
  lastEdge : Nat := 0
  heldAt : Nat := 0
  /-- What `time.adjust` still has to absorb, and the sub-nanosecond remainder, in 10^-7 ns. -/
  slew : Int := 0
  slewFrac : Nat := 0
  deriving DecidableEq, Repr

/-- A phase output or a port's sync driver: the pin (R128 to R132). -/
structure PhaseOut where
  /-- Driven active: a pulse until `endsAt`, a level until `endPos` or until told otherwise. The pin's
  level follows with `POL`. -/
  active : Bool := false
  /-- Tick at which the active pulse ends. -/
  endsAt : Option Nat := none
  /-- Position at which an active angle level ends (`CLR`). -/
  endPos : Option Nat := none
  /-- Next target, in its time base's units. -/
  next : Nat := 0
  deriving DecidableEq, Repr

/-- One phase-capture input (R133). -/
structure Pcap where
  /-- Captures waiting for the `CAPTURE` channel: wall ns, angle stamp, `HOLDOVER`. -/
  queue : List (Nat × Nat × Bool) := []
  lastWall : Nat := 0
  lastAng : Nat := 0
  deriving DecidableEq, Repr

/-- The domain phase link (R135 to R139). -/
structure Plink where
  /-- Ticks of the last mark per slot and of the last second mark; none before the first. -/
  marks : Tbl (Option Nat) := []
  wallMark : Option Nat := none
  /-- Count and state last received per slot. -/
  counts : Tbl (Option (Nat × Nat)) := []
  wallFrame : Nat := 0
  /-- Data bits received of the frame under way, first bit first (R136); bits are skipped until the
  next second mark once a pulse or a type byte was not recognised. -/
  rxBits : List Bool := []
  rxSkip : Bool := false
  /-- Ticks of the last mark emitted on `PLINK_OUT` per slot and of the last second mark (R137, R138). -/
  outMarks : Tbl (Option Nat) := []
  outWall : Option Nat := none
  /-- Frames `LINK_TRANSMIT` has sent, bytes with their CRC-8, and the pulses of their cells: tick of the
  rising edge and width in ns (MODEL: the last burst only). -/
  sent : List (List Byte) := []
  cells : List (Nat × Nat) := []
  deriving DecidableEq, Repr

/-- Chicory. -/
structure Chicory where
  angs : Tbl Ang := []
  wall : Wall := {}
  phos : Tbl PhaseOut := []
  psyncs : Tbl PhaseOut := []
  pcaps : Tbl Pcap := []
  plink : Plink := {}
  /-- Wall time of the last periodic anchor of each time base, in 30 s units (R125). -/
  anchorAt : Tbl Nat := []
  deriving DecidableEq, Repr

/-! ## Ports, power and cable negotiation (chapters 5, 10, 11) -/

/-- The USB side of a port (R141 to R172). -/
structure PortUsb where
  /-- `PORTnn_STAT.STATE` code (R146). -/
  st : Nat := 0
  /-- 0 none, 1 low, 2 full, 3 high (R144). -/
  speed : Nat := 0
  /-- True is TRANSPARENT. -/
  transparent : Bool := false
  /-- `CAUSE` of the last entry to `OFF` or `ERROR`. -/
  cause : Nat := 0
  ccAtt : Bool := false
  /-- `EN_STAT` of the front end: runs (R35, R172); it stops once the transaction on the wire has ended. -/
  running : Bool := false
  stopping : Bool := false
  /-- Pull-up present: 0 none, 1 on `DP`, 2 on `DM`. -/
  pull : Nat := 0
  /-- A connect is being debounced since this tick (R143). -/
  debounce : Option Nat := none
  /-- A reset is driven: low-speed pull-up at its start; who asked (1 attach, 2 host, 3 command,
  4 surge, 5 babble, 6 mode change). -/
  resetting : Option Nat := none
  resetAt : Nat := 0
  /-- Inside a resume window: 1 driving K, 2 resume recovery (R163). -/
  resuming : Nat := 0
  remoteWake : Bool := false
  /-- Suspended selectively, not by the hub function's global suspend (R161, R162). -/
  selSusp : Bool := false
  /-- Suspended by its group's power domain on its way out of ON (R458). -/
  domSusp : Bool := false
  /-- A surge holds the bus idle since this tick (R167), and the first signature of the run. -/
  surgeAt : Option Nat := none
  /-- Ticks of the recoveries of the last second, newest first, at most 8 (R169). -/
  recoveries : List Nat := []
  /-- A first babble since this tick (R170), and the tick of its reset. -/
  babbleAt : Option Nat := none
  babbleReset : Option Nat := none
  /-- Running totals since chip reset (R289): surges, surge resets, disconnects, chirp failures. -/
  totSurges : Nat := 0
  totSurgeResets : Nat := 0
  totDisc : Nat := 0
  totChirp : Nat := 0
  totReplug : Nat := 0
  /-- Hub-class side of a transparent port (R154): change bits connection 1, enable 2, suspend 4,
  over-current 8, reset 16; `PORT_POWER` cleared (R159); indicator selector; test selector. -/
  changes : Nat := 0
  hostOff : Bool := false
  /-- R158: a report of the connection waits for the hub function's configuration. -/
  reportOnConfig : Bool := false
  /-- The upstream host cleared `PORT_ENABLE` (R146). -/
  indicator : Nat := 0
  testSel : Nat := 0
  overCurrent : Bool := false
  /-- Embedded host: enumerated since the last reset (R174, R184). -/
  enumerated : Bool := false
  /-- Failed enumeration attempts by the device's path (R175); addresses of devices refused, with their paths
  (R178); external-hub ports disabled after a third failure (R175). A path is the tier-1 hub port × 256 + the
  tier-2 hub port. -/
  enumTries : Tbl Nat := []
  heldAddrs : List (Nat × Nat) := []
  hubOff : List Nat := []
  /-- (Micro)frame number of the last SOF, its tick by the exact period, and whether one waits for the transaction
  on the wire (R219). -/
  sofs : Nat := 0
  sofAt : Nat := 0
  sofPend : Bool := false
  deriving DecidableEq, Repr

/-- The power path of a port (R308 to R336). -/
structure PortPower where
  /-- 0 none, 1 GL, 2 GH, 3 transition. -/
  path : Nat := 0
  /-- Transition target: 1 to `RAIL_LO`, 2 to `RAIL_HI`. -/
  toward : Nat := 0
  pgood : Bool := false
  limiting : Bool := false
  rampAt : Nat := 0
  /-- 0 none, 1 `LATCHED_OFF`, 2 `STUCK_ON` (R323). -/
  latch : Nat := 0
  /-- Latched by Campion's `PORT_SAFE` (R431). -/
  safeLatch : Bool := false
  /-- Cool-down timer: the tick at which it expires (R320, R322). -/
  coolUntil : Option Nat := none
  held : Bool := false
  tripCause : Nat := 0
  ladder : Nat := 0
  replugs : Nat := 0
  /-- Latest samples: signed mA, mV; last measured drop. -/
  mA : Int := 0
  voMv : Nat := 0
  drop : Nat := 0
  /-- Breaker accumulators A_0 to A_7 in eighths of 10 µs. -/
  acc : Tbl Nat := []
  /-- Grant in 0.1 W, and the rail it is held against: 1 low, 2 high (R329). -/
  grant : Nat := 0
  grantRail : Nat := 1
  /-- Waiting for a grant since (request ordinal, R330). -/
  waiting : Option Nat := none
  /-- Booked stagger slot: the tick it starts, and the rail it occupies (R332). -/
  booked : Option (Nat × Nat) := none
  /-- Shed (R334); power removed for a rail (R307): rail number. -/
  shed : Bool := false
  railLost : Nat := 0
  /-- Power removed by `GROUP_SAFE` or warden mode: returns as those rules say. -/
  groupOff : Bool := false
  /-- Tick since which power-good has stood without a trip (R321). -/
  goodSince : Option Nat := none
  /-- Curve and limits loaded by `pwr.curve` through shadow registers take effect at once; the
  inrush fields at the next ramp. Inrush and timer in force for the present ramp. -/
  rampInrush : Nat := 20
  rampTimer : Nat := 20
  /-- Last dry moisture reading (tick), for R322. -/
  dryAt : Option Nat := none
  deriving DecidableEq, Repr

/-- MODEL. The last message the hub sent to a port's partner. -/
inductive PdSent where
  | nothing | sourceCapabilities | accept | reject | wait | psRdy | softReset | hardReset
  | notSupported | request | prSwap | sinkCapabilities | getSinkCap | discoverIdentity | enterMode
  | exitMode | vdmAck | vdmNak
  deriving DecidableEq, Repr

/-- A port's negotiation and alternate mode (R340 to R367). -/
structure PortPd where
  /-- 0 none, 1 Type-C only, 2 explicit. -/
  contract : Nat := 0
  pos : Nat := 0
  rev : Nat := 3
  /-- Power role: true is sink. -/
  sink : Bool := false
  mv : Nat := 0
  mA : Nat := 0
  /-- The PD step of R142 has ended. -/
  done : Bool := false
  /-- A partner answered `GoodCRC` on this attach. -/
  partner : Bool := false
  /-- Unanswered sends, rejects, and offers made in fallback (R346, R348, R349). -/
  sends : Nat := 0
  rejects : Nat := 0
  reoffers : Nat := 0
  /-- New capabilities wait to be offered under the contract (R345). -/
  reoffer : Bool := false
  fallbackReason : Nat := 0
  /-- Offered ceilings, 10 mA units, of objects 1 and 2; 0 where not offered. -/
  offer1 : Nat := 0
  offer2 : Nat := 0
  /-- What the port waits for: 0 nothing, 1 `GoodCRC`, 2 `Request`, 3 `Accept` of Soft_Reset,
  4 transition end (`PS_RDY` due), 5 swap answer, 6 Enter Mode answer, 7 Exit Mode answer,
  8 the source's `PS_RDY` (sink). -/
  await : Nat := 0
  /-- An atomic message sequence runs (R342). -/
  atomic : Bool := false
  capMismatch : Bool := false
  hrst : Nat := 0
  explicitAt : Nat := 0
  /-- Hard-reset power cycle under way (R350), and the tick VO fell. -/
  cycling : Bool := false
  /-- The contract accepted and not yet explicit: position, mV, mA. -/
  newPos : Nat := 0
  newMv : Nat := 0
  newMa : Nat := 0
  /-- `pd.caps` (R293): offer object 2; maximum mA. -/
  offerHi : Bool := true
  maxMa : Nat := 3000
  frsArm : Bool := false
  /-- Partner's sink capabilities show a fast-role-swap current (R357). -/
  frsPartner : Bool := false
  frsEnabled : Bool := false
  /-- 0 source, 1 sink after a fast swap. -/
  frsDone : Bool := false
  swapping : Bool := false
  /-- Moisture: threshold kΩ, interval s, consecutive dry and in-service wet readings. -/
  threshold : Nat := 200
  interval : Nat := 30
  dry : Nat := 0
  wetRun : Nat := 0
  wetNow : Bool := false
  readAt : Nat := 0
  /-- The power-up order stands at its moisture check (R20). -/
  check : Bool := false
  /-- SBU position: 0 `OPEN`, 1 `MOIST`, 2 `PSYNC`, 3 `CANB`. -/
  sbu : Nat := 0
  flipped : Bool := false
  /-- Alternate mode held: 0 none; being entered; named by the profile; as trunk end. -/
  mode : Nat := 0
  entering : Nat := 0
  enterTries : Nat := 0
  /-- The mode to enter once the present one is left (R360). -/
  nextMode : Nat := 0
  profileMode : Nat := 0
  trunkEnd : Bool := false
  /-- Mode VDOs the partner listed (R360). -/
  vdo1 : Option Nat := none
  vdo2 : Option Nat := none
  /-- Tick of the last message that awaits an answer; tick before which no `Source_Capabilities` is
  sent (R346, R348); tick at which VO fell in a hard-reset cycle (R350). -/
  sentAt : Nat := 0
  sendAt : Nat := 0
  fellAt : Nat := 0
  /-- Discovery follows the contract (R360); `Get_Sink_Cap` awaits its answer (R357); a surge ended
  the sequence and Soft_Reset is due (R348). -/
  discover : Bool := false
  wantSink : Bool := false
  surgeSoft : Bool := false
  /-- MODEL. The last message sent, and its data objects. -/
  sent : PdSent := .nothing
  sentObjs : List Nat := []
  deriving DecidableEq, Repr

/-- A downstream port. -/
structure PortSt where
  usb : PortUsb := {}
  pw : PortPower := {}
  pd : PortPd := {}
  deriving DecidableEq, Repr

/-- A station feed (R303 to R305). -/
structure Feed where
  present : Bool := false
  conducting : Bool := false
  overV : Bool := false
  mv : Nat := 0
  deriving DecidableEq, Repr

/-- A rail (R306, R307). -/
structure Rail where
  inBand : Bool := false
  mv : Nat := 0
  /-- Tick since which it is out of band, or back in band. -/
  since : Nat := 0
  removed : Bool := false
  deriving DecidableEq, Repr

/-- Feeds, rails and Clover (R303 to R336). -/
structure Clover where
  feeds : Tbl Feed := []
  rails : Tbl Rail := []
  /-- Carrying feed: false A, true B. -/
  carrying : Bool := false
  /-- Master gates enhanced, by group. -/
  gmgOn : List Nat := []
  /-- Classes shed now (R334), and the tick since which the budget covers them (R335). -/
  shed : List Nat := []
  overV : Bool := false
  coverSince : Option Nat := none
  /-- Grants released by shedding, 0.1 W (R335), and the feed whose event tells of it (R334). -/
  shedLoad : Nat := 0
  lastFeed : Nat := 0
  /-- MODEL. Next request ordinal (R330). -/
  nextReq : Nat := 0
  deriving DecidableEq, Repr

/-- The hub function (R153 to R161). -/
structure HubFn where
  configured : Bool := false
  suspended : Bool := false
  multiTt : Bool := false
  /-- `PORT_HUBSTAT.UP_SPEED`: 0 none, 2 full, 3 high. -/
  upSpeed : Nat := 0
  rwake : Bool := false
  ocActive : Bool := false
  hubOver : Bool := false
  hubOverChange : Bool := false
  /-- The upstream link is removed by `link.detach` until this tick. -/
  detachedUntil : Option Nat := none
  /-- Resume signalled upstream (R164), and the Caside function suspended alone (R155). -/
  resumeUp : Bool := false
  casideSuspended : Bool := false
  /-- Split transactions outstanding (R156), and what the transaction translators hold: by hub port with
  alternate setting 1, else at 0 (R150, R156). -/
  splits : Nat := 0
  tt : Tbl (List Byte) := []
  /-- Remote wakeup of the Caside function is enabled (R164). -/
  casideRwake : Bool := false
  deriving DecidableEq, Repr

/-- The strike detector (R22): signatures of the last 10 ms (tick, port, wall time in ns), whether FS105 has been
raised for the present strike, the last signature's tick, the first's wall time. -/
structure Strike where
  seen : List (Nat × (Nat × Nat)) := []
  raised : Bool := false
  last : Nat := 0
  firstWall : Nat := 0
  deriving DecidableEq, Repr

/-- Dead-battery rescue and fast role swap of the station (R357 to R359, R500). -/
structure Rescue where
  port : Option Nat := none
  /-- 1 VBUS seen, 2 requested, 3 contract below 7.5 W, 4 `RESCUE_EN` asserted, 5 in regulation. -/
  step : Nat := 0
  en : Bool := false
  attempts : Nat := 0
  /-- A fast role swap carries the station (R500). -/
  frs : Bool := false
  deriving DecidableEq, Repr

/-! ## Devices, channels and the domain (chapter 6) -/

/-- An entry of the device table (R177 to R183). -/
structure Device where
  used : Bool := false
  gone : Bool := false
  port : Nat := 0
  desc : DevDesc := {}
  addr : Nat := 0
  /-- A reset of a hub in front of it has taken its address; it is not enumerated again (R174, R184). -/
  unaddr : Bool := false
  /-- CRC-32 of the serial string, 0 if none (R177). -/
  serialCrc : Nat := 0
  cfg : Nat := 1
  /-- Chip number of a joined child behind this entry. -/
  child : Option Nat := none
  /-- Restored by a warm start and not yet enumerated again (R488). -/
  restored : Bool := false
  deriving DecidableEq, Repr

/-- A schedule specification (R211). -/
structure SchedSpec where
  tb : Nat := 0
  /-- 0 `GUARANTEED`, 1 `BEST_EFFORT`. -/
  cls : Nat := 0
  /-- 0 `UNIFORM`, 1 `LIST`. -/
  pattern : Nat := 0
  count : Nat := 0
  start : Nat := 0
  step : Nat := 0
  div : Nat := 0
  cphase : Nat := 0
  maxRate : Nat := 0
  period : Nat := 0
  offset : Nat := 0
  blockRes : Nat := 0
  angles : List Nat := []
  deriving DecidableEq, Repr

/-- A ring descriptor (R195). -/
structure RingDesc where
  len : Nat := 0
  /-- 0 free, 1 armed, 2 done, 3 error, 4 short. -/
  status : Nat := 0
  zlp : Bool := false
  seq : Nat := 0
  time32 : Nat := 0
  data : List Byte := []
  deriving DecidableEq, Repr

/-- A proxied control request (R203): its setup packet, its OUT data, the tick of `CTRL_TMO`, and how far
it has come: 0 waits for the bus, 1 on it or unanswered by the device, 2 its IN record is built. -/
structure CtrlReq where
  setup : List Byte := []
  out : List Byte := []
  deadline : Nat := 0
  phase : Nat := 0
  /-- The device answered STALL (R192, R203). -/
  stalled : Bool := false
  deriving DecidableEq, Repr

/-- A target that has fallen due (R217): the tick of its crossing, and the class and the `LATE_BOUND` it fell due
under (R220, R242). -/
structure Due where
  target : Nat := 0
  dueAt : Nat := 0
  bound : Nat := 0
  hard : Bool := false
  deriving DecidableEq, Repr

/-- A channel slot (R186 to R204). -/
structure Chan where
  /-- 0 `OPENING`, 1 `ACTIVE`, 2 `PAUSED`, 3 `HALTED`, 4 `CLOSING`, 5 `CLOSED`. -/
  st : Nat := 5
  gen : Nat := 0
  kind : Nat := 0
  ep : Nat := 0
  deliver : Nat := 0
  opts : Nat := 0
  payload : Nat := 0
  heartbeat : Nat := 0
  ringDesc : Nat := 0
  histLog2 : Nat := 0
  ctrlTmo : Nat := 0
  /-- Device local ID, CAN controller, or capture input, by kind. -/
  dev : Nat := 0
  /-- Group and port of the device (48 where none). -/
  grp : Nat := 0
  port : Nat := 48
  sched : SchedSpec := {}
  /-- Next target at which the channel falls due, in its time base's units: (cycle, angle) as one
  number cycle × 65,536 + angle, or wall µs. -/
  next : Nat := 0
  lateBound : Nat := 0
  blockTime : Nat := 0
  pool : Nat := 0
  nextSeq : Nat := 0
  oldest : Nat := 0
  /-- Sequence numbers at or after `oldest` acknowledged out of order (R264). -/
  acked : List Nat := []
  delivered : Nat := 0
  /-- Halt cause 1 to 4 (R210). -/
  cause : Nat := 0
  /-- Paused by the group stop (R199); to be paused once the transaction ends. -/
  byStop : Bool := false
  pausing : Bool := false
  closing : Bool := false
  abortClose : Bool := false
  /-- Last committed record, for `CHANGE` (R196), and consecutive discards. -/
  lastRec : Option Rec := none
  discards : Nat := 0
  /-- A record built and not yet committed (R196). -/
  built : List Rec := []
  /-- Targets due and waiting for the port's bus, the oldest first (R217, R218). -/
  due : List Due := []
  /-- Current OUT value (R291), bulk data waiting, ring descriptors by index. -/
  outVal : List Byte := []
  unsent : Option (List Byte × Bool) := none
  ring : Tbl RingDesc := []
  ringNext : Nat := 0
  /-- Data toggle of the endpoint: true is DATA1 next (R192). -/
  toggle : Bool := false
  /-- The proxied control request the channel holds (R203). -/
  ctrl : Option CtrlReq := none
  /-- Memory it holds (R187, R194, R195, R198): space, first unit and number of units; the half of its double buffer
  that the next transaction fills; the next byte of its history ring. -/
  mem : List (Nat × (Nat × Nat)) := []
  half : Bool := false
  histAt : Nat := 0
  /-- Latest-value slot and history ring (R197, R198). -/
  latest : Option Rec := none
  history : List Rec := []
  /-- Counters of `chan.info` (R291). -/
  nCommitted : Nat := 0
  nChange : Nat := 0
  nSkipped : Nat := 0
  nLate : Nat := 0
  nMissed : Tbl Nat := []
  nError : Nat := 0
  /-- Targets passed while the channel took none, the latest 16 (R265). -/
  passed : List Nat := []
  /-- The device's speed and the port bus's when the channel was admitted, whether the device sits
  behind an external hub, and the endpoint's packet size and transactions per microframe (R224). -/
  speed : Nat := 0
  bus : Nat := 0
  behind : Bool := false
  mps : Nat := 64
  mult : Nat := 1
  /-- The window of R265 has filled and its event has been posted. -/
  windowFull : Bool := false
  /-- `OPENING` until the apply point of a schedule transaction (R239). -/
  byTxn : Bool := false
  /-- MODEL. Ordinal of its admission (R231). -/
  ord : Nat := 0
  deriving DecidableEq, Repr

/-- A child chip as the root knows it (R206 to R208, R298). -/
structure Child where
  known : Bool := false
  joined : Bool := false
  parent : Nat := 0
  parentPort : Nat := 0
  tier : Nat := 0
  ports : Nat := 0
  serial : Nat := 0
  /-- The 64-record mirror of its events, and records lost to overflow (R298). -/
  mirror : List (List Byte) := []
  lost : Nat := 0
  /-- Sequence number of the last record received of each of its handles (R209). -/
  heard : Tbl (Option Nat) := []
  /-- Load of its relayed channels on this chip's upstream budget, by handle, in 10^-3 B/s, and whether it
  counts: not while the channel is halted with `BUDGET` (R192, R230). -/
  loads : List (Nat × (Nat × Bool)) := []
  /-- The transaction that a relayed `sched.begin` opened on it (R238). -/
  txn : Option Nat := none
  deriving DecidableEq, Repr

/-- The chip's place in its domain. -/
structure Domains where
  chipNum : Nat := 0
  joined : Bool := false
  /-- The chip's own tier below the root (R205). -/
  tier : Nat := 0
  children : Tbl Child := []
  deriving DecidableEq, Repr

/-- Group engines (R24, R152, R199). -/
structure Group where
  stopped : Bool := false
  /-- 0 running, 1 restarting, 2 held in reset by a failed restart, 3 held after a failed BIST,
  4 held by warden mode. -/
  engine : Nat := 0
  restartAt : Nat := 0
  deriving DecidableEq, Repr

/-! ## Scheduled service (chapter 7) -/

/-- An item of a schedule transaction (R239). -/
structure Item where
  /-- 1 `CHANNEL`, 2 `PSYNC`, 3 `INRUSH`, 4 `CAN_TX`, 5 `CLOSE`, 6 `CHANGE`. -/
  code : Nat := 0
  target : Nat := 0
  body : List Byte := []
  /-- The specification in the body, for `CHANNEL`, `PSYNC` and `CHANGE`. -/
  spec : SchedSpec := {}
  /-- 0 pending, 1 applied, 2 `STALE`, 3 refused (R245). -/
  status : Nat := 0
  check : Nat := 0
  handle : Nat := 0
  lateBound : Nat := 0
  blockTime : Nat := 0
  deriving DecidableEq, Repr

/-- A schedule transaction (R236 to R245). -/
structure SchedTxn where
  txn : Nat := 0
  /-- 0 `OPEN`, 1 `PENDING`, 2 `APPLIED`, 3 `CANCELLED`, 4 `VOID`. -/
  st : Nat := 0
  items : List Item := []
  applyTb : Nat := 0
  /-- Cycle × 65,536 + angle, or wall µs. -/
  applyAt : Nat := 0
  lastUse : Nat := 0
  deriving DecidableEq, Repr

/-- A port's sync pattern (R246): its schedule and next target. -/
structure SyncPat where
  on : Bool := false
  sched : SchedSpec := {}
  next : Nat := 0
  deriving DecidableEq, Repr

/-- A transaction on a port's bus: the slot it serves (4,096 for the embedded host's own), and
the stamps taken at its token (R123). -/
structure OnWire where
  slot : Nat := 0
  angle : Nat := 0
  time32 : Nat := 0
  holdover : Bool := false
  /-- The target it serves. -/
  stamp : Nat := 0
  deriving DecidableEq, Repr

/-- Tansy and the schedule transactions. -/
structure Sched where
  /-- Transactions of the epoch, newest first; the present one is the head while `OPEN` or
  `PENDING` (R236, R245). -/
  txns : List SchedTxn := []
  nextTxn : Nat := 1
  syncs : Tbl SyncPat := []
  /-- What is on each port's wire (R218). -/
  wire : Tbl (Option OnWire) := []
  /-- `INRUSH` items applied: the tick-free one-shot target per port (R247). -/
  inrush : Tbl (Option (Nat × Nat)) := []
  /-- Upstream budget set by `link.budget` or the profile (R230, R300). -/
  budget : Option Nat := none
  /-- Slots free, longest free first among those used; never-used ones follow by number (R189). -/
  freed : List Nat := []
  quarantined : List Nat := []
  /-- Local IDs freed, longest free first (R180). -/
  freedIds : List Nat := []
  /-- MODEL. Next admission ordinal (R231). -/
  nextOrd : Nat := 1
  usedIds : Nat := 0
  deriving DecidableEq, Repr

/-! ## CAN controllers (chapter 12) -/

/-- A TX buffer (R380). -/
structure TxBuf where
  /-- 0 empty, 1 pending, 2 armed, 3 held, 4 on the bus. -/
  st : Nat := 0
  frame : CanFrame := {}
  tb : Nat := 0
  target : Nat := 0
  /-- The frame was armed (R384); the ticks at which its target fell due and its SOF was sent. -/
  armed : Bool := false
  dueAt : Nat := 0
  sofAt : Nat := 0
  /-- Nanoseconds from the target to the tick at which it fell due, 0 unless it was already passed (R381). -/
  late : Nat := 0
  /-- Transmissions ended in error (R383). -/
  errors : Nat := 0
  /-- `can.txabort` or a disable named it while on the bus (R385, R388): 3 or 2. -/
  stop : Nat := 0
  deriving DecidableEq, Repr

/-- A CAN controller (R368 to R393). -/
structure CanCtl where
  /-- 0 disabled, 1 error-active, 2 error-passive, 3 bus-off, 4 rate detection. -/
  st : Nat := 0
  /-- `EN_STAT`; a disable is under way (R388). -/
  running : Bool := false
  stopping : Bool := false
  /-- Tick from which the controller takes part: 50 µs after `CANx_STB` falls and 11 recessive bits (R369). -/
  joinAt : Nat := 0
  tec : Nat := 0
  rxErr : Nat := 0
  lastErr : Nat := 0
  /-- Where the controller samples its own data bits in the frame it sends, clock cycles (R373). -/
  ssp : Nat := 0
  abdVer : Bool := false
  /-- `can.recover` has started (R387), and the tick of it. -/
  recovering : Bool := false
  recoverAt : Nat := 0
  txcnt : Nat := 0
  errcnt : Nat := 0
  bufs : Tbl TxBuf := []
  /-- Last outcome per buffer: 1 `SENT`, 2 `FAILED`, 3 `ABORTED` (R384). -/
  outs : Tbl Nat := []
  /-- Receive queues (R378): data of the records and their stamps, oldest first. -/
  rxq0 : List Rec := []
  rxq1 : List Rec := []
  /-- Rate detection (R375): candidates as `can.config` bytes 2 to 11, index, good frames, whether
  one was FD with bit-rate switching, the mailbox. -/
  cands : List (List Byte) := []
  candIdx : Nat := 0
  candGood : Nat := 0
  candBrs : Bool := false
  dwell : Nat := 0
  /-- Tick at which the present candidate began; `dwell` is in ticks. -/
  candAt : Nat := 0
  /-- Yarrow drives the controller (R390). -/
  yarrow : Bool := false
  deriving DecidableEq, Repr

/-! ## Memory integrity (chapter 13) -/

/-- A region's own state (R396, R415 to R420). -/
structure Region where
  /-- Settings where they differ from the table of R396: mode, retain, t. -/
  mode : Option Nat := none
  retain : Option Nat := none
  t : Option Nat := none
  /-- Pages in number, where set by profile or training. -/
  pages : Option Nat := none
  /-- The region is left partly converted (R418). -/
  mixed : Bool := false
  /-- The pages' own strengths, as runs (first page, strength), rising; empty where all stand at `t`. -/
  runs : List (Nat × Nat) := []
  corr : Nat := 0
  ue : Nat := 0
  retired : Nat := 0
  deriving DecidableEq, Repr

/-- A page Teasel keeps a note of (R402, R406, R412, R413). -/
structure PageNote where
  region : Nat := 0
  page : Nat := 0
  stale : Bool := false
  poisoned : Bool := false
  /-- Consecutive scrub visits that needed correction. -/
  visits : Nat := 0
  deriving DecidableEq, Repr

/-- One entry of the integrity log (R422). -/
structure LogEnt where
  kind : Nat := 0
  region : Nat := 0
  t : Nat := 0
  bits : Nat := 0
  page : Nat := 0
  offset : Nat := 0
  req : Nat := 0
  core : Nat := 0xFF
  time32 : Nat := 0
  deriving DecidableEq, Repr

/-- Teasel (R394 to R425). -/
structure Integ where
  regions : Tbl Region := []
  notes : List PageNote := []
  /-- Corrections per bank within 24 h: ticks, newest first, at most 64 (R412). -/
  bankCorr : Tbl (List Nat) := []
  /-- Rotation phase: 0 idle, 1 copying out, 2 out, 3 copying back; the bank. -/
  rotPhase : Nat := 0
  rotBank : Nat := 0x1F
  rotRetired : Bool := false
  /-- A retirement drives the rotation; a BIST waits for it. -/
  rotRetire : Bool := false
  rotBist : Bool := false
  /-- Restrength: region, new t, rate, pages done, total, active. -/
  rsRegion : Nat := 0x1F
  rsT : Nat := 0
  rsRate : Nat := 0
  rsDone : Nat := 0
  rsTotal : Nat := 0
  rsActive : Bool := false
  /-- Next page of the restrength, and the page in conversion at a chip-level start (R417); conversion steps
  since the last scrub step, of which every eighth step is one (R416). -/
  rsNext : Nat := 0
  rsStep : Nat := 0
  /-- The walk of each memory (R407; 0 transfer SRAM, 1 TCMs, 2 external): its next page, counted through the
  memory's regions, and the tick of its last step; the pages corrected since their last visit, oldest first. -/
  walk : Tbl (Nat × Nat) := []
  revisit : List (Nat × Nat) := []
  /-- Spare frames in use (R414). -/
  spareUsed : Nat := 0
  spareLow : Bool := false
  log : List LogEnt := []
  lost : Nat := 0
  /-- `CORRECTED` rate limit per event: last post tick and corrections since (R423). -/
  corrEv : Tbl (Nat × Nat) := []
  staleEv : Tbl (Nat × Nat) := []
  /-- Pages and banks that meet a retirement condition (R412, R413): region and page, bank as region 0x100. -/
  due : List (Nat × Nat) := []
  /-- Pages whose valid bits have been cleared, as runs of `pageKey`, and the valid bits of their lines set since
  (R399). -/
  cleared : List (Nat × Nat) := []
  lines : Tbl Nat := []
  /-- Retirements still to be written to NOR (R414), in the same form. -/
  toNor : List (Nat × Nat) := []
  deriving DecidableEq, Repr

/-! ## Test and diagnosis (chapter 17) -/

/-- Instructions of the test access port (R512). -/
inductive TapInstr where
  | bypass | idcode | samplePreload | extest | clamp | highz
  deriving DecidableEq, Repr

/-- The test access port (R512): the controller state of IEEE 1149.1 by number (0
Test-Logic-Reset, 1 Run-Test/Idle, 2 to 8 the DR column Select, Capture, Shift, Exit1, Pause,
Exit2, Update, 9 to 15 the IR column in the same order), the instruction in force, the instruction register, the shift
registers, the boundary register's latched cells and the output bit. -/
structure Tap where
  st : Nat := 0
  /-- Test-Logic-Reset selects `IDCODE`. -/
  instr : TapInstr := .idcode
  ir : Nat := 0
  irShift : Nat := 0
  /-- The data register being shifted; the cells of the boundary register as last updated (R514). -/
  dr : Nat := 0
  cells : Nat := 0
  tdo : Bool := false
  /-- `RESET_N` was low at the last clock: its rise sends the TAP to Test-Logic-Reset (R513). -/
  resetLow : Bool := false
  deriving DecidableEq, Repr

/-- Self-tests (R507 to R510). -/
structure TestSt where
  /-- A BIST under way: 0 none, 1 group, 2 bank, with its number and mailbox. -/
  bist : Nat := 0
  bistOf : Nat := 0
  /-- Its commit: t0 of R507. -/
  bistAt : Nat := 0
  /-- The channels it paused (R507). -/
  bistPaused : List Nat := []
  /-- Last results: BIST result and signature, loop packets and errors. -/
  bistResult : Nat := 0
  bistSig : Nat := 0
  loopPackets : Nat := 0
  loopErrors : Nat := 0
  /-- A loop under way on a port, with the reason it ends early (0 duration). -/
  loopPort : Option Nat := none
  loopEnd : Nat := 0
  loopAt : Nat := 0
  loopMs : Nat := 0
  tap : Tap := {}
  deriving DecidableEq, Repr

/-! ## The register space and the whole state (chapter 2) -/

/-- One posted write waiting to complete (R38): 0 keeper, 1 `PDIE_A`, 2 `PDIE_B`. -/
structure Posted where
  dom : Nat := 0
  off : Nat := 0
  val : Word := 0
  deriving DecidableEq, Repr

/-- The register space's own state. -/
structure Hrs where
  /-- `HRS_LOCK0`, `HRS_PORTLOCK_LO`, `HRS_PORTLOCK_HI` (R51). -/
  lock0 : Word := 0
  portLo : Word := 0
  portHi : Word := 0
  /-- Every stored field of every register (RW, CFG, W1C, RC), by offset; an unlisted register
  reads its reset value. -/
  regs : Tbl (Option Word) := []
  /-- `HRS_RSTCAUSE` (R49). -/
  cause : Nat := 0
  cold : Bool := true
  pfwSeen : Bool := false
  lightning : Bool := false
  /-- `HRS_RESTARTS` (R49). -/
  mgmtRestarts : Nat := 0
  grpRestarts : Nat := 0
  /-- Posted writes waiting, oldest first. -/
  posted : List Posted := []
  /-- Partners latched by a read of a `*_LO` register (R140, R476), until they are read. -/
  latched : Tbl (Option Word) := []
  /-- The SPI status byte (R62). -/
  spiStatus : Nat := 0
  /-- The last vendor request on the control pipe was answered with `STALL` (R55). -/
  stalled : Bool := false
  deriving DecidableEq, Repr

/-- The whole state of one chip. -/
structure State where
  /-- The commands that are waiting, first in, first out. -/
  pending : List Instr := []
  /-- MODEL. 10 ns ticks since the start of time (R105). -/
  tick : Nat := 0
  /-- MODEL. Free values drawn so far (assumption 5). -/
  freeCtr : Nat := 0
  /-- MODEL. The bytes the last access returned to the host. -/
  rdata : List Byte := []
  variant : Variant := .svh48
  straps : Straps := {}
  hrs : Hrs := {}
  cci : Cci := {}
  journal : Journal := {}
  campion : Campion := {}
  warden : Warden := {}
  power : PowerCtl := {}
  keeper : Keeper := {}
  boot : Boot := {}
  chicory : Chicory := {}
  ports : Tbl PortSt := []
  clover : Clover := {}
  hub : HubFn := {}
  strike : Strike := {}
  rescue : Rescue := {}
  devices : Tbl Device := []
  chans : Tbl Chan := []
  groups : Tbl Group := []
  policies : Tbl Nat := []
  domain : Domains := {}
  sched : Sched := {}
  cans : Tbl CanCtl := []
  integ : Integ := {}
  test : TestSt := {}
  /-- Management restart under way since this tick (R23). -/
  mgmtDown : Option Nat := none
  /-- Why it runs: 1 lockstep, 2 watchdog or abort escalation. -/
  mgmtWhy : Nat := 0
  deriving DecidableEq, Repr

/-- The machine right after reset: powered, its straps low, nothing started. -/
def State.reset : State := {}

end Sys2Proof.Machine
end

