-- ==== Sys2Proof/Machine/Ops.lean ====
section
/-!
DEFINITION. The named operations every meaning is written with: bytes and checks, time, access to
the numbered things of State, raw register bits, events, records and their journal entries.
-/

namespace Sys2Proof.Machine

/-- One outcome of a command of this block. -/
abbrev Out := Host.Outcome State Fault Refusal

/-! ### Bytes -/

/-- The low eight bits of a number. -/
def byte (n : Nat) : Byte := BitVec.ofNat 8 n

/-- `n` bytes of a number, least significant first. -/
def le : Nat → Nat → List Byte
  | 0, _ => []
  | n + 1, v => byte v :: le n (v / 256)

/-- The number a run of bytes spells, least significant first. -/
def rdLe : List Byte → Nat
  | [] => 0
  | b :: t => b.toNat + 256 * rdLe t

/-- `n` bytes from an offset; bytes beyond the end are absent. -/
def slice (l : List Byte) (off n : Nat) : List Byte := (l.drop off).take n

/-- Field readers; bytes beyond the end read 0. -/
def u8 (l : List Byte) (o : Nat) : Nat := (l.getD o 0).toNat
def u16 (l : List Byte) (o : Nat) : Nat := u8 l o + 256 * u8 l (o + 1)
def u32 (l : List Byte) (o : Nat) : Nat := u16 l o + 65536 * u16 l (o + 2)
def u48 (l : List Byte) (o : Nat) : Nat := u32 l o + 4294967296 * u16 l (o + 4)
def u64 (l : List Byte) (o : Nat) : Nat := u32 l o + 4294967296 * u32 l (o + 4)

/-- Zero bytes. -/
def zeros (n : Nat) : List Byte := List.replicate n 0

/-- A run of bytes padded with zero bytes to a length, or cut to it. -/
def fit (n : Nat) (l : List Byte) : List Byte := (l ++ zeros n).take n

/-- Every byte from `lo` to below `hi` is 0. -/
def allZero (l : List Byte) (lo hi : Nat) : Bool := (slice l lo (hi - lo)).all (· == 0)

/-- Bit `i` of a number. -/
def bit (n i : Nat) : Bool := n.testBit i

/-- Bits [hi:lo] of a number. -/
def bits (n hi lo : Nat) : Nat := n / 2 ^ lo % 2 ^ (hi + 1 - lo)

/-- 1 for true. -/
def b2n (b : Bool) : Nat := if b then 1 else 0

/-- Saturating increment. -/
def satInc (n top : Nat) : Nat := if n < top then n + 1 else top

/-- The bit numbers set in a mask, below `n`, rising. -/
def bitList (n mask : Nat) : List Nat := (List.range n).filter fun i => bit mask i

/-- A mask of the numbers listed. -/
def maskOf (l : List Nat) : Nat := l.foldl (fun m i => m ||| 2 ^ i) 0

/-- A number as a signed value of `w` bits. -/
def signed (w n : Nat) : Int := if n < 2 ^ (w - 1) then (n : Int) else (n : Int) - (2 ^ w : Nat)

/-- A signed value as `w` bits. -/
def unsigned (w : Nat) (i : Int) : Nat := (i % (2 ^ w : Nat)).toNat

/-- Insert into a rising list without repeats. -/
def addSorted (n : Nat) : List Nat → List Nat
  | [] => [n]
  | x :: t => if n < x then n :: x :: t else if n = x then x :: t else x :: addSorted n t

/-! ### Check codes -/

/-- One bit of the CRC-8 of R58: polynomial 0x07, no reflection. -/
def crc8Bit (c : Nat) : Nat := if c < 128 then c * 2 else (c * 2 % 256) ^^^ 0x07

/-- CRC-8 of R58: polynomial 0x07, initial value 0, no final XOR. -/
def crc8 (l : List Byte) : Nat :=
  l.foldl (fun c b => crc8Bit (crc8Bit (crc8Bit (crc8Bit (crc8Bit (crc8Bit (crc8Bit (crc8Bit
    (c ^^^ b.toNat))))))))) 0

/-- One bit of the reflected CRC-32 of R177. -/
def crc32Bit (c : Nat) : Nat := if c % 2 = 1 then (c / 2) ^^^ 0xEDB88320 else c / 2

/-- CRC-32 of IEEE 802.3 (R177): reflected polynomial 0x04C1_1DB7, initial value and final XOR
0xFFFF_FFFF. -/
def crc32 (l : List Byte) : Nat :=
  (l.foldl (fun c b => crc32Bit (crc32Bit (crc32Bit (crc32Bit (crc32Bit (crc32Bit (crc32Bit
    (crc32Bit (c ^^^ b.toNat))))))))) 0xFFFFFFFF) ^^^ 0xFFFFFFFF

/-! ### Time -/

/-- Ticks of 10 ns (R105) in a microsecond, a millisecond, a second. -/
def ticksUs (n : Nat) : Nat := n * 100
def ticksMs (n : Nat) : Nat := n * 100000
def ticksS (n : Nat) : Nat := n * 100000000

/-- `TIME32`: floor(wall ns / 1,000) mod 2^32 (R123). -/
def State.time32 (s : State) : Nat := s.chicory.wall.ns / 1000 % 4294967296

/-- Wall time in µs. -/
def State.wallUs (s : State) : Nat := s.chicory.wall.ns / 1000

/-! ### Access to numbered things -/

/-- Downstream ports and groups bonded out (R3). -/
def State.nPorts (s : State) : Nat := if s.variant = .svh48 then 48 else 16
def State.nGroups (s : State) : Nat := if s.variant = .svh48 then 6 else 2

def State.mb (s : State) (n : Nat) : Mailbox := Tbl.getD {} s.cci.mbs n
def State.setMb (s : State) (n : Nat) (m : Mailbox) : State :=
  { s with cci.mbs := Tbl.setD {} s.cci.mbs n m }

def State.port (s : State) (p : Nat) : PortSt := Tbl.getD {} s.ports p
def State.setPort (s : State) (p : Nat) (x : PortSt) : State :=
  { s with ports := Tbl.setD {} s.ports p x }
def State.modPort (s : State) (p : Nat) (f : PortSt → PortSt) : State := s.setPort p (f (s.port p))
def State.modUsb (s : State) (p : Nat) (f : PortUsb → PortUsb) : State :=
  s.modPort p fun x => { x with usb := f x.usb }
def State.modPw (s : State) (p : Nat) (f : PortPower → PortPower) : State :=
  s.modPort p fun x => { x with pw := f x.pw }
def State.modPd (s : State) (p : Nat) (f : PortPd → PortPd) : State :=
  s.modPort p fun x => { x with pd := f x.pd }

def State.chan (s : State) (n : Nat) : Chan := Tbl.getD {} s.chans n
def State.setChan (s : State) (n : Nat) (c : Chan) : State :=
  { s with chans := Tbl.setD {} s.chans n c }
def State.modChan (s : State) (n : Nat) (f : Chan → Chan) : State := s.setChan n (f (s.chan n))

def State.dev (s : State) (n : Nat) : Device := Tbl.getD {} s.devices n
def State.setDev (s : State) (n : Nat) (d : Device) : State :=
  { s with devices := Tbl.setD {} s.devices n d }

def State.group (s : State) (n : Nat) : Group := Tbl.getD {} s.groups n
def State.setGroup (s : State) (n : Nat) (g : Group) : State :=
  { s with groups := Tbl.setD {} s.groups n g }

def State.ang (s : State) (k : Nat) : Ang := Tbl.getD {} s.chicory.angs k
def State.setAng (s : State) (k : Nat) (a : Ang) : State :=
  { s with chicory.angs := Tbl.setD {} s.chicory.angs k a }

def State.src (s : State) (n : Nat) : FaultSrc := Tbl.getD {} s.campion.srcs n
def State.setSrc (s : State) (n : Nat) (f : FaultSrc) : State :=
  { s with campion.srcs := Tbl.setD {} s.campion.srcs n f }

def State.dom (s : State) (d : Nat) : Domain := Tbl.getD {} s.power.doms d
def State.setDom (s : State) (d : Nat) (x : Domain) : State :=
  { s with power.doms := Tbl.setD {} s.power.doms d x }

def State.can (s : State) (c : Nat) : CanCtl := Tbl.getD {} s.cans c
def State.setCan (s : State) (c : Nat) (x : CanCtl) : State :=
  { s with cans := Tbl.setD {} s.cans c x }

def State.region (s : State) (r : Nat) : Region := Tbl.getD {} s.integ.regions r
def State.setRegion (s : State) (r : Nat) (x : Region) : State :=
  { s with integ.regions := Tbl.setD {} s.integ.regions r x }

def State.child (s : State) (c : Nat) : Child := Tbl.getD {} s.domain.children c
def State.setChild (s : State) (c : Nat) (x : Child) : State :=
  { s with domain.children := Tbl.setD {} s.domain.children c x }

def State.feed (s : State) (f : Nat) : Feed := Tbl.getD {} s.clover.feeds f
def State.setFeed (s : State) (f : Nat) (x : Feed) : State :=
  { s with clover.feeds := Tbl.setD {} s.clover.feeds f x }
def State.rail (s : State) (r : Nat) : Rail := Tbl.getD {} s.clover.rails r
def State.setRail (s : State) (r : Nat) (x : Rail) : State :=
  { s with clover.rails := Tbl.setD {} s.clover.rails r x }

/-- Draw one free value: the opaque constant at the counter, which the draw advances. -/
def State.free (s : State) : Word := Config.freeValue s.freeCtr
def State.drawn (s : State) : State := { s with freeCtr := s.freeCtr + 1 }

end Sys2Proof.Machine
end

