-- ==== Sys2Proof/Machine/RegMap.lean ====
section
/-!
DEFINITION. The register map: the fields of every register of the host register space with their
access types, locks and reset values, as the tables of the chapters give them (R30, R34, R48, R51,
R68, R92, R140, R172, R338, R393, R425, R454, R478, R479, R506). Bits no field covers are RSV-L.
-/

namespace Sys2Proof.Machine

/-- The access types of R34 a field's storage follows. -/
inductive Acc where
  | rw | ro | w1c | w1s | rc
  deriving DecidableEq, Repr

/-- One field: bits [hi:lo], access, CFG, LK (which lock covers it: see `lockCovers`), reset. -/
structure Field where
  lo : Nat
  hi : Nat
  acc : Acc
  cfg : Bool := false
  lk : Bool := false
  reset : Nat := 0
  deriving DecidableEq, Repr

/-- Short constructors for the map. -/
def fRO (hi lo : Nat) (reset : Nat := 0) : Field := { lo, hi, acc := .ro, reset }
def fRW (hi lo : Nat) (reset : Nat := 0) : Field := { lo, hi, acc := .rw, reset }
def fRWL (hi lo : Nat) (reset : Nat := 0) : Field := { lo, hi, acc := .rw, lk := true, reset }
def fC (hi lo : Nat) (reset : Nat := 0) : Field := { lo, hi, acc := .rw, cfg := true, reset }
def fCL (hi lo : Nat) (reset : Nat := 0) : Field :=
  { lo, hi, acc := .rw, cfg := true, lk := true, reset }
def fW1C (hi lo : Nat) : Field := { lo, hi, acc := .w1c }
def fW1S (hi lo : Nat) : Field := { lo, hi, acc := .w1s }
def fRC (hi lo : Nat) : Field := { lo, hi, acc := .rc }

/-- Identity, reset cause, posted-write and block status, 0x0000 to 0x0020 (R48, R49). -/
def fieldsId (off : Nat) : List Field :=
  match off with
  | 0x00 => [fRO 31 0]
  | 0x04 => [fRO 31 0]
  | 0x08 => [fRO 6 0, fRO 22 8]
  | 0x0C => [fRO 31 0]
  | 0x10 => [fRO 6 0]
  | 0x14 => [fRC 15 0]
  | 0x18 => [fRO 2 0, fW1C 10 8]
  | 0x1C => [fRO 31 0]
  | 0x20 => [fRO 5 0, fW1C 21 16]
  | _ => []

/-- Mailbox control, 0x0100 to 0x0120, and `CCI_DATAIN` (R68). -/
def fieldsCci (off : Nat) : List Field :=
  match off with
  | 0x100 => [fRO 18 0]
  | 0x104 => [fW1S 7 0]
  | 0x108 => [fW1C 7 0]
  | 0x10C => [fW1S 7 0, fW1C 15 8]
  | 0x110 => [fRW 0 0 1, fRO 1 1, fW1C 14 8]
  | 0x114 => [fRO 6 0]
  | 0x118 => [fC 11 0 1000]
  | 0x11C => [fRO 31 0]
  | 0x120 => [fRO 31 0]
  | _ => if 0x1C0 ≤ off && off < 0x200 then [fRW 31 0] else []

/-- Event words, masks and queue registers, 0x0200 to 0x02FF (R92). -/
def fieldsEv (off : Nat) : List Field :=
  if off < 0x210 then [fW1C 31 0]
  else if off < 0x220 then [fRW 31 0 0xFFFFFFFF]
  else match off with
  | 0x220 => [fRW 0 0, fRO 1 1, fW1C 12 8]
  | 0x224 => [fC 8 0 192, fC 24 16 64]
  | 0x228 => [fRO 9 0, fRC 31 16]
  | 0x22C => [fC 13 0 6144, fC 29 16 2048]
  | 0x230 => [fRO 14 0]
  | 0x234 => [fC 5 0 2]
  | _ => if (0x280 ≤ off && off < 0x290) || (0x2C0 ≤ off && off < 0x300) then [fRO 31 0] else []

/-- Locks, safety set and `ALIVE`, 0x0300 to 0x0318 (R51). -/
def fieldsLock (v : Variant) (off : Nat) : List Field :=
  match off with
  | 0x300 => [fW1S 9 0]
  | 0x304 => [fW1S 31 0]
  | 0x308 => if v = .svh48 then [fW1S 15 0] else [fRO 15 0]
  | 0x30C => [fCL 2 0 7]
  | 0x310 => [fCL 7 0]
  | 0x314 => [fRWL 0 0, fRO 1 1, fW1C 10 8]
  | 0x318 => [fRO 2 0, fRO 31 16]
  | _ => []

/-- Campion, 0x0C00 to 0x0C54 (R454). -/
def fieldsCampion (off : Nat) : List Field :=
  match off with
  | 0xC00 => [fRO 1 0, fRO 8 8, fW1C 10 9, fRO 11 11, fW1C 12 12]
  | 0xC04 => [fRW 6 0]
  | 0xC08 => [fRWL 7 0, fRWL 10 8, fRO 11 11]
  | 0xC0C => [fRWL 26 0]
  | 0xC10 => [fRO 5 0, fRO 15 8]
  | 0xC14 => [fRO 31 0]
  | 0xC18 => [fW1S 0 0]
  | 0xC1C => [fRW 1 0]
  | 0xC40 => [fRO 6 0, fRO 10 8]
  | 0xC44 => [fRO 31 0]
  | 0xC48 => [fRWL 11 0]
  | 0xC4C => [fRO 9 0]
  | 0xC50 => [fRO 2 0, fRO 13 8, fRO 23 16]
  | 0xC54 => [fRO 31 0]
  | _ => if 0xC20 ≤ off && off < 0xC30 then [fRO 31 0]
    else if 0xC30 ≤ off && off < 0xC40 then [fW1C 31 0] else []

/-- Keeper, 0x0D00 to 0x0D2C (R479). Its values live in the keeper, not in register storage. -/
def fieldsKeeper (off : Nat) : List Field :=
  match off with
  | 0xD00 => [fRO 1 0, fRO 9 8, fW1C 10 10, fRO 11 11]
  | 0xD04 => [fRO 31 0]
  | 0xD08 => [fRO 31 0]
  | 0xD0C => [fRO 15 0]
  | 0xD10 => [fRO 15 0, fW1S 16 16]
  | 0xD14 => [fRO 31 0]
  | 0xD18 => [fRO 31 0]
  | 0xD1C => [fRO 31 0]
  | 0xD20 => [fRO 0 0, fW1C 1 1, fRO 2 2, fRO 21 8]
  | 0xD24 => [fRW 3 0, fRW 11 4]
  | 0xD28 => [fW1C 3 0, fRO 5 4]
  | 0xD2C => [fRO 31 0]
  | _ => []

/-- Test multiplexer, 0x0E00 to 0x0E2C (R506). -/
def fieldsTmux (off : Nat) : List Field :=
  if off = 0xE00 then
    [fRO 1 0, fRO 8 8, fW1C 10 9, { lo := 11, hi := 11, acc := .w1s, lk := true }, fRO 12 12]
  else if off = 0xE04 then [fRO 15 0]
  else if 0xE10 ≤ off && off < 0xE30 then [fRW 2 0, fRW 31 16]
  else []

/-- Chicory window, 0x1000 to 0x1FFF (R140). DESIGN CHOICE (log 50): `PHOn_PER` has two reset values for bits [15:0],
`CLR` 0 and `PERIOD` 1,000,000; it resets to 1,000,000. -/
def fieldsChicory (off : Nat) : List Field :=
  if off < 0x1100 then
    match off % 0x40 with
    | 0x00 => [fRW 0 0, fRO 1 1, fW1C 8 8, fW1C 11 10]
    | 0x04 => [fC 2 0, fC 5 3, fC 6 6, fC 7 7, fC 11 8 0xF, fC 31 16 1]
    | 0x08 => [fC 1 0, fC 15 8 10, fC 23 16 32, fC 27 24 4]
    | 0x0C => [fC 12 0 100, fC 13 13, fC 31 16 0x400]
    | 0x10 => [fC 15 0]
    | 0x14 => [fC 31 0 50000]
    | 0x18 => [fRO 4 0, fRO 31 16]
    | 0x1C => [fRO 31 0]
    | 0x20 => [fRO 31 0]
    | 0x24 => [fRO 31 0]
    | 0x28 => [fRC 7 0, fRC 15 8, fRC 23 16, fRC 31 24]
    | _ => []
  else if off < 0x1200 then
    match off with
    | 0x1100 => [fRW 0 0, fRO 1 1, fW1C 8 8, fW1C 10 10]
    | 0x1104 => [fC 1 0, fC 2 2, fC 28 16 100]
    | 0x1108 => [fRO 31 0]
    | 0x110C => [fRO 31 0]
    | 0x1110 => [fRO 3 0, fRO 31 16]
    | 0x1114 => [fRO 31 0]
    | _ => []
  else if off < 0x1300 then
    match off % 0x10 with
    | 0x0 => [fRW 0 0, fRO 1 1, fC 4 2, fC 5 5, fC 6 6, fW1C 8 8, fW1C 11 10, fC 23 16]
    | 0x4 => [fC 31 0]
    | 0x8 => [fC 31 0 1000000]
    | _ => [fC 23 0 100]
  else if off < 0x13C0 then [fRW 0 0, fRO 1 1, fC 2 2, fC 3 3, fC 19 4 100]
  else if off = 0x13C0 then [fW1C 0 0, fRC 31 16]
  else if 0x1400 ≤ off && off < 0x1480 then
    match off % 0x10 with
    | 0x0 => [fRW 0 0, fRO 1 1, fC 3 2, fRO 4 4, fW1C 8 8, fW1C 11 10, fC 14 12, fC 23 16 10]
    | _ => [fRO 31 0]
  else match off with
  | 0x1480 => [fRC 31 0]
  | 0x1500 => [fRW 0 0, fRO 1 1, fRW 2 2, fW1C 8 8, fW1C 12 11]
  | 0x1504 => [fC 11 0, fC 19 16, fC 20 20, fC 31 24 0xE4]
  | 0x1508 => [fRO 4 0, fRC 15 8]
  | _ => []

/-- Port window, 0x2000 to 0x2FFF (R172). -/
def fieldsPort (off : Nat) : List Field :=
  if off < 0x2300 then
    match off % 0x10 with
    | 0x0 => [fRW 0 0, fRO 1 1, fW1C 8 8, fW1C 14 10]
    | 0x4 => [fC 1 0, fC 15 8 50, fC 20 16 20]
    | 0x8 => [fRO 15 0]
    | _ => [fRC 7 0, fRC 15 8, fRC 23 16, fRC 31 24]
  else match off with
  | 0x2400 => [fRWL 0 0, fRO 1 1, fW1C 9 9]
  | 0x2404 => [fRO 5 0]
  | 0x2408 => [fRO 31 0]
  | 0x240C => [fRO 15 0]
  | _ => []

/-- Reset values of the breakpoints (R317, R338): current in 25 mA, time in 10 µs units. -/
def bpReset (k : Nat) : Nat × Nat :=
  match k with
  | 0 => (132, 6000000) | 1 => (144, 1000000) | 2 => (160, 200000) | 3 => (180, 50000)
  | 4 => (200, 10000) | 5 => (240, 2000) | 6 => (280, 500) | _ => (320, 100)

/-- Fusing window, 0x3000 to 0x3FFF (R338). -/
def fieldsFuse (off : Nat) : List Field :=
  if off < 0x3C00 then
    match off % 0x40 with
    | 0x00 => [fRW 0 0, fRO 1 1, fW1C 12 8]
    | 0x04 => [fCL 6 0 20, fCL 14 8 20, fCL 22 16 100, fCL 27 24 5]
    | 0x08 => [fCL 9 0 10, fCL 18 16 4]
    | 0x0C => [fRO 25 0]
    | 0x10 => [fRO 11 0, fRO 27 16]
    | 0x14 => [fRO 23 0, fRC 31 24]
    | 0x18 => [fC 9 0 150, fRO 25 16]
    | o => if 0x1C ≤ o && o < 0x3C then
        [fCL 8 0 (bpReset ((o - 0x1C) / 4)).1, fCL 31 9 (bpReset ((o - 0x1C) / 4)).2] else []
  else match off with
  | 0x3C00 => [fRO 5 0, fW1C 13 8, fW1C 21 16]
  | 0x3C04 => [fRW 0 0, fRO 1 1, fW1C 10 8]
  | 0x3C08 => [fC 7 0 50, fC 23 16 5]
  | 0x3C0C => [fCL 1 0]
  | 0x3C10 => [fCL 15 0, fCL 31 16]
  | 0x3C14 => [fCL 15 0, fCL 31 16]
  | 0x3C18 => [fRO 31 0]
  | 0x3C1C => [fRO 31 0]
  | 0x3C20 => [fRO 8 0, fRC 31 16]
  | 0x3C24 => [fRO 6 0, fRO 9 8]
  | 0x3C28 => [fRO 31 0]
  | 0x3C2C => [fRO 31 0]
  | _ => []

/-- CAN window, 0x4000 to 0x4FFF (R393): LK only on `CANA`. -/
def fieldsCan (off : Nat) : List Field :=
  let o := off % 0x800
  let a := off < 0x4800
  let c (hi lo r : Nat) : Field := { lo, hi, acc := .rw, cfg := true, lk := a, reset := r }
  let w (hi lo r : Nat) : Field := { lo, hi, acc := .rw, lk := a, reset := r }
  if 0x100 ≤ o && o < 0x500 then
    match o % 0x10 with
    | 0x0 => [w 1 0 3, w 2 2 0]
    | 0x4 => [w 28 0 0]
    | 0x8 => [w 28 0 0]
    | _ => []
  else match o with
  | 0x00 => [fRW 0 0, fRO 1 1, fW1C 13 8]
  | 0x04 => [c 0 0 1, c 1 1 1, c 2 2 0, c 3 3 1, c 7 4 15, fC 10 8 4, c 22 16 30]
  | 0x08 => [c 9 0 1, c 17 10 62, c 24 18 15, c 31 25 15]
  | 0x0C => [c 4 0 0, c 12 8 28, c 19 16 9, c 27 24 9]
  | 0x10 => [fRO 2 0, fRO 27 8]
  | 0x14 => [fRO 31 0]
  | 0x18 => [fRO 31 0]
  | 0x1C => [fRO 8 0, fRO 24 16]
  | 0x20 => [fRC 15 0, fRC 31 16]
  | 0x24 => [fRC 15 0]
  | 0x28 => [fRO 31 0]
  | 0x2C => [fRO 31 0]
  | 0x30 => [fRO 31 0]
  | 0x34 => [fRO 31 0]
  | 0x38 => [fRO 31 0]
  | _ => []

/-- Integrity window, 0x5000 to 0x5FFF (R425). -/
def fieldsInteg (off : Nat) : List Field :=
  if 0x5100 ≤ off && off < 0x5240 then
    match off % 0x10 with
    | 0x0 => [fRW 0 0, fRW 1 1, fRO 9 4]
    | 0x4 => [fRO 23 0]
    | _ => [fRO 31 0]
  else match off with
  | 0x5000 => [fRW 0 0, fRO 1 1, fW1C 13 8]
  | 0x5004 => [fC 15 0 256, fC 31 16 1000]
  | 0x5008 => [fC 5 0 4, fRO 31 16]
  | 0x500C => [fRO 23 0]
  | 0x5010 => [fRO 23 0]
  | 0x5020 => [fRO 7 0]
  | 0x5030 => [fRO 4 0, fRO 12 8, fRO 31 16]
  | 0x5034 => [fRO 23 0]
  | 0x5038 => [fRO 23 0]
  | 0x5040 => [fRW 0 0, fW1C 1 1, fRW 12 8, fRW 21 16 1, fRW 24 24]
  | 0x5044 => [fRW 23 0]
  | 0x5048 => [fRW 11 0, fRW 23 16]
  | 0x5050 => [fRO 8 0, fRO 31 16]
  | _ => []

/-- The power domains the table of R455 names. -/
def domainExists (v : Variant) (d : Nat) : Bool :=
  (d ≤ 0x0B || (0x10 ≤ d && d ≤ 0x20)) &&
    (v = .svh48 || !((5 ≤ d && d ≤ 8) || d = 0x0B))

/-- Power-domain window, 0x6000 to 0x6FFF (R478). -/
def fieldsDom (v : Variant) (off : Nat) : List Field :=
  if 0x6100 ≤ off && off < 0x6310 then
    if domainExists v ((off - 0x6100) / 0x10) then
      match off % 0x10 with
      | 0x0 => [fRW 0 0, fRO 1 1, fC 3 2 1, fW1C 8 8, fW1C 10 10]
      | 0x4 => [fC 25 0 1000000]
      | 0x8 => [fC 5 0]
      | _ => [fRO 4 0, fRO 15 8, fRC 31 16]
    else []
  else match off with
  | 0x6000 => [fRW 0 0, fRO 1 1, fW1C 12 8]
  | 0x6004 => [fC 6 0, fC 8 8, fC 9 9 1, fC 10 10]
  | 0x6008 => [fRO 12 0, fRC 23 16]
  | 0x600C => [fRO 15 0]
  | 0x6010 => [fRO 1 0, fW1S 9 8]
  | 0x6014 => [fRW 31 0]
  | 0x6018 => [fRW 31 0]
  | _ => []

/-- The fields of the register at an offset (a multiple of 4 below 0x8000). -/
def fields (v : Variant) (off : Nat) : List Field :=
  if off < 0x100 then fieldsId off
  else if off < 0x200 then fieldsCci off
  else if off < 0x300 then fieldsEv off
  else if off < 0x400 then fieldsLock v off
  else if off < 0xC00 then [fRW 31 0]
  else if off < 0xD00 then fieldsCampion off
  else if off < 0xE00 then fieldsKeeper off
  else if off < 0xF00 then fieldsTmux off
  else if off < 0x1000 then []
  else if off < 0x2000 then fieldsChicory off
  else if off < 0x3000 then fieldsPort off
  else if off < 0x4000 then fieldsFuse off
  else if off < 0x5000 then fieldsCan off
  else if off < 0x6000 then fieldsInteg off
  else if off < 0x7000 then fieldsDom v off
  else []

/-- The bits a field covers. -/
def Field.mask (f : Field) : Nat := (2 ^ (f.hi + 1 - f.lo) - 1) * 2 ^ f.lo

/-- The value a register's storage holds at reset. -/
def regReset (v : Variant) (off : Nat) : Word :=
  BitVec.ofNat 32 ((fields v off).foldl (fun n f => n ||| f.reset * 2 ^ f.lo) 0)

/-- The stored value of a register; an unlisted one holds its reset value. -/
def State.reg (s : State) (off : Nat) : Nat :=
  match Tbl.getD none s.hrs.regs off with
  | some w => w.toNat
  | none => (regReset s.variant off).toNat

/-- Store a register's value. -/
def State.setReg (s : State) (off : Nat) (v : Nat) : State :=
  let w := BitVec.ofNat 32 v
  { s with hrs.regs := Tbl.setD none s.hrs.regs off (if w = regReset s.variant off then none else some w) }

/-- Bits [hi:lo] of a stored register, and their replacement. -/
def State.fld (s : State) (off hi lo : Nat) : Nat := bits (s.reg off) hi lo
def State.setFld (s : State) (off hi lo v : Nat) : State :=
  let old := s.reg off
  s.setReg off (old - bits old hi lo * 2 ^ lo + v % 2 ^ (hi + 1 - lo) * 2 ^ lo)

/-- One stored bit, set and cleared. -/
def State.flag (s : State) (off i : Nat) : Bool := bit (s.reg off) i
def State.setFlag (s : State) (off i : Nat) : State := s.setFld off i i 1
def State.clrFlag (s : State) (off i : Nat) : State := s.setFld off i i 0

/-- Saturating increment of a stored count. -/
def State.incFld (s : State) (off hi lo : Nat) : State :=
  s.setFld off hi lo (satInc (s.fld off hi lo) (2 ^ (hi + 1 - lo) - 1))

end Sys2Proof.Machine
end

