-- ==== Sys2Proof/Machine/Events.lean ====
section
/-!
DEFINITION. Events (R89, R90, R91), the order of sequence numbers (chapter 3), the result cache and
commits (R75, R253 to R256), and answering a mailbox (R63, R72, R73).
-/

namespace Sys2Proof.Machine

/-! ### Watermarks and events -/

/-- A level with hysteresis: set at `hi` and above, released at `lo` and below (R88, R91). -/
def hysteresis (now : Bool) (level hi lo : Nat) : Bool :=
  if hi ≤ level then true else if level ≤ lo then false else now

/-- `EVQ_HI` after a change of the event queue's level (R91). -/
def State.evqLevel (s : State) : State :=
  { s with cci.evqHi := hysteresis s.cci.evqHi s.cci.evq.length (s.fld 0x224 8 0) (s.fld 0x224 24 16) }

/-- Raise an event (R89, R90): the pending bit is set whether or not it is masked; while
`CCI_QCTL.ENABLE` is 1 the record is queued, or dropped and counted when 256 are queued. An unmasked event that
becomes pending while the Caside function is suspended wakes the upstream host where that is enabled (R164). -/
def raiseEvent (ev code : Nat) (detail : List Byte) (s : State) : State :=
  let e : Event := { source := ev, code := code, eseq := s.cci.eseq, time32 := s.time32,
                     detail := fit 8 detail }
  let wake := s.hub.casideRwake && (s.hub.suspended || s.hub.casideSuspended) &&
    !s.flag (0x200 + ev / 32 * 4) (ev % 32) && !s.flag (0x210 + ev / 32 * 4) (ev % 32)
  let s := { s with cci.eseq := (s.cci.eseq + 1) % 65536, cci.wakeUp := s.cci.wakeUp || wake }
  let s := s.setFlag (0x200 + ev / 32 * 4) (ev % 32)
  if s.flag 0x220 0 then
    if s.cci.evq.length < 256 then
      State.evqLevel { s with cci.evq := s.cci.evq ++ [e] }
    else (s.setFlag 0x220 11).incFld 0x228 31 16
  else s

/-- The 16 bytes of an event record (R89). -/
def Event.bytes (e : Event) : List Byte :=
  [byte e.source, byte e.code] ++ le 2 e.eseq ++ le 4 e.time32 ++ fit 8 e.detail

/-- `ATTN_N` is asserted: some pending bit stands while its mask bit is 0 (R91), or the hub is in
the safe state (R448). -/
def State.attn (s : State) : Bool :=
  s.warden.safe || (List.range 4).any fun k =>
    (s.reg (0x200 + 4 * k)) &&& (4294967295 - s.reg (0x210 + 4 * k)) != 0

/-! ### Credits -/

/-- `CCI_CREDITS.AVAIL` (R82, R84): the credits of the session, less one for each unit not yet consumed. -/
def State.avail (s : State) : Nat := s.cci.credits - (s.cci.inq.filter fun e => s.tick < e.1).length

/-- `CCI_CTRL.EN_STAT`: the data path runs; it falls once the unit in progress has been consumed (R83). -/
def State.dataOn (s : State) : Bool := s.flag 0x110 0 || s.cci.inq.any fun e => s.tick < e.1

/-- Credits returned to the host beside a response (R84, R560). -/
def creditEvent (n : Nat) (s : State) : State := raiseEvent 105 1 [byte n, byte s.avail] s

/-- Credits reported by as many EV105 as their number takes. -/
def creditEvents (n : Nat) (s : State) : State :=
  (List.range ((n + 254) / 255)).foldl (fun s i => creditEvent (min 255 (n - 255 * i)) s) s

/-- A command with data units takes effect: EV105 reports the credits of those consumed by then, and the
response the remainder (R84; DESIGN CHOICE, log 43: no credit of a command is reported before its commit, for
one that ends without effect returns them all in its response). -/
def commitCredits (mb : Nat) (s : State) : State :=
  let m := s.mb mb
  let n := m.owed - (s.cci.inq.filter fun e => s.tick < e.1 && e.2 == mb).length
  if n == 0 then s else creditEvents n (s.setMb mb { m with owed := m.owed - n })

/-! ### Sequence numbers -/

/-- c is newer than x: (c − x) mod 2^32 lies in 1 to 2^31 − 1. -/
def newer32 (c x : Nat) : Bool :=
  let d := (c + 4294967296 - x % 4294967296) % 4294967296
  1 ≤ d && d ≤ 2147483647

/-- a is newer than b: (a − b) mod 65,536 lies in 1 to 32,767 (R259). -/
def newer16 (a b : Nat) : Bool :=
  let d := (a + 65536 - b % 65536) % 65536
  1 ≤ d && d ≤ 32767

/-! ### Commits and the result cache -/

/-- Evict the oldest entry when more than 64 are held (R75). -/
def evict (c : Cci) : Cci :=
  match c.cache with
  | e :: t => if 64 < c.cache.length then
      { c with cache := t, evictHi := if newer32 e.cseq c.evictHi then e.cseq else c.evictHi }
    else c
  | [] => c

/-- A command's journal commit (R75, R254): its result-cache entry, `CCI_CSEQ_HI`, the log. -/
def logCommit (mb cseq : Nat) (r : Option Resp) (s : State) : State :=
  let c := s.cci
  let c := evict { c with cache := c.cache ++ [{ cseq := cseq, mb := mb, resp := r }] }
  let c := { c with cseqHi := if newer32 cseq c.cseqHi then cseq else c.cseqHi }
  { s with cci := c, journal.logged := s.journal.logged + 1 }

/-- The result-cache entry of a `CSEQ`. -/
def cached (c : Cci) (cseq : Nat) : Option CacheEnt := c.cache.find? fun e => e.cseq == cseq

/-! ### Answering -/

/-- Build a mailbox's response; `MAILBOX_RESPONSE` writes it into the window. -/
def answer (mb : Nat) (r : Resp) (s : State) : State :=
  s.setMb mb { s.mb mb with phase := .answered r }

/-- The answer of a refusal: no effect, `COMMITTED` 0 (R73). -/
def refusal (st : Status) (results : List Byte) (s : State) : Resp :=
  { status := st, results := results, time32 := s.time32 }

/-- Mailboxes waiting for the cache entry of a `CSEQ` are answered from it (R256). -/
def answerWaiters (cseq : Nat) (r : Resp) (s : State) : State :=
  (List.range 8).foldl (fun s n =>
    let m := s.mb n
    if m.state = .posted && m.phase = .waiting (.cacheEntry cseq) then
      answer n { r with cached := true } s
    else s) s

/-- A committed command completes: its cache entry is filled (R256) and its mailbox answered. -/
def completeMb (mb : Nat) (st : Status) (results : List Byte) (s : State) : State :=
  let m := s.mb mb
  let r : Resp := { status := st, committed := true, results := results, time32 := m.commitTime }
  let s := { s with cci.cache := s.cci.cache.map fun e =>
    if e.cseq == m.cseq then { e with resp := some r } else e }
  answerWaiters m.cseq r (answer mb r s)

/-- Complete every posted command that waits for something `p` names. -/
def completeWhere (p : Wait → Bool) (st : Status) (results : List Byte) (s : State) : State :=
  (List.range 8).foldl (fun s n =>
    let m := s.mb n
    match m.state, m.phase with
    | .posted, .waiting w => if p w then completeMb n st results s else s
    | _, _ => s) s

/-- Some posted command waits for something `p` names. -/
def waitsFor (p : Wait → Bool) (s : State) : Bool :=
  (List.range 8).any fun n =>
    match (s.mb n).state, (s.mb n).phase with
    | .posted, .waiting w => p w
    | _, _ => false

/-! ### Running an accepted command -/

/-- What a command's row works on: its window, judged at acceptance. -/
structure Req where
  mb : Nat
  target : Nat
  params : List Byte
  /-- Payload of its data units, if `FLAGS.DATA` is set. -/
  data : List Byte
  hasData : Bool
  expert : Bool
  cseq : Nat

/-- What a command's row decides. -/
inductive CmdRes where
  /-- Answered without effect. -/
  | refuse (st : Status) (results : List Byte)
  /-- Answered without effect; the state notes the refusal (R237, R245). -/
  | noted (st : Status) (results : List Byte) (s : State)
  /-- A query: answered `OK`, nothing changes, never commits (R254). -/
  | query (results : List Byte)
  /-- `sys.hello`, `sys.resync`, `sys.abort`: the state they name changes, never commits. -/
  | session (results : List Byte) (s : State)
  /-- Commits and completes. -/
  | commit (results : List Byte) (s : State)
  /-- Commits; the answer waits. -/
  | commitWait (w : Wait) (s : State)
  /-- Commits with a status of its own at completion. -/
  | commitWith (st : Status) (results : List Byte) (s : State)

/-- Bytes of a mailbox window. -/
def Mailbox.bytes (m : Mailbox) (off n : Nat) : List Byte :=
  (List.range n).map fun i => Tbl.getD 0 m.win (off + i)

/-- Chip, scope and index of a target in the second form of R74. -/
def tChip (t : Nat) : Nat := bits t 31 26
def tScope (t : Nat) : Nat := bits t 25 22
def tIndex (t : Nat) : Nat := bits t 21 0

/-- The request an accepted command makes. -/
def Mailbox.req (m : Mailbox) (n : Nat) : Req :=
  let plen := rdLe (m.bytes 12 2)
  { mb := n, target := rdLe (m.bytes 8 4), params := m.bytes 16 plen, data := m.buf,
    hasData := m.data, expert := m.expert, cseq := m.cseq }

/-- The journal takes no further entry: it is sealed (R271). -/
def State.canCommit (s : State) : Bool := !s.journal.sealed

/-- Carry out what the row decided. While the journal is sealed a command that would commit stays
`POSTED` (R271). -/
def finish (mb : Nat) (r : CmdRes) (s : State) : State :=
  let cseq := (s.mb mb).cseq
  match r with
  | .refuse st res => answer mb (refusal st res s) s
  | .noted st res t => answer mb (refusal st res s) t
  | .query res => answer mb { results := res, time32 := s.time32 } s
  | .session res t => answer mb { results := res, time32 := s.time32 } t
  | .commit res t =>
    if s.canCommit then
      let r : Resp := { committed := true, results := res, time32 := s.time32 }
      answer mb r (commitCredits mb (logCommit mb cseq (some r) t))
    else s
  | .commitWith st res t =>
    if s.canCommit then
      let r : Resp := { status := st, committed := true, results := res, time32 := s.time32 }
      answer mb r (commitCredits mb (logCommit mb cseq (some r) t))
    else s
  | .commitWait w t =>
    if s.canCommit then
      let t := commitCredits mb (logCommit mb cseq none t)
      t.setMb mb { t.mb mb with phase := .waiting w, committed := true, commitTime := s.time32 }
    else s

/-- The object of a command (R284), as a kind and a number; none where it names none. -/
def objectOf (op : Nat) (r : Req) : Option (Nat × Nat) :=
  let g := op / 256
  if op ∈ [0x0402, 0x0403, 0x0404, 0x0407, 0x0408, 0x0411] then some (16, r.target)
  else if g = 5 then
    some (17, tChip r.target)
  else if op ∈ [0x0901, 0x0902, 0x0903, 0x0907] then some (18, u8 r.params 0)
  else if op ∈ [0x0A02, 0x0A03, 0x0A04] then some (19, u8 r.params 0)
  else if tScope r.target = 0 then none
  else some (tScope r.target, r.target)

/-- Two commands name the same object; a group names each of its ports (R284). -/
def sameObject (a b : Option (Nat × Nat)) : Bool :=
  match a, b with
  | some (k, x), some (l, y) =>
    (k == l && x == y) ||
      (k == 1 && l == 2 && tChip x == tChip y && tIndex y / 8 == tIndex x) ||
      (k == 2 && l == 1 && tChip x == tChip y && tIndex x / 8 == tIndex y)
  | _, _ => false

/-- One command names a group and the other a channel of it (R284). -/
def State.groupNames (s : State) (a b : Option (Nat × Nat)) : Bool :=
  match a, b with
  | some (1, x), some (16, h) => tChip x == tChip h && (s.chan (bits h 25 14)).grp == tIndex x
  | some (16, h), some (1, x) => tChip x == tChip h && (s.chan (bits h 25 14)).grp == tIndex x
  | _, _ => false

/-- A command still expects data units (R83). -/
def Mailbox.takesUnits (m : Mailbox) : Bool :=
  m.state == .posted && m.data && !m.dead && (match m.phase with
    | .ready => true
    | .waiting (.relay _) => !m.lastSeen
    | _ => false)

/-- A posted command whose row may run: accepted, not started, its data units complete (R83). -/
def Mailbox.runnable (m : Mailbox) : Bool :=
  m.state == .posted && m.phase == .ready && (!m.data || m.lastSeen)

/-- The cores that serve a mailbox run: management for MB0 to MB6 and for MB7 outside warden
mode, Yarrow for MB7 in warden mode (R439); nothing runs in the safe state (R448). -/
def State.served (s : State) (mb : Nat) : Bool :=
  !s.warden.safe && s.boot.up &&
    (if s.warden.mode then mb == 7 else s.mgmtDown == none && (s.dom 2).st == 0)

/-- The management pair runs. -/
def State.mgmtUp (s : State) : Bool :=
  s.boot.up && s.mgmtDown.isNone && !s.warden.mode && !s.warden.safe && (s.dom 2).st == 0

/-- The domains a port of this part lies in: its group's and its port die's (R3, R5, R455). -/
def State.portDoms (s : State) (p : Nat) : List Nat :=
  if p < s.nPorts then [3 + p / 8, if p < 24 then 10 else 11] else []

/-- The power domains the object of a command lies in (R461): of a group, a port, a device's port, a
channel's port. -/
def State.needDoms (s : State) (op : Nat) (r : Req) : List Nat :=
  match objectOf op r with
  | some (1, t) => if tIndex t < s.nGroups then [3 + tIndex t] else []
  | some (2, t) => s.portDoms (tIndex t)
  | some (3, t) => if (s.dev (tIndex t)).used then s.portDoms (s.dev (tIndex t)).port else []
  | some (16, t) => s.portDoms (s.chan (bits t 25 14)).port
  | _ => []

/-- Those domains are ON, or the rescue start keeps them OFF (R461, R499): a command waits for the wake of a
domain it needs. -/
def State.domsAwake (s : State) (op : Nat) (r : Req) : Bool :=
  s.boot.rescue.isSome || (s.needDoms op r).all fun d => (s.dom d).st == 0

/-- A command may start: MB7 goes ahead of every command waiting in MB0 to MB6 (R67), else commands that name one
object go in the order of their acceptance (R284), and the domains its object lies in are ON (R461). -/
def State.mayStart (s : State) (mb : Nat) : Bool :=
  let m := s.mb mb
  let o := objectOf m.op (m.req mb)
  s.served mb && (mb == 7 || !(s.mb 7).runnable) && s.domsAwake m.op (m.req mb) &&
    (List.range 8).all fun n =>
      n == mb || mb == 7 || (s.mb n).state != .posted || (s.mb n).phase != .ready ||
        !((s.mb n).order < m.order &&
          (sameObject o (objectOf (s.mb n).op ((s.mb n).req n)) ||
            s.groupNames o (objectOf (s.mb n).op ((s.mb n).req n))))

/-- The row of a catalogue command: if a mailbox holds that command ready to run, decide it and
carry the decision out; otherwise nothing is commanded and nothing changes (assumption 3). -/
def runCmd (mb op : Nat) (core : Req → State → CmdRes) (s : State) : Out :=
  let m := s.mb mb
  if m.runnable && m.op == op && s.mayStart mb then
    .next (finish mb (core (m.req mb) s) s)
  else .next s

end Sys2Proof.Machine
end

