-- ==== Sys2Proof/Machine/Catalogue.lean ====
section
/-!
DEFINITION. The command catalogue (R281, R282, R287 to R301) as data: level, query mark, target
scopes, parameter length, bytes that must be 0 and bytes honoured only at expert level, for every
opcode; and the tests of R286 that read only these.
-/

namespace Sys2Proof.Machine

/-- One command of the catalogue. Scopes: those of R74, 16 a handle, 20 chip 0, 21 a child chip. -/
structure OpInfo where
  op : Nat
  expert : Bool := false
  query : Bool := false
  scopes : List Nat
  /-- Least and greatest `PLEN`. -/
  pmin : Nat
  pmax : Nat
  /-- Byte ranges [lo, hi) that must be 0 (R281). -/
  zero : List (Nat × Nat) := []
  /-- `[E]` bytes (R281, R282). -/
  ebytes : List Nat := []

/-- A command of fixed parameter length, and a query of one. -/
def cmd (op : Nat) (scopes : List Nat) (plen : Nat) (zero : List (Nat × Nat) := [])
    (ebytes : List Nat := []) : OpInfo :=
  { op := op, scopes := scopes, pmin := plen, pmax := plen, zero := zero, ebytes := ebytes }
def qry (op : Nat) (scopes : List Nat) (plen : Nat) : OpInfo :=
  { op := op, query := true, scopes := scopes, pmin := plen, pmax := plen }

/-- Groups 0x00 to 0x03 (R287 to R290). -/
def catalogue0 : List OpInfo :=
  [cmd 0x0001 [20] 0, cmd 0x0002 [20] 0, qry 0x0003 [0] 0, cmd 0x0004 [20] 1, cmd 0x0005 [0] 2,
   cmd 0x0006 [0] 2,
   cmd 0x0101 [5] 24 [(11, 12), (22, 24)] [16, 17, 18, 19, 20, 21], cmd 0x0102 [5] 1, qry 0x0103 [5] 0,
   cmd 0x0111 [5] 8, cmd 0x0112 [5] 8, cmd 0x0113 [5] 5,
   cmd 0x0121 [0] 20 [(17, 20)] [16], cmd 0x0122 [2] 6 [(3, 4)], cmd 0x0123 [0] 5 [] [4],
   cmd 0x0124 [0] 6 [(3, 4)],
   cmd 0x0201 [2] 4 [(1, 4)], cmd 0x0202 [2] 0, cmd 0x0203 [2] 0, cmd 0x0204 [2] 0, qry 0x0205 [2] 0,
   cmd 0x0206 [2] 4 [(3, 4)] [1, 2],
   qry 0x0301 [0] 1, qry 0x0302 [3] 2, cmd 0x0303 [2] 1]

/-- Groups 0x04 and 0x05 (R291, R292). -/
def catalogue1 : List OpInfo :=
  [{ op := 0x0401, scopes := [0, 3, 4], pmin := 16, pmax := 112, zero := [(12, 16)] },
   cmd 0x0402 [16] 4 [(1, 4)], cmd 0x0403 [16] 0, cmd 0x0404 [16] 0, cmd 0x0405 [1] 0,
   cmd 0x0406 [1] 0,
   { op := 0x0407, scopes := [16], pmin := 8, pmax := 232 },
   { op := 0x0408, scopes := [16], pmin := 8, pmax := 240, zero := [(3, 8)] },
   { op := 0x0409, query := true, scopes := [16], pmin := 0, pmax := 2, ebytes := [0, 1] },
   qry 0x040A [16] 2, qry 0x040B [16] 4,
   { op := 0x0410, scopes := [0], pmin := 16, pmax := 240, zero := [(1, 8)] },
   cmd 0x0411 [16] 0,
   cmd 0x0501 [0] 4 [(0, 4)],
   { op := 0x0502, scopes := [2, 3, 4, 16], pmin := 8, pmax := 240, zero := [(5, 8)] },
   { op := 0x0503, scopes := [16], pmin := 8, pmax := 240, zero := [(4, 8)] },
   cmd 0x0504 [0] 16 [(6, 8)], cmd 0x0505 [0] 4, qry 0x0506 [0, 2] 5]

/-- Groups 0x06 to 0x08 (R293 to R295). -/
def catalogue2 : List OpInfo :=
  [cmd 0x0601 [2] 0, cmd 0x0602 [2] 0, cmd 0x0603 [2] 0,
   cmd 0x0604 [2] 72 [(6, 8), (10, 12), (18, 20), (26, 28), (34, 36), (42, 44), (50, 52), (58, 60),
     (66, 68)] [5],
   cmd 0x0605 [0] 8 [(1, 2)], cmd 0x0606 [2] 1, cmd 0x0607 [0] 2, qry 0x0608 [0, 2] 0,
   qry 0x0701 [2] 0, cmd 0x0702 [2] 4 [(1, 2)], cmd 0x0703 [2] 0, cmd 0x0704 [2] 0, cmd 0x0705 [2] 1,
   cmd 0x0706 [2] 4, cmd 0x0707 [2] 1,
   cmd 0x0801 [4] 14 [] [12, 13], cmd 0x0802 [4] 1, cmd 0x0803 [4] 12 [(3, 4)],
   { op := 0x0804, scopes := [4], pmin := 16, pmax := 80 },
   cmd 0x0805 [4] 4, cmd 0x0806 [4] 0,
   { op := 0x0807, scopes := [4], pmin := 16, pmax := 196, zero := [(2, 4)] },
   qry 0x0808 [4] 0]

/-- Groups 0x09 to 0x0B (R296 to R298). -/
def catalogue3 : List OpInfo :=
  [qry 0x0901 [0] 1, cmd 0x0902 [0] 3, cmd 0x0903 [0] 4, cmd 0x0904 [0] 4 [(1, 2)], qry 0x0905 [0] 1,
   { cmd 0x0906 [0] 2 with expert := true },
   { cmd 0x0907 [0] 12 [(1, 4), (11, 12)] with expert := true },
   qry 0x0A01 [0] 1, cmd 0x0A02 [0] 8 [(3, 4)], cmd 0x0A03 [0] 1,
   { cmd 0x0A04 [0] 2 with expert := true },
   cmd 0x0A11 [0] 4 [(1, 4)], cmd 0x0A12 [0] 0, cmd 0x0A13 [0] 0, qry 0x0A14 [0] 0,
   qry 0x0B01 [20] 1, cmd 0x0B02 [21] 0, cmd 0x0B03 [21] 0, cmd 0x0B10 [6] 1,
   cmd 0x0B11 [6] 12 [(5, 8)], qry 0x0B12 [6] 0, qry 0x0B13 [0] 0]

/-- Groups 0x0C to 0x0E (R299 to R301). -/
def catalogue4 : List OpInfo :=
  [qry 0x0C01 [0] 0, cmd 0x0C02 [0] 8 [(1, 4)], cmd 0x0C03 [0] 8 [(1, 4)], cmd 0x0C04 [0] 1,
   cmd 0x0C05 [0] 16 [(2, 8)], cmd 0x0C06 [0] 1, qry 0x0C11 [0] 4, cmd 0x0C12 [0] 8,
   qry 0x0D01 [0] 0, cmd 0x0D02 [0] 4, cmd 0x0D03 [20] 2,
   { cmd 0x0E01 [0] 4 with expert := true },
   { op := 0x0E02, expert := true, scopes := [0, 1], pmin := 0, pmax := 1 },
   { cmd 0x0E03 [2] 2 with expert := true }, qry 0x0E04 [0] 0]

/-- The whole catalogue, and an opcode's entry. -/
def catalogue : List OpInfo := catalogue0 ++ catalogue1 ++ catalogue2 ++ catalogue3 ++ catalogue4
def opInfo (op : Nat) : Option OpInfo := catalogue.find? fun i => i.op == op

/-- A chip number is in the domain: this chip's own, or one the root knows (R71, R208). -/
def State.chipKnown (s : State) (c : Nat) : Bool :=
  c == s.domain.chipNum || (s.domain.chipNum == 0 && (s.child c).known)

/-- The target fits one of a command's scopes, its index in range for this part (R74, R5). -/
def targetOk (s : State) (i : OpInfo) (t : Nat) : Bool :=
  i.scopes.any fun sc =>
    match sc with
    | 16 => true
    | 20 => t == 0
    | 21 => tScope t == 0 && tIndex t == 0 && tChip t != 0
    | 0 => tScope t == 0 && tIndex t == 0
    | 1 => tScope t == 1 && tIndex t < s.nGroups
    | 2 => tScope t == 2 && tIndex t < s.nPorts
    | 3 => tScope t == 3 && tIndex t < 256
    | 4 => tScope t == 4 && tIndex t < 2
    | 5 => tScope t == 5 && tIndex t < 5
    | 6 => tScope t == 6 && domainExists s.variant (tIndex t)
    | _ => false

/-- The header checks of R71 and R281, and `LEVEL` 1 on a `sys.*` command (R282). -/
def headerBad (s : State) (w : List Byte) : Bool :=
  let op := u16 w 0
  let plen := u16 w 12
  match opInfo op with
  | none => true
  | some i =>
    1 < u8 w 2 || 4 ≤ u8 w 3 || 240 < plen || u16 w 14 != 0 || u32 w 4 == 0 ||
    !s.chipKnown (tChip (u32 w 8)) || (op / 256 == 0 && u8 w 2 != 0) ||
    i.zero.any fun z => !allZero (slice w 16 plen) z.1 z.2

/-- The level tests of R78 and R282. -/
def levelBad (s : State) (i : OpInfo) (w : List Byte) : Bool :=
  let g := i.op / 256
  if u8 w 2 = 1 then !(s.cci.expert.contains g)
  else i.expert || i.ebytes.any fun b => b < u16 w 12 && u8 w (16 + b) != 0

/-- An `[E]` parameter: honoured at expert level, else its default (R282). -/
def Req.e8 (r : Req) (i dflt : Nat) : Nat := if r.expert then u8 r.params i else dflt
def Req.e16 (r : Req) (i dflt : Nat) : Nat := if r.expert then u16 r.params i else dflt

/-- Step 6 of R286 as far as the catalogue decides it: scope, index and `PLEN`. -/
def shapeBad (s : State) (i : OpInfo) (r : Req) : Bool :=
  !targetOk s i r.target || r.params.length < i.pmin || i.pmax < r.params.length

/-- A command that needs a domain a rescue start keeps OFF is answered `WRONG_STATE` (R499), unless an earlier
test of R286 refuses it. -/
def rescueGate (op : Nat) (r : Req) (s : State) (c : CmdRes) : CmdRes :=
  if s.boot.rescue.isSome && (s.needDoms op r).any fun d => (s.dom d).st != 0 then
    match c with
    | .refuse st res | .noted st res _ =>
      if st = .badParam || st = .staleHandle || st = .locked || st = .notPermitted then .refuse st res
      else .refuse .wrongState []
    | _ => .refuse .wrongState []
  else c

/-- A catalogue command's row: its shape first, then its own decision. -/
def runOp (mb op : Nat) (core : Req → State → CmdRes) (s : State) : Out :=
  runCmd mb op (fun r s =>
    match opInfo op with
    | some i => if shapeBad s i r then .refuse .badParam [] else rescueGate op r s (core r s)
    | none => .refuse .badParam []) s

end Sys2Proof.Machine
end

