-- ==== Sys2Proof/Machine/Pages.lean ====
section
/-!
DEFINITION. The pages of the protected memories (chapter 13): how many a region has, the strength each stands at
(R396, R397), the valid bits of their lines (R399), and what allocating a page does (R399, R406, R419).
-/

namespace Sys2Proof.Machine

/-! ### Regions -/

/-- External frames (R395). -/
def State.extFrames (s : State) : Nat := s.boot.ddrMiB * 1048576 / 4672

/-- Pages of a region (R396). -/
def State.regionPages (s : State) (r : Nat) : Nat :=
  let n := s.extFrames
  let rings := min ((s.region 0x10).pages.getD 4096) n
  if r ≤ 0x0D then 128
  else if r = 0x0E then 256
  else if r = 0x0F then 1280
  else if r = 0x10 then rings
  else if r = 0x12 then (n * 16 + 4095) / 4096
  else if r = 0x13 then (n + 99) / 100
  else n - (n * 16 + 4095) / 4096 - (n + 99) / 100 - rings

/-- The bank a page of transfer SRAM lies in: the journal's pages are those of `B14`, then `B15`. -/
def bankOf (r p : Nat) : Nat := if r = 0x0E then 14 + p / 128 else r
def isSram (r : Nat) : Bool := r ≤ 0x0E
def isExt (r : Nat) : Bool := 0x10 ≤ r && r ≤ 0x12

/-- The power domain a page lies in (R455, R457). -/
def State.pageDom (s : State) (r p : Nat) : Nat :=
  if isExt r then 9 else if s.integ.rotPhase == 2 && s.integ.rotBank == bankOf r p then 0x20 else 0x10 + bankOf r p

/-- Default strength of a region (R396). -/
def rgnT0 (r : Nat) : Nat := if r = 0x0E || r = 0x12 then 16 else if r = 0x13 then 0 else 8

/-- Strength in force or aimed at in a region. -/
def State.rgnT (s : State) (r : Nat) : Nat := (s.region r).t.getD (rgnT0 r)

/-- Strength of a page by the runs of its region. -/
def runAt (dflt p : Nat) : List (Nat × Nat) → Nat
  | [] => dflt
  | (f, t) :: l => if f ≤ p then runAt t p l else dflt

/-- A run that begins at a page. -/
def cutRun (p : Nat) (l : List (Nat × Nat)) : List (Nat × Nat) :=
  if l.any fun e => e.1 == p then l
  else (l.filter fun e => e.1 < p) ++ (p, runAt 0 p l) :: l.filter fun e => p < e.1

/-- Neighbouring runs of one strength join. -/
def joinRuns : List (Nat × Nat) → List (Nat × Nat)
  | a :: b :: l => if a.2 == b.2 then joinRuns (a :: l) else a :: joinRuns (b :: l)
  | l => l

/-- Pages `p` to `p + n - 1` take a strength. -/
def tagPages (p n t : Nat) (l : List (Nat × Nat)) : List (Nat × Nat) :=
  joinRuns ((cutRun (p + n) (cutRun p l)).map fun e => if p ≤ e.1 && e.1 < p + n then (e.1, t) else e)

/-- Pages of a run list that stand at a strength, below a page count. -/
def runCount (t pages : Nat) : List (Nat × Nat) → Nat
  | [] => 0
  | [(f, u)] => if u == t then pages - f else 0
  | (f, u) :: (g, v) :: l => (if u == t then min g pages - min f pages else 0) + runCount t pages ((g, v) :: l)

/-- The runs of a region. -/
def State.rgnRuns (s : State) (r : Nat) : List (Nat × Nat) :=
  if (s.region r).runs.isEmpty then [(0, s.rgnT r)] else (s.region r).runs

/-- Strength of a page (R397), and pages of the region at its target strength (R296). -/
def State.pageT (s : State) (r p : Nat) : Nat := runAt 0 p (s.rgnRuns r)
def State.atTarget (s : State) (r : Nat) : Nat := runCount (s.rgnT r) (s.regionPages r) (s.rgnRuns r)

/-- `CODED` and `TAG` of a page's descriptor (R397). -/
def State.pageCoded (s : State) (r p : Nat) : Bool := s.pageT r p != 0
def State.pageTag (s : State) (r p : Nat) : Nat := s.pageT r p / 4 - 1

/-! ### Valid bits -/

/-- A page as one number. -/
def pageKey (r p : Nat) : Nat := r * 16777216 + p

/-- The line a byte of a page lies in may be read from memory (R399): its valid bit is 1, or nothing has cleared
the page's. -/
def State.lineValid (s : State) (r p offset : Nat) : Bool :=
  !(s.integ.cleared.any fun e => e.1 ≤ pageKey r p && pageKey r p < e.1 + e.2) ||
    bit (Tbl.getD 0 s.integ.lines (pageKey r p)) (offset / 64)

/-- Some line of a page may be read from memory. -/
def State.anyLine (s : State) (r p : Nat) : Bool := (List.range 64).any fun i => s.lineValid r p (64 * i)

/-- A write sets the valid bit of a line (R399); its unwritten bytes are zeros. -/
def writeLine (r p line : Nat) (s : State) : State :=
  { s with integ.lines := Tbl.modD 0 s.integ.lines (pageKey r p) (· ||| 2 ^ line) }

/-- Every valid bit of pages `p` to `p + n - 1` of a region is cleared (R399). -/
def clearLines (r p n : Nat) (s : State) : State :=
  let k := pageKey r p
  let inside (e : Nat × Nat) : Bool := k ≤ e.1 && e.1 + e.2 ≤ k + n
  { s with integ.cleared := (k, n) :: s.integ.cleared.filter fun e => !inside e
           integ.lines := s.integ.lines.filter fun (e : Nat × Nat) => !(k ≤ e.1 && e.1 < k + n) }

/-! ### Allocation -/

/-- Put a pair at its place by its first number. -/
def insertBy {α : Type} (e : Nat × α) : List (Nat × α) → List (Nat × α)
  | [] => [e]
  | x :: t => if e.1 < x.1 then e :: x :: t else x :: insertBy e t

/-- The first `n` free units of a space from a place on, as runs, beside the runs in use, which rise. -/
def takeFree : Nat → Nat → List (Nat × Nat) → List (Nat × Nat)
  | 0, _, _ => []
  | n, pos, [] => [(pos, n)]
  | n, pos, (a, k) :: t =>
    if pos < a then (pos, min n (a - pos)) :: takeFree (n - min n (a - pos)) (a + k) t
    else takeFree n (max pos (a + k)) t

/-- Unit `i` of a list of runs. -/
def nthUnit : Nat → List (Nat × Nat) → Option Nat
  | _, [] => none
  | i, (a, k) :: t => if i < k then some (a + i) else nthUnit (i - k) t

/-- The runs a channel holds in a space. -/
def Chan.runs (c : Chan) (sp : Nat) : List (Nat × Nat) := (c.mem.filter fun m => m.1 == sp).map (·.2)

/-- The memory that channels hold in a space, as rising runs: 0 the buffer pool in lines of 64 bytes, 1 the pages
of `RING`, 2 those of `HIST`. -/
def State.memRuns (s : State) (sp : Nat) : List (Nat × Nat) :=
  (s.chans.flatMap fun e => e.2.runs sp).foldr insertBy []

/-- The channel memory a byte of a page lies in: the space and its unit (R194, R195, R198). -/
def unitOf (r p offset : Nat) : Option (Nat × Nat) :=
  if r ≤ 0x0B then some (0, r * 8192 + p * 64 + offset / 64)
  else if r = 0x10 then some (1, p)
  else if r = 0x11 then some (2, p)
  else none

/-- The channel whose memory a byte of a page is. -/
def State.owner (s : State) (r p offset : Nat) : Option Nat :=
  match unitOf r p offset with
  | some (sp, u) => (s.chans.find? fun e => (e.2.runs sp).any fun x => x.1 ≤ u && u < x.1 + x.2).map (·.1)
  | none => none

/-- A channel holds memory in a page. -/
def Chan.inPage (c : Chan) (r p : Nat) : Bool :=
  match unitOf r p 0 with
  | some (0, u) => (c.runs 0).any fun x => x.1 < u + 64 && u < x.1 + x.2
  | some (sp, u) => (c.runs sp).any fun x => x.1 ≤ u && u < x.1 + x.2
  | none => false

/-- The pages a channel held and no other channel holds are freed: their poison goes (R406). -/
def unpoison (c : Chan) (s : State) : State :=
  { s with integ.notes := (s.integ.notes.map fun (m : PageNote) =>
      if c.inPage m.region m.page && !(s.chans.any fun e => e.2.inPage m.region m.page) then
        { m with poisoned := false } else m).filter fun m => m.stale || m.poisoned || m.visits != 0 }

/-- Units of a list of runs before a unit of one of them. -/
def unitsBefore (u : Nat) : List (Nat × Nat) → Nat
  | [] => 0
  | (a, k) :: t => if a ≤ u && u < a + k then u - a else k + unitsBefore u t

/-- Pages of a region are allocated (R399, R406, R419): their valid bits clear, their poison goes, and in a region
that changes its strength, or is `MIXED`, they take the target strength, which counts them as converted. -/
def allocPages (r p n : Nat) (s : State) : State :=
  let s := clearLines r p n s
  let s := { s with integ.notes := (s.integ.notes.map fun (m : PageNote) =>
    if m.region == r && p ≤ m.page && m.page < p + n then { m with poisoned := false } else m).filter fun m =>
      m.stale || m.poisoned || m.visits != 0 }
  let x := s.region r
  let active := s.integ.rsActive && s.integ.rsRegion == r
  if !(active || x.mixed) then s
  else
    let new := tagPages p n (s.rgnT r) (s.rgnRuns r)
    let k := runCount (s.rgnT r) (s.regionPages r) new - s.atTarget r
    let s := s.setRegion r { x with runs := new }
    if active then { s with integ.rsDone := s.integ.rsDone + k } else s

/-- A run of a space is allocated: of the pool, the pages that held none of it before. -/
def allocRun (sp : Nat) (held : List (Nat × Nat)) (e : Nat × Nat) (s : State) : State :=
  if sp = 0 then
    (List.range ((e.1 + e.2 + 63) / 64 - e.1 / 64)).foldl (fun s i =>
      let p := e.1 / 64 + i
      if held.any fun x => x.1 < 64 * (p + 1) && 64 * p < x.1 + x.2 then s
      else allocPages (p / 128) (p % 128) 1 s) s
  else allocPages (0x0F + sp) e.1 e.2 s

/-- A slot's channel takes so many units of each space (R187), the lowest free ones (DESIGN CHOICE, log 57). -/
def allocChan (slot : Nat) (need : List (Nat × Nat)) (s : State) : State :=
  need.foldl (fun s e =>
    let held := s.memRuns e.1
    let l := takeFree e.2 0 held
    l.foldl (fun s x => allocRun e.1 held x s)
      (s.modChan slot fun c => { c with mem := c.mem ++ l.map fun x => (e.1, x) })) s

/-- A line of a channel's memory in a space is written. -/
def writeUnit (slot sp line : Nat) (s : State) : State :=
  let runs := (s.chan slot).runs sp
  if sp = 0 then
    match nthUnit line runs with
    | some u => writeLine (u / 8192) (u / 64 % 128) (u % 64) s
    | none => s
  else
    match nthUnit (line / 64) runs with
    | some p => writeLine (0x0F + sp) p (line % 64) s
    | none => s

/-- Bytes of a channel's memory in a space are written. -/
def writeMem (slot sp offset len : Nat) (s : State) : State :=
  if len = 0 then s
  else (List.range ((offset % 64 + len + 63) / 64)).foldl (fun s j => writeUnit slot sp (offset / 64 + j) s) s

end Sys2Proof.Machine
end

