-- ==== Sys2Proof/Machine/Records.lean ====
section
/-!
DEFINITION. Time bases and stamps (R105, R111, R115, R123), records and their journal commit (R196,
R251 to R253, R259 to R270, R559), the record queue's ring (R85, R88), anchors (R124 to R126), and
the passing of time (R105, assumption 2).
-/

namespace Sys2Proof.Machine

/-! ### Time bases -/

/-- Position of an angle clock: cycle count and angle as one number, cycle × 65,536 + angle. -/
def Ang.pos (a : Ang) : Nat := a.cycle * 65536 + a.angle

/-- The clock at a position. -/
def Ang.at (a : Ang) (p : Nat) : Ang := { a with cycle := p / 65536 % 2 ^ 48, angle := p % 65536 }

/-- The mean of the rates of the last cycles, 8 at most (R115). -/
def Ang.meanRate (a : Ang) : Nat :=
  let l := a.rates.take 8
  if l.isEmpty then a.rate else l.foldl (· + ·) 0 / l.length

/-- Register base of clock `k` (R140). -/
def angBase (k : Nat) : Nat := 0x1000 + 0x40 * k

/-- The rate at which a clock advances, in 10^-9 Hz; 0 while it holds (R109, R115, R139). -/
def State.angRate (s : State) (k : Nat) : Nat :=
  let a := s.ang k
  if a.reverse then 0
  else match a.st with
  | 0 => 0
  | 1 => if a.seen < 2 then 0 else a.rate
  | 2 => a.rate
  | 3 => a.meanRate
  | _ => if s.flag (angBase k + 0x0C) 13 then 0 else s.fld (angBase k + 0x14) 31 0 * 1000000

/-- A clock holds its angle (R233). -/
def State.angHolds (s : State) (k : Nat) : Bool :=
  s.angRate k == 0 || (match (s.ang k).linkHold with
    | some c => (s.ang k).pos % 2 ^ 64 == c * 65536 + 65535
    | none => false)

/-- The live value of a time base in its target units: an angle clock's position, or wall µs. -/
def State.live (s : State) (tb : Nat) : Nat := if tb = 4 then s.wallUs else (s.ang tb).pos

/-- The angle stamp of a time base (R123). -/
def State.angStamp (s : State) (tb : Nat) : Nat :=
  if tb < 4 then (s.ang tb).cycle % 65536 * 65536 + (s.ang tb).angle else 0

/-- The angle stamp of a target: cycle × 65,536 + angle, its low 32 bits; 0 on `WALL` (R221). -/
def targetStamp (tb target : Nat) : Nat := if tb < 4 then target % 4294967296 else 0

/-- Whether a record on a time base sets `HOLDOVER` now (R123). DESIGN CHOICE (log 50): a `CAPTURE` record whose input
has no clock (`TB` 4) follows the rule of a `WALL` channel. -/
def State.holdover (s : State) (tb : Nat) : Bool :=
  if tb < 4 then (s.ang tb).st != 2
  else tb == 4 && s.flag 0x1100 0 && s.chicory.wall.st != 2

/-- One clock after `n` ticks at a rate (R105, R111): the base advance, sped up or slowed by what of
the phase error is still to be absorbed, between 0 and twice the rate. -/
def Ang.run (a : Ang) (rate n : Nat) : Ang :=
  let t := a.frac + n * rate * 65536
  let b := t / 100000000000000000
  let extra : Int := if a.owe < 0 then max a.owe (-(b : Int)) else min a.owe b
  let adv := ((b : Int) + extra).toNat
  let p := a.pos + adv
  let p := match a.linkHold with
    | some c => if c * 65536 + 65535 < p then max a.pos (c * 65536 + 65535) else p
    | none => p
  { a.at p with frac := t % 100000000000000000, owe := a.owe - extra }

/-- The wall clock after `n` ticks (R105, R119, R120): 10 ns a tick, the discipline's correction,
and at most 500 ppm of the offset `time.adjust` still has to absorb. Corrections are counted in
10^-7 ns; the slew takes the greatest rate R120 allows (assumption 9). -/
def Wall.run (w : Wall) (n : Nat) : Wall :=
  let lim : Int := (n : Int) * 50000
  let d : Int := if w.slew < 0 then max w.slew (-lim) else min w.slew lim
  let acc : Int := (w.slewFrac : Int) + (n : Int) * w.adj + d
  { w with ns := (((w.ns : Int) + 10 * n + acc / 10000000).toNat) % 2 ^ 64
           slewFrac := (acc % 10000000).toNat
           slew := w.slew - d }

/-- The first of `n` tries, each halving the interval, that finds the least tick count at which the wall clock
reaches a value; `hi` reaches it. -/
def Wall.search (w : Wall) (ns : Nat) : Nat → Nat → Nat → Nat
  | 0, _, hi => hi
  | n + 1, lo, hi =>
    if hi ≤ lo then hi
    else if ns ≤ (w.run ((lo + hi) / 2)).ns then w.search ns n lo ((lo + hi) / 2)
    else w.search ns n ((lo + hi) / 2 + 1) hi

/-- Ticks until the live wall clock, its discipline and its slew included, reaches a value (R119, R120,
R217): at least 9.993 ns pass in each. -/
def Wall.ticksTo (w : Wall) (ns : Nat) : Nat :=
  if ns ≤ w.ns then 0 else w.search ns 72 0 ((ns - w.ns) * 1001 / 10000 + 2)

/-- Ticks an angle clock at a rate needs to reach a position ahead of it, what of its phase error
it has still to absorb included. -/
def Ang.ticksTo (a : Ang) (rate target : Nat) : Nat :=
  let d := target - a.pos
  let b := if a.owe < 0 then d + (-a.owe).toNat
    else if d ≤ 2 * a.owe.toNat then (d + 1) / 2 else d - a.owe.toNat
  (b * 100000000000000000 - a.frac + rate * 65536 - 1) / (rate * 65536)

/-! ### Handles -/

/-- The handle of a slot at a generation (R189). -/
def State.mkHandle (s : State) (slot gen : Nat) : Nat :=
  s.domain.chipNum * 2 ^ 26 + slot * 2 ^ 14 + gen

/-- The handle of the channel a slot holds. -/
def State.handle (s : State) (slot : Nat) : Nat := s.mkHandle slot (s.chan slot).gen

/-- Slot and generation of a handle. -/
def hSlot (h : Nat) : Nat := bits h 25 14
def hGen (h : Nat) : Nat := bits h 13 0

/-- The slot a handle of this chip names, if a channel stands there at that generation (R190). -/
def State.slotOf (s : State) (h : Nat) : Option Nat :=
  let c := s.chan (hSlot h)
  if tChip h == s.domain.chipNum && c.st != 5 && c.gen == hGen h then some (hSlot h) else none

/-- Delivery bits of a channel (R186). -/
def Chan.stream (c : Chan) : Bool := bit c.deliver 0
def Chan.change (c : Chan) : Bool := bit c.deliver 1
def Chan.toLatest (c : Chan) : Bool := bit c.deliver 2
def Chan.toHistory (c : Chan) : Bool := bit c.deliver 3
def Chan.ringed (c : Chan) : Bool := bit c.opts 0
def Chan.periodic (c : Chan) : Bool := c.kind == 1 || c.kind == 2

/-- A group event EV48 to EV53 (R210). -/
def groupEvent (g code : Nat) (detail : List Byte) (s : State) : State :=
  raiseEvent (48 + g) code detail s

/-! ### Record bytes -/

/-- The 16-byte header (R559). -/
def Rec.header (r : Rec) : List Byte :=
  let fl := r.data.length % 4096 + 4096 * b2n r.missed + 8192 * b2n r.error + 16384 * b2n r.last +
    32768 * b2n r.holdover
  le 4 r.handle ++ le 2 r.seq ++ le 2 fl ++ le 4 r.angle ++ le 4 r.time32

/-- Length rounded up to a multiple of 8. -/
def round8 (n : Nat) : Nat := (n + 7) / 8 * 8

/-- A record in stream format: header, data, zero padding to a multiple of 8 (R85). -/
def Rec.bytes (r : Rec) : List Byte := r.header ++ fit (round8 r.data.length) r.data

/-- Bytes of a record in stream format. -/
def Rec.size (r : Rec) : Nat := 16 + round8 r.data.length

/-! ### The record area -/

/-- The areas of the journal, from the start of `B14` on (R251). -/
inductive JournalArea where
  | sealBlock | state | commandLog | latest | records | transit
  deriving DecidableEq, Repr

/-- First byte of an area of the journal (R251). -/
def JournalArea.offset : JournalArea → Nat
  | .sealBlock => 0x00000 | .state => 0x01000 | .commandLog => 0x20000 | .latest => 0x30000
  | .records => 0x70000 | .transit => 0xFE000

/-- Bytes of an area of the journal (R251). -/
def JournalArea.size : JournalArea → Nat
  | .sealBlock => 4096 | .state => 126976 | .commandLog => 65536 | .latest => 262144
  | .records => 581632 | .transit => 8192

/-- Size of the record area (R251): 568 KiB. -/
def areaBytes : Nat := JournalArea.records.size

/-- Free bytes of the record area. -/
def Journal.free (j : Journal) : Nat := areaBytes - j.area.foldl (fun n e => n + e.size) 0

/-- Items of the record queue: those of the ring and, before them, those that have fallen through into the
output stage (R85). -/
def Cci.queueItems (c : Cci) : Nat := c.ring.foldl (fun n e => n + (e.2.length + 7) / 8) 0

/-- Items the ring holds (R85, R88): all but the first 32, which stand in the output stage. -/
def Cci.ringItems (c : Cci) : Nat := c.queueItems - 32

/-- `RQ_HI` after a change of the ring's level (R88). -/
def State.rqLevel (s : State) : State :=
  { s with cci.rqHi := hysteresis s.cci.rqHi s.cci.ringItems (s.fld 0x22C 13 0) (s.fld 0x22C 29 16) }

/-- The next committed record that waits for the ring, and the area with it marked as entered. -/
def takeWaiting : List JEnt → Option (Rec × List JEnt)
  | [] => none
  | e :: t =>
    if e.queued then
      match takeWaiting t with
      | some (r, t') => some (r, e :: t')
      | none => none
    else some (e.rcd, { e with queued := true } :: t)

/-- Records sent again, then committed records, enter the ring whole as it has room (R85, R261). -/
def fillRing : Nat → State → State
  | 0, s => s
  | n + 1, s =>
    match s.cci.resend with
    | r :: rest =>
      if s.cci.ringItems + r.size / 8 ≤ 8192 then
        fillRing n { s with cci.resend := rest, cci.ring := s.cci.ring ++ [(r, r.bytes)] }
      else s
    | [] =>
      match takeWaiting s.journal.area with
      | some (r, area) =>
        if s.cci.ringItems + r.size / 8 ≤ 8192 then
          fillRing n { s with journal.area := area, cci.ring := s.cci.ring ++ [(r, r.bytes)] }
        else s
      | none => s

/-- The ring filled as far as it goes, and its watermark. -/
def State.refill (s : State) : State :=
  (fillRing (s.cci.resend.length + s.journal.area.length) s).rqLevel

/-- Free entries leave the area in log order (R267). -/
def Journal.trim (j : Journal) : Journal :=
  { j with area := j.area.dropWhile fun e => e.acked }

/-! ### Committing a record -/

/-- Unacknowledged records a channel holds (R265). -/
def Chan.unacked (c : Chan) : Nat := (c.nextSeq + 65536 - c.oldest) % 65536 - c.acked.length

/-- Keep the newest whole records that fit a history ring of 2^n bytes (R198). -/
def trimHistory (cap : Nat) (l : List Rec) : List Rec :=
  let rec go : Nat → List Rec → List Rec
    | 0, l => l
    | k + 1, l => if cap < l.foldl (fun n r => n + r.size) 0 then go k l.tail else l
  go l.length l

/-- Two records are equal for `CHANGE` (R196). -/
def sameReading (a b : Rec) : Bool :=
  a.data == b.data && a.missed == b.missed && a.error == b.error

/-- Why a record finds no place now. -/
inductive NoPlace where
  /-- The journal is sealed (R271). -/
  | isSealed
  /-- The channel's window is full (R265). -/
  | window
  /-- The area is `FULL`, or lacks the space (R268). -/
  | full
  deriving DecidableEq, Repr

/-- Bytes the record area needs for a channel's record (R251, R195). -/
def areaSize (c : Chan) (r : Rec) : Nat := if c.ringed then 24 else r.size

/-- Whether a record can commit on a channel (R252, R265, R268, R271). -/
def State.noPlace (s : State) (slot : Nat) (r : Rec) : Option NoPlace :=
  let c := s.chan slot
  if s.journal.sealed then some .isSealed
  else if !c.stream then none
  else if 32767 ≤ c.unacked then some .window
  else if s.journal.free < areaSize c r then some .full
  else if s.journal.level = 2 && !(r.last || slot == 0) then some .full
  else none

/-- A target that yields no record counts in `SKIPPED` and stays among the passed targets, the
latest 16 of which later yield `MISSED` records (R235, R265, R269, R272); an anchor has no target, and only
counts (R268). -/
def skipTarget (slot target : Nat) (s : State) : State :=
  s.modChan slot fun c => { c with
    nSkipped := c.nSkipped + 1
    passed := if slot = 0 then c.passed else (target :: c.passed).take 16 }

/-- Of records laid round a byte ring, newest first, the last byte of the newest just before `at_`: those with no
byte in the ring's bytes `lo` to `hi - 1`. -/
def outsideBytes (cap lo hi : Nat) : Nat → List Rec → List Rec
  | _, [] => []
  | at_, x :: t =>
    let b := (at_ + cap - x.size % cap) % cap
    let hit := if b < at_ then b < hi && lo < at_ else b < hi || lo < at_
    let t := outsideBytes cap lo hi b t
    if hit then t else x :: t

/-- The records of a channel's history ring with no byte in a page of `HIST` (R405). -/
def Chan.historyOutside (c : Chan) (p : Nat) : List Rec :=
  let k := unitsBefore p (c.runs 2)
  (outsideBytes (2 ^ c.histLog2) (4096 * k) (4096 * (k + 1)) c.histAt c.history.reverse).reverse

/-! ### Wakes of the memories (R461) -/

/-- Event of a domain (R477). -/
def domEv (d : Nat) : Nat :=
  if d = 2 then 96 else if d ≤ 8 then 97 else if d = 9 then 99 else if d ≤ 0x0B then 100 else 98

/-- Register base of a domain (R478). -/
def domBase (d : Nat) : Nat := 0x6100 + 16 * d

/-- A domain code that is a group's. -/
def isGrp (d : Nat) : Bool := 3 ≤ d && d ≤ 8

/-- The entry of a domain is abandoned at the next abort point (R462); the request that asked for it is answered
`WRONG_STATE`. -/
def abandonAt (d src : Nat) (s : State) : State :=
  let x := s.dom d
  match x.entry with
  | none => s
  | some (t, _) =>
    let s := s.setDom d { x with
      entry := none, ap := x.ap + 1, lastSrc := src, wflags := 1 + 2 * (x.ap + 1), fromSt := 0, toWas := t
      wakeTime := s.time32, wakeUs := 0, idleAt := s.tick }
    let s := raiseEvent (domEv d) 2 [byte d, byte (x.ap + 1), byte src] s
    completeWhere (fun w => w == .domain d t) .wrongState [] s

/-- A domain in RET or OFF begins to wake (R460), its source met at a tick. Source 24 is warden mode's. -/
def wakeFrom (d src at_ : Nat) (s : State) : State :=
  let x := s.dom d
  s.setDom d { x with wake := some (src, at_), wakeAfter := none, lastSrc := src % 16, wflags := 0
                      fromSt := x.st, toWas := x.st
                      wakeTime := if x.wakeAfter.isSome then x.wakeTime else s.time32 }

/-- A memory domain is accessed by another block (R461): a demand, for which the access waits. DESIGN CHOICE (log
40): that wait takes no modelled time. -/
def memDemand (d : Nat) (s : State) : State :=
  let s := s.setDom d { s.dom d with idleAt := s.tick }
  let x := s.dom d
  match x.entry with
  | some _ =>
    if x.ap < 3 then abandonAt d 8 s
    else s.setDom d { x with wakeAfter := some (8, s.tick), lastSrc := 8, wakeTime := s.time32 }
  | none => if x.st = 0 || x.wake.isSome then s else wakeFrom d 8 s.tick s

/-- The memory domains a channel's memory in a space lies in. -/
def State.memDoms (s : State) (slot sp : Nat) : List Nat :=
  if sp = 0 then
    (List.range 12).filterMap fun b =>
      if ((s.chan slot).runs 0).any fun x => x.1 < 8192 * (b + 1) && 8192 * b < x.1 + x.2 then some (s.pageDom b 0)
      else none
  else [9]

/-- Bytes of a channel's memory are written, which wakes the memory where it is not ON. -/
def storeMem (slot sp offset len : Nat) (s : State) : State :=
  if len = 0 then s else writeMem slot sp offset len ((s.memDoms slot sp).foldl (fun s d => memDemand d s) s)

/-- A record enters the channel's history ring at its next byte, round its end (R198). -/
def writeHistory (slot : Nat) (r : Rec) (s : State) : State :=
  let c := s.chan slot
  if !c.toHistory then s
  else
    let cap := 2 ^ c.histLog2
    let k := min r.size (cap - c.histAt)
    let s := storeMem slot 2 0 (r.size - k) (storeMem slot 2 c.histAt k s)
    s.modChan slot fun c => { c with histAt := (c.histAt + r.size) % cap }

/-- Step 2 and step 3 of R196: the record takes the channel's next sequence number, commits, and
goes to each destination. -/
def commitPlain (slot : Nat) (r : Rec) (s : State) : State :=
  let c := s.chan slot
  let r := { r with handle := s.handle slot, seq := c.nextSeq }
  let c := { c with
    nextSeq := (c.nextSeq + 1) % 65536
    nCommitted := c.nCommitted + 1
    nError := c.nError + b2n r.error
    lastRec := some r
    discards := 0
    latest := if c.toLatest then some r else c.latest
    history := if c.toHistory then trimHistory (2 ^ c.histLog2) (c.history ++ [r]) else c.history
    delivered := if c.stream then c.delivered else (c.nextSeq + 1) % 65536
    oldest := if c.stream then c.oldest else (c.nextSeq + 1) % 65536 }
  let s := writeHistory slot r (s.setChan slot c)
  if c.stream then
    State.refill { s with journal.area := s.journal.area ++
      [{ rcd := r, size := areaSize c r, ringRef := c.ringed }] }
  else s

/-- A target that finds its channel's window full (R265): skipped; the event is posted when the window
fills. -/
def windowSkip (slot target : Nat) (s : State) : State :=
  let c := s.chan slot
  let t := (skipTarget slot target s).modChan slot fun c => { c with windowFull := true }
  if c.windowFull then t else groupEvent c.grp 0x0D (le 4 (s.handle slot) ++ le 2 c.oldest) t

/-- The order of R196: the `CHANGE` filter, then the commit. The target is that of a record which finds no
place. -/
def commitRec (slot : Nat) (r : Rec) (target : Nat) (s : State) : State :=
  let c := s.chan slot
  let dropIt := c.change && !r.last && slot != 0 &&
    (match c.lastRec with | some l => sameReading l r | none => false) &&
    !(c.heartbeat != 0 && c.heartbeat ≤ c.discards + 1)
  if dropIt then s.setChan slot { c with discards := c.discards + 1, nChange := c.nChange + 1 }
  else match s.noPlace slot r with
  | none => commitPlain slot r s
  | some .window =>
    if r.last then s.setChan slot { c with built := c.built ++ [r] } else windowSkip slot target s
  | some _ => if r.last then s.setChan slot { c with built := c.built ++ [r] } else skipTarget slot target s

/-- An earlier target of a channel is still due or on a wire (R221). -/
def State.earlier (s : State) (slot target : Nat) : Bool :=
  ((s.chan slot).due.any fun d => d.target < target) ||
    s.sched.wire.any fun e => match e.2 with
      | some w => w.slot == slot && w.stamp < target
      | none => false

/-- A built record takes its place by its target (R221). -/
def insertBuilt (r : Rec) : List Rec → List Rec
  | [] => [r]
  | x :: t => if r.stamp < x.stamp then r :: x :: t else x :: insertBuilt r t

/-- A `MISSED` record of a channel (R221), in the order of its targets; counted by its cause as `chan.info` orders them: 0 NAK,
1 no free half, 2 replaced, 3 group restart or port reset, 4 passed, 5 record-area pressure; 6 a
target missed late, counted apart (R220). -/
def missRec (slot cause target : Nat) (s : State) : State :=
  let c := s.chan slot
  let s := s.setChan slot (if cause = 6 then { c with nLate := c.nLate + 1 }
    else { c with nMissed := Tbl.modD 0 c.nMissed cause (· + 1) })
  let r : Rec := { missed := true, holdover := s.holdover c.sched.tb, angle := targetStamp c.sched.tb target
                   time32 := s.time32, stamp := target }
  if c.built.isEmpty && !s.earlier slot target then commitRec slot r target s
  else s.modChan slot fun c => { c with built := insertBuilt r c.built }

/-- Passed targets are handled as R235 says: the latest 16 yield `MISSED` records in target order;
the rest stay in `SKIPPED`. -/
def settlePassed (slot : Nat) (s : State) : State :=
  let c := s.chan slot
  let l := c.passed.reverse
  let s := s.setChan slot { c with passed := [], nSkipped := c.nSkipped - l.length }
  if c.st == 1 then l.foldl (fun s a => missRec slot 4 a s) s else s

/-- Every channel that holds a slot now. -/
def State.openSlots (s : State) : List Nat :=
  (s.chans.filter fun e => e.2.st != 5).map (·.1)

/-! ### Anchors -/

/-- An open channel, an enabled phase output, a `PLINK` source slot or a booked inrush start names
a clock (R118). DESIGN CHOICE (log 50): a source slot names its clock while `TX_EN` is 1. -/
def State.inUse (s : State) (k : Nat) : Bool :=
  s.chans.any (fun e => e.2.st != 5 && e.1 != 0 && e.2.periodic && e.2.sched.tb == k) ||
  (List.range 16).any (fun n => s.flag (0x1200 + 16 * n) 0 && s.fld (0x1200 + 16 * n) 4 2 == k) ||
  (s.flag 0x1500 2 && (List.range 4).any fun i =>
    s.flag 0x1504 (16 + i) && s.fld 0x1504 (25 + 2 * i) (24 + 2 * i) == k) ||
  s.sched.inrush.any (fun e => match e.2 with | some (tb, _) => tb == k | none => false) ||
  s.sched.txns.any (fun t => t.st == 1 && t.items.any fun i => i.code == 3 && u8 i.body 0 == k) ||
  (List.range 8).any (fun m => (s.chans.any fun e => e.2.st != 5 && e.2.kind == 7 && e.2.dev == m) &&
    s.fld (0x1400 + 16 * m) 14 12 == k)

/-- Data of an anchor record (R126); `aflags` bits 0 `PERIODIC`, 1 `CYC16K`, 2 `STATE_CHG`, 3
`STEP`. The cycle, the angle and the wall time are those of the anchor instant. -/
def anchorData (s : State) (tb aflags cycle angle ns : Nat) : List Byte :=
  let st := if tb < 4 then (s.ang tb).st else s.chicory.wall.st
  [byte tb, byte st, byte aflags, 0] ++ le 6 cycle ++ le 2 angle ++ le 8 ns ++
    le 4 (if tb < 4 then s.angRate tb / 1000000 else 0)

/-- Emit an anchor at a given cycle, angle and wall time, all of one tick (R123). An occasion without space
counts in the anchor channel's `SKIPPED` (R268). -/
def anchorAt (tb aflags cycle angle ns : Nat) (s : State) : State :=
  if (s.chan 0).st == 1 then
    commitRec 0 { data := anchorData s tb aflags cycle angle ns, holdover := s.holdover tb,
                  angle := if tb < 4 then cycle % 65536 * 65536 + angle else 0,
                  time32 := ns / 1000 % 4294967296 } 0 s
  else s

/-- Emit an anchor of a time base as it stands (R125). -/
def anchor (tb aflags : Nat) (s : State) : State :=
  if tb < 4 then anchorAt tb aflags (s.ang tb).cycle (s.ang tb).angle s.chicory.wall.ns s
  else anchorAt 4 aflags 0 0 s.chicory.wall.ns s

/-! ### The passing of time -/

/-- The clocks after `n` ticks. -/
def State.clocks (s : State) (n : Nat) : State :=
  let c := s.chicory
  let angs := (List.range 4).foldl (fun t k =>
    Tbl.setD {} t k ((Tbl.getD {} t k).run (s.angRate k) n)) c.angs
  { s with tick := s.tick + n, chicory := { c with wall := c.wall.run n, angs := angs } }

/-- Ticks after which a clock of `old` stood at a position it has passed since. -/
def State.crossed (old : State) (k target : Nat) : Nat := (old.ang k).ticksTo (old.angRate k) target

/-- The cycle counts that are multiples of 16,384 which clocks in use have passed since `old`, with the ticks
after which each was, in the order of time (R125): clock and count. -/
def State.multiples (old s : State) : List (Nat × (Nat × Nat)) :=
  (((List.range 4).filter fun k => s.inUse k).flatMap fun k =>
    (List.range ((s.ang k).cycle / 16384 - (old.ang k).cycle / 16384)).map fun i =>
      let c := ((old.ang k).cycle / 16384 + 1 + i) * 16384
      (old.crossed k (c * 65536), (k, c))).foldr insertBy []

/-- Anchors at the cycle counts that are multiples of 16,384, for clocks in use that passed them, each with
the wall time of its tick (R125). -/
def cycleAnchors (old : State) (s : State) : State :=
  (old.multiples s).foldl (fun s e => anchorAt e.2.1 2 e.2.2 0 (old.chicory.wall.run e.1).ns s) s

/-- The clock a slot is sourced from here (R138). -/
def State.slotClk (s : State) (i : Nat) : Nat := s.fld 0x1504 (25 + 2 * i) (24 + 2 * i)

/-- `LINK` clocks of a slot, enabled. -/
def State.linkClocks (s : State) (i : Nat) : List Nat :=
  (List.range 4).filter fun k =>
    (s.ang k).st != 0 && s.fld (angBase k + 4) 2 0 == 3 && s.fld (angBase k + 4) 5 3 == i

/-- The chip's own clock that an outgoing slot is emitted from (R137, R138): the one it sources, or the
`LINK` clock that follows the received slot. -/
def State.slotOut (s : State) (i : Nat) : Option Nat :=
  if s.flag 0x1504 (16 + i) then some (s.slotClk i) else (s.linkClocks i).head?

/-- The outgoing second marks come from the chip's own wall clock (R137, R138). -/
def State.wallOut (s : State) : Bool :=
  s.flag 0x1504 20 || (s.flag 0x1100 0 && s.fld 0x1104 1 0 == 2)

/-- The marks `PLINK_OUT` has carried since `old`, while `TX_EN` is 1 (R137, R138): a cycle mark of each slot
at every wrap of the clock it is emitted from, a second mark at every second of the wall clock. -/
def linkOut (old : State) (s : State) : State :=
  if s.flag 0x1500 2 then
    let l := s.chicory.plink
    let marks := (List.range 4).foldl (fun t i =>
      match s.slotOut i with
      | some k => if (old.ang k).cycle < (s.ang k).cycle then
          Tbl.setD none t i (some (old.tick + old.crossed k ((s.ang k).cycle * 65536))) else t
      | none => t) l.outMarks
    let sec := s.chicory.wall.ns / 1000000000
    let wall := if s.wallOut && old.chicory.wall.ns / 1000000000 < sec then
        some (old.tick + old.chicory.wall.ticksTo (sec * 1000000000)) else l.outWall
    { s with chicory.plink := { l with outMarks := marks, outWall := wall } }
  else s

/-- Breakpoint k of a port's curve (R316, R338): current in mA, trip time in 10 µs units. -/
def State.breakpoint (s : State) (p k : Nat) : Nat × Nat :=
  let off := 0x3000 + 0x40 * p + 0x1C + 4 * k
  (25 * s.fld off 8 0, s.fld off 31 9)

/-- The accumulators of a port after `m` current samples at its standing current (R316), in eighths
of 10 µs. -/
def State.breakerRun (s : State) (p m : Nat) (w : PortPower) : PortPower :=
  let i := w.mA.natAbs
  if i < (s.breakpoint p 0).1 && w.acc.isEmpty then w
  else { w with acc := (List.range 8).foldl (fun t k =>
    let a := Tbl.getD 0 t k
    Tbl.setD 0 t k (if (s.breakpoint p k).1 ≤ i then a + 8 * m else a - m)) w.acc }

/-- The breakers of every port with power-good, or `STUCK_ON` (R325), over `n` ticks: one sample
each 10 µs. -/
def State.breakers (s : State) (n : Nat) : State :=
  let m := (s.tick + n) / 1000 - s.tick / 1000
  { s with ports := s.ports.map fun e =>
      if e.2.pw.pgood || e.2.usb.st == 4 then (e.1, { e.2 with pw := s.breakerRun e.1 m e.2.pw }) else e }

/-- `n` ticks of 10 ns pass (R105). -/
def State.elapse (n : Nat) (s : State) : State := cycleAnchors s (linkOut s ((s.breakers n).clocks n))

/-- Time has reached a tick: it passes as far as it must. -/
def State.waitUntil (t : Nat) (s : State) : State :=
  if s.tick < t then s.elapse (t - s.tick) else s

/-- The tick at which a time base reaches a target (R217); none where the clock holds at it or short of it
(R130, R233). -/
def State.reachTick (tb target : Nat) (s : State) : Option Nat :=
  if tb = 4 then some (s.tick + s.chicory.wall.ticksTo (target * 1000))
  else if target < s.live tb then some s.tick
  else if s.angHolds tb then none
  else if target = s.live tb then some s.tick
  else some (s.tick + (s.ang tb).ticksTo (s.angRate tb) target)

/-- Time passes until a time base reaches a target (R217); none where the clock holds short of it
(R233). -/
def State.reach (tb target : Nat) (s : State) : Option State :=
  match s.reachTick tb target with
  | none => none
  | some t =>
    let u := s.waitUntil t
    if tb = 4 || target ≤ u.live tb then some u else none

end Sys2Proof.Machine
end

