-- ==== Sys2Proof/Machine/Effects.lean ====
section
/-!
DEFINITION. The shared effects of the device side: targets of a schedule (R212), halting, closing
and pausing channels (R182, R191, R199 to R204), what ends on a port when its bus, its power or its
contract ends (R146 to R148, R182, R310, R319, R329, R363), and the safety set (R53).
-/

namespace Sys2Proof.Machine

/-! ### Targets -/

/-- The first target angle at or after an angle within one cycle (R212). -/
def SchedSpec.angleFrom (p : SchedSpec) (ang : Nat) : Option Nat :=
  if p.pattern = 1 then (p.angles.take p.count).find? fun a => ang ≤ a
  else if ang ≤ p.start then some p.start
  else if p.step = 0 then none
  else
    let i := (ang - p.start + p.step - 1) / p.step
    if i < p.count then some (p.start + i * p.step) else none

/-- The first target at or after a position of the schedule's time base (R212). -/
def SchedSpec.nextFrom (p : SchedSpec) (pos : Nat) : Nat :=
  if p.tb = 4 then
    let per := max p.period 1
    pos + (p.offset + per - pos % per) % per
  else
    let cyc := pos / 65536
    let div := max p.div 1
    let first := (p.angleFrom 0).getD 0
    let d := (p.cphase + div - cyc % div) % div
    if d = 0 then
      match p.angleFrom (pos % 65536) with
      | some a => cyc * 65536 + a
      | none => (cyc + div) * 65536 + first
    else (cyc + d) * 65536 + first

/-! ### The safety set -/

/-- The safety set is valid (R53). -/
def State.safetyValid (s : State) : Bool :=
  s.flag 0x314 0 && s.hrs.lock0.getLsbD 0 && s.fld 0x30C 2 0 ≤ 5 && s.fld 0x310 7 0 != 0

/-- A safety port: one that `SAFE_GROUP` and `MASK` name (R53). -/
def State.isSafetyPort (s : State) (p : Nat) : Bool :=
  p / 8 == s.fld 0x30C 2 0 && bit (s.fld 0x310 7 0) (p % 8)

/-- A port of the safety set, while it is valid. -/
def State.safetyPort (s : State) (p : Nat) : Bool := s.safetyValid && s.isSafetyPort p

/-- The safety group, while the safety set is valid. -/
def State.safetyGroup (s : State) (g : Nat) : Bool := s.safetyValid && g == s.fld 0x30C 2 0

/-- The group engine is held in reset in the sense of R152. -/
def State.engineHeld (s : State) (g : Nat) : Bool := (s.group g).engine == 2 || (s.group g).engine == 3

/-! ### Channels -/

/-- Open channels on a device (kinds 1 to 5). -/
def State.devSlots (s : State) (id : Nat) : List Nat :=
  (s.chans.filter fun e => e.2.st != 5 && 1 ≤ e.2.kind && e.2.kind ≤ 5 && e.2.dev == id).map (·.1)

/-- Open channels on the devices of a port. -/
def State.portSlots (s : State) (p : Nat) : List Nat :=
  (s.chans.filter fun e => e.2.st != 5 && 1 ≤ e.2.kind && e.2.kind ≤ 5 && e.2.port == p).map (·.1)

/-- A loop test on the port ends early (R509): 1 detach or disconnect, 2 trip or surge, 3 a channel
becoming `ACTIVE`. Its counts come with `LOOP_DONE`. -/
def loopStop (p why : Nat) (s : State) : State :=
  if s.test.loopPort == some p && s.test.loopEnd == 0 then { s with test.loopEnd := why } else s

/-- No channel of a port may become `ACTIVE` (R163): it is suspended, or its resume has not completed. -/
def State.portHeld (s : State) (p : Nat) : Bool :=
  (s.port p).usb.st == 9 || (s.port p).usb.resuming != 0

/-- A channel becomes `ACTIVE` and is served from its next target from now on (R191, R199); on a
suspended port it waits as `OPENING` for the resume to complete (R163). -/
def activate (slot : Nat) (s : State) : State :=
  let held := s.portHeld (s.chan slot).port
  let s := if held then s else loopStop (s.chan slot).port 3 s
  s.modChan slot fun c => { c with
    st := if held then 0 else 1, cause := 0, byStop := false, pausing := false, due := []
    next := if c.periodic then c.sched.nextFrom (s.live c.sched.tb) else c.next }

/-- The channels without targets that waited for a port's resume become `ACTIVE` (R163); those with
targets do so at their next one. -/
def activateHeld (p : Nat) (s : State) : State :=
  (s.portSlots p).foldl (fun s n =>
    if (s.chan n).st == 0 && !(s.chan n).periodic && !(s.chan n).byTxn then activate n s else s) s

/-- A channel halts (R191, R192): a new cause replaces the earlier one, the same cause does
nothing, and a `CLOSING` or `CLOSED` channel does not halt. -/
def haltChan (slot cause : Nat) (s : State) : State :=
  let c := s.chan slot
  if c.st ≤ 2 || (c.st == 3 && c.cause != cause) then
    groupEvent c.grp 6 (le 4 (s.handle slot) ++ [byte cause])
      (s.setChan slot { c with st := 3, cause := cause, due := [], pausing := false })
  else s

/-- A `GONE` entry with no channel left is freed (R182). -/
def freeIfIdle (id : Nat) (s : State) : State :=
  if (s.dev id).used && (s.dev id).gone && (s.devSlots id).isEmpty then
    let s := s.setDev id {}
    { s with sched.freedIds := s.sched.freedIds ++ [id] }
  else s

/-- A channel becomes `CLOSED`: its buffers and slot are released, the poison of their pages with them
(R406), and a slot at generation 16,383 is quarantined (R189, R200). -/
def closeSlot (slot : Nat) (s : State) : State :=
  let c := s.chan slot
  let s := unpoison c (s.setChan slot { gen := c.gen })
  let s := if c.gen == 16383 then
      let q := addSorted slot s.sched.quarantined
      groupEvent c.grp 9 (le 2 slot ++ le 2 q.length) { s with sched.quarantined := q }
    else { s with sched.freed := s.sched.freed ++ [slot] }
  if 1 ≤ c.kind && c.kind ≤ 5 then freeIfIdle c.dev s else s

/-- The record of a closing channel has committed without `STREAM`: the handle is stale (R200). -/
def settleLast (slot : Nat) (s : State) : State :=
  let c := s.chan slot
  match c.lastRec with
  | some r => if c.st == 4 && r.last && !c.stream && c.built.isEmpty then closeSlot slot s else s
  | none => s

/-- The `LAST` record, after every other record of the channel (R200). -/
def emitLast (slot : Nat) (s : State) : State :=
  let c := s.chan slot
  let r : Rec := { last := true, time32 := s.time32, angle := s.angStamp (if c.periodic then c.sched.tb else 4),
                   holdover := c.periodic && s.holdover c.sched.tb }
  let s := s.setChan slot { c with closing := false }
  if c.built.isEmpty then settleLast slot (commitRec slot r 0 s)
  else s.modChan slot fun c => { c with built := c.built ++ [r] }

/-- Discard every undelivered record of a channel but one partly on the transport (R201), and free
its space; the number discarded. -/
def discardRecords (slot : Nat) (s : State) : Nat × State :=
  let h := s.handle slot
  let started := match s.cci.ring with
    | (r, b) :: _ => if r.handle == h && b.length < r.size then some r.seq else none
    | [] => none
  let gone (e : JEnt) : Bool := e.rcd.handle == h && !e.delivered && started != some e.rcd.seq
  let n := (s.journal.area.filter gone).length
  let area := s.journal.area.map fun e => if e.rcd.handle == h then { e with acked := true } else e
  let ring := s.cci.ring.filter fun e => e.1.handle != h || started == some e.1.seq
  let s := { s with journal := Journal.trim { s.journal with area := area.filter fun e => !gone e }
                    cci.ring := ring
                    cci.resend := s.cci.resend.filter fun r => r.handle != h }
  (n, s.rqLevel)

/-- `chan.close` with `ABORT` completes: discard, answer, close (R201). -/
def finishAbort (slot : Nat) (s : State) : State :=
  let (n, s) := discardRecords slot s
  let s := closeSlot slot s
  completeWhere (fun w => w == .closed slot) .ok (le 4 n) s

/-- Pauses whose channels have all stopped complete (R199). -/
def settlePauses (s : State) : State :=
  (List.range 8).foldl (fun s n =>
    match (s.mb n).state, (s.mb n).phase with
    | .posted, .waiting (.paused slots res) =>
      if slots.any fun k => (s.chan k).pausing then s else completeMb n .ok res s
    | _, _ => s) s

/-- The transaction on the wire of a channel has ended: a pause or a close that waited goes on
(R199, R200, R201), the close not before a control request the channel holds has ended too (R204). -/
def afterWire (slot : Nat) (s : State) : State :=
  let c := s.chan slot
  let s := if c.pausing then
      s.setChan slot { c with pausing := false, st := if c.st ≤ 1 then 2 else c.st, due := [] }
    else s
  let s := if c.st == 4 && c.abortClose then finishAbort slot s
    else if c.st == 4 && c.closing && c.ctrl.isNone then emitLast slot s else s
  settlePauses s

/-- A proxied control request ends with `CTRL_ABORTED` and a reason (R204); a close that
waited for it goes on. -/
def ctrlEnd (slot reason : Nat) (s : State) : State :=
  let c := s.chan slot
  match c.ctrl with
  | none => s
  | some r => if r.phase == 2 && reason != 4 then s else afterWire slot (completeWhere (fun w => w == .ctrl slot) .ctrlAborted
      [0, byte reason, 0, 0, 0, 0] (s.setChan slot { c with ctrl := none }))

/-- The transaction on a port's bus. -/
def State.onWire (s : State) (p : Nat) : Option OnWire := Tbl.getD none s.sched.wire p
def State.setWire (s : State) (p : Nat) (w : Option OnWire) : State :=
  { s with sched.wire := Tbl.setD none s.sched.wire p w }

/-! ### Devices -/

/-- The domain device ID (R180). -/
def State.devId (s : State) (id : Nat) : Nat := s.domain.chipNum * 256 + id

/-- A device is gone (R182): its channels halt, its control requests end, its entry is freed or
stays `GONE`, and the group's event tells. -/
def devGone (id reason : Nat) (s : State) : State :=
  let d := s.dev id
  if d.used && !d.gone then
    let slots := s.devSlots id
    let s := slots.foldl (fun s n => haltChan n 3 (ctrlEnd n 3 s)) (s.setDev id { d with gone := true })
    groupEvent (d.port / 8) 2 (le 2 (s.devId id) ++ [byte d.port, byte reason]) (freeIfIdle id s)
  else s

/-- Entries of the device table on a port. -/
def State.portDevs (s : State) (p : Nat) : List Nat :=
  (s.devices.filter fun e => e.2.used && e.2.port == p).map (·.1)

/-- Every device on a port is gone (R182). -/
def portGone (p reason : Nat) (s : State) : State :=
  (s.portDevs p).foldl (fun s id => devGone id reason s) s

/-- The path of a device behind external hubs (R177): the tier-1 hub port × 256 + the tier-2 hub port. -/
def Device.path (d : Device) : Nat := d.desc.hub1 * 256 + d.desc.hub2

/-- A path lies at or behind the place that two hub ports name, 0 for none. -/
def onPath (hub1 hub2 path : Nat) : Bool :=
  (hub1 == 0 || path / 256 == hub1) && (hub2 == 0 || path % 256 == hub2)

/-- A reset in front of devices, or a hub port's end, takes their addresses (R174, R184). -/
def forgetAddrs (p hub1 hub2 : Nat) (s : State) : State :=
  let s := { s with devices := s.devices.map fun (e : Nat × Device) =>
    if e.2.used && e.2.port == p && onPath hub1 hub2 e.2.path then
      (e.1, { e.2 with addr := 0, unaddr := true }) else e }
  s.modUsb p fun u => { u with heldAddrs := u.heldAddrs.filter fun e => !onPath hub1 hub2 e.1 }

/-- An external hub's port disconnects or trips (R181, R182): every device behind it is gone, reason 6. -/
def hubPortLost (p hub1 hub2 : Nat) (s : State) : State :=
  let ids := (s.portDevs p).filter fun id => onPath hub1 hub2 (s.dev id).path
  let s := s.modUsb p fun u => { u with
    enumTries := u.enumTries.filter fun (e : Nat × Nat) => !onPath hub1 hub2 e.1
    heldAddrs := u.heldAddrs.filter fun e => !onPath hub1 hub2 e.1
    hubOff := u.hubOff.filter fun k => !onPath hub1 hub2 k }
  ids.foldl (fun s id => devGone id 6 s) s

/-! ### Ports -/

/-- A port that leaves `COOLDOWN`, `LATCHED_OFF` or `STUCK_ON` clears its over-current, and the
hub's when no transparent port remains in those states (R157). -/
def overClear (p : Nat) (s : State) : State :=
    let s := s.modUsb p fun u => { u with overCurrent := false }
    if s.ports.any fun e => e.2.usb.transparent && 2 ≤ e.2.usb.st && e.2.usb.st ≤ 4 then s
    else { s with hub.hubOver := false }

/-- A change of a port's state posts its event with code 0x01 (R146); `CAUSE` belongs to the last
entry to `OFF` or `ERROR` (R172). -/
def setPortState (p st cause : Nat) (s : State) : State :=
  let u := (s.port p).usb
  if u.st == st then s
  else
    let c := if st == 0 || st == 10 then cause else u.cause
    let s := s.modUsb p fun u => { u with st := st, cause := c }
    let s := if 2 ≤ u.st && u.st ≤ 4 && !(2 ≤ st && st ≤ 4) then overClear p s else s
    raiseEvent p 1 [byte u.st, byte st, byte c] s

/-- Hub-class change bits of a transparent port (R154): 1 connection, 2 enable, 4 suspend, 8
over-current, 16 reset. -/
def hubChange (p mask : Nat) (s : State) : State :=
  if (s.port p).usb.transparent then s.modUsb p fun u => { u with changes := u.changes ||| mask } else s

/-- A port's devices leave the device table at once (R150, R182): channels on them halt. -/
def dropDevices (p : Nat) (s : State) : State :=
  let ids := s.portDevs p
  let s := portGone p 3 s
  ids.foldl (fun s id =>
    if (s.dev id).used then
      { s.setDev id {} with sched.freedIds := s.sched.freedIds ++ [id] }
    else s) s

/-- The commands that wait for a reset, a suspend or a resume of a port which ends otherwise (R147, R165). -/
def stepsOver (p : Nat) (s : State) : State :=
  let s := completeWhere (fun w => w == .portReset p || w == .portSuspend p) .wrongState [] s
  completeWhere (fun w => w == .portResume p) .ok [3] s

/-- The change to TRANSPARENT of R150. Port power and the contract stay. -/
def toTransparent (p : Nat) (s : State) : State :=
  let s := dropDevices p (stepsOver p s)
  let s := s.modUsb p fun u => { u with
    transparent := true, resetting := none, resuming := 0, remoteWake := false, selSusp := false
    debounce := none, enumerated := false, overCurrent := false, babbleAt := none, babbleReset := none }
  let s := if (s.port p).usb.pull != 0 && 6 ≤ (s.port p).usb.st then hubChange p 1 (setPortState p 7 0 s) else s
  raiseEvent p 4 [1] s

/-- USB on a port is over: steps under way are abandoned, and a transparent port reports the change. -/
def usbOver (p : Nat) (s : State) : State :=
  let s := stepsOver p (if 7 ≤ (s.port p).usb.st then hubChange p 1 s else s)
  s.modUsb p fun u => { u with
    speed := 0, debounce := none, resetting := none, resuming := 0, remoteWake := false
    surgeAt := none, babbleAt := none, babbleReset := none, enumerated := false, testSel := 0
    enumTries := [], heldAddrs := [], hubOff := [], sofPend := false, reportOnConfig := false }

/-- A front end stops (R172): the port behaves as if no pull-up were present. -/
def frontStop (p : Nat) (s : State) : State :=
  let s := s.modUsb p fun u => { u with running := false, stopping := false }
  let s := if 7 ≤ (s.port p).usb.st then setPortState p 6 0 (portGone p 1 (usbOver p s)) else s
  s.modUsb p fun u => { u with pull := 0, debounce := none }

/-- Ticks from one start of (micro)frame to the next (R219). -/
def PortUsb.sofTicks (u : PortUsb) : Nat := if u.speed == 3 then 12500 else 100000

/-- The SOF of a port's bus goes out (R219): the frames that have begun since the last one have counted, and the
period stays exact. -/
def sofNow (p : Nat) (s : State) : State :=
  s.modUsb p fun u =>
    let n := (s.tick - u.sofAt) / u.sofTicks
    { u with sofs := (u.sofs + n) % (if u.speed == 3 then 16384 else 2048)
             sofAt := u.sofAt + n * u.sofTicks, sofPend := false }

/-- What waited for the transaction on a port's bus goes on (R150, R162, R172), an SOF first (R219). -/
def afterBus (p : Nat) (s : State) : State :=
  let s := if (s.port p).usb.sofPend then sofNow p s else s
  let s := if waitsFor (fun w => w == .portSuspend p) s then
      completeWhere (fun w => w == .portSuspend p) .ok [] (setPortState p 9 0 s)
    else s
  let s := if waitsFor (fun w => w == .portMode p) s then
      completeWhere (fun w => w == .portMode p) .ok [] (toTransparent p s)
    else s
  if (s.port p).usb.stopping then frontStop p s else s

/-- A port's bus stops: the transaction on it, if any, is over; the target it served yields a `MISSED`
record (R19, R221). -/
def wireDrop (p : Nat) (s : State) : State :=
  match s.onWire p with
  | none => s
  | some w =>
    let s := s.setWire p none
    afterBus p (if w.slot < 4096 then
      afterWire w.slot (if (s.chan w.slot).periodic && (s.chan w.slot).st == 1 then missRec w.slot 3 w.stamp s else s)
    else s)

/-- The SBU multiplexer goes to `OPEN` (R363) and a mode held is left, with its event and reason;
a mode command that waits ends `WRONG_STATE` (R364). -/
def sbuOpen (p reason : Nat) (s : State) : State :=
  let d := (s.port p).pd
  let s := s.modPd p fun d => { d with sbu := 0, mode := 0, entering := 0, enterTries := 0, nextMode := 0 }
  let s := completeWhere (fun w => w == .altMode p) .wrongState [] s
  if d.mode != 0 then raiseEvent p 0x25 [byte d.mode, 0, byte reason] s else s

/-- Fast role swap stops being enabled (R357). -/
def frsOff (p : Nat) (s : State) : State :=
  if (s.port p).pd.frsEnabled then
    raiseEvent p 0x26 [0] (s.modPd p fun d => { d with frsEnabled := false })
  else s

/-- The contract and the PD step end (R319, R350). Settings, the attach's counts and the moisture
state stay. -/
def pdEnd (p : Nat) (s : State) : State :=
  let s := completeWhere (fun w => w == .pdSwap p) .wrongState [] (frsOff p s)
  s.modPd p fun d => { d with
    contract := 0, pos := 0, rev := 3, sink := false, mv := 0, mA := 0, done := false, sends := 0
    offer1 := 0, offer2 := 0, await := 0, atomic := false, capMismatch := false, newPos := 0
    newMv := 0, newMa := 0, frsPartner := false, frsDone := false, swapping := false
    vdo1 := none, vdo2 := none, explicitAt := 0, reoffer := false, discover := false
    wantSink := false, surgeSoft := false }

/-- The USB side of a port ends with its connection (R147, R148): what ran is not completed, and
commands that waited for it are answered (R165, R289). -/
def usbEnd (p why : Nat) (s : State) : State :=
  let s := completeWhere (fun w => w == .portSuspend p) .wrongState [] s
  usbOver p (loopStop p why (wireDrop p s))

/-- Both gates are off (R310, R316): no path, no power-good, accumulators cleared, VO discharged, no
booking. -/
def gatesOff (p : Nat) (s : State) : State :=
  s.modPw p fun w => { w with
    path := 0, toward := 0, pgood := false, limiting := false, acc := [], mA := 0, voMv := 0
    goodSince := none, booked := none }

/-- The grant is released (R329). -/
def releaseGrant (p : Nat) (s : State) : State :=
  s.modPw p fun w => { w with grant := 0, grantRail := 1, waiting := none }

/-- A port loses its power and enters a state (R146, R182, R329, R363); `reason` is that of the
device events, `keep` keeps the grant. -/
def powerOff (p st cause reason : Nat) (keep : Bool) (s : State) : State :=
  let s := usbEnd p (if reason = 1 then 1 else 2) s
  let s := s.modUsb p fun u => { u with pull := 0 }
  let s := sbuOpen p 2 (pdEnd p (gatesOff p s))
  let s := if keep then s else releaseGrant p s
  setPortState p st cause (portGone p reason s)

/-- Register base of a port's fusing registers (R338). -/
def fuseBase (p : Nat) : Nat := 0x3000 + 0x40 * p

/-- Over-current is reported for a transparent port (R157). -/
def overCurrent (p : Nat) (s : State) : State :=
  if !(s.port p).usb.transparent then s
  else if s.hub.ocActive then
    { s with hub.hubOver := true, hub.hubOverChange := true }
  else hubChange p 8 (s.modUsb p fun u => { u with overCurrent := true })

/-- Cool-down of the n-th trip in seconds (R320). -/
def coolSeconds (base n : Nat) : Nat := min (base * 2 ^ (n - 1)) 600

/-- A trip but for its count on FS(nn) (R319, R320): gates off, VO discharged, contract ended,
grant released, ladder advanced, `TRIP` set, event 0x10, and `COOLDOWN` or `LATCHED_OFF`; without CC
attached the port enters `OFF` while the timer or the latch stands. -/
def tripCore (p cause mA : Nat) (s : State) : State :=
  let n := satInc (s.port p).pw.ladder 15
  let l := s.fld (fuseBase p + 4) 27 24
  let cool := if n < l then coolSeconds (s.fld (fuseBase p + 8) 9 0) n else 0
  let st := if !(s.port p).usb.ccAtt then 0 else if n < l then 2 else 3
  let keep := s.warden.mode && s.safetyPort p
  let s := powerOff p st 1 2 keep (s.setFlag (fuseBase p) 11)
  let s := s.modPw p fun w => { w with
    ladder := n, tripCause := cause
    latch := if n < l then w.latch else 1
    coolUntil := if n < l then some (s.tick + ticksS cool) else none }
  overCurrent p (raiseEvent p 0x10
    ([byte cause, byte n] ++ le 2 mA ++ [byte st] ++ le 2 cool) s)

/-- A master gate and every gate of its group go off (R328); each port with power, or waiting for
it, enters `OFF` with a cause. `spare` names ports left alone. -/
def groupGatesOff (g cause : Nat) (spare : Nat → Bool) (s : State) : State :=
  (List.range 8).foldl (fun s i =>
    let p := 8 * g + i
    if spare p then s
    else
      let s := if (s.port p).usb.st == 3 || (s.port p).usb.st == 4 then gatesOff p s
        else powerOff p 0 cause 2 false s
      s.modPw p fun w => { w with groupOff := true, waiting := none, booked := none }) s

/-- The master gate of a group, off and on. -/
def gmgOff (g : Nat) (s : State) : State :=
  { s with clover.gmgOn := s.clover.gmgOn.filter (· != g) }
def gmgOn (g : Nat) (s : State) : State :=
  { s with clover.gmgOn := addSorted g s.clover.gmgOn }

/-- A request for a grant (R330): the port waits from now on, unless it waits already. -/
def askGrant (p : Nat) (s : State) : State :=
  match (s.port p).pw.waiting with
  | some _ => s
  | none =>
    let s := s.modPw p fun w => { w with waiting := some s.clover.nextReq }
    { s with clover.nextReq := s.clover.nextReq + 1 }

end Sys2Proof.Machine
end

