-- ==== Sys2Proof/Machine/CanOps.lean ====
section
/-!
DEFINITION. The shared operations of the CAN controllers: how a TX buffer ends (R384), what a
disable does at once (R388), the change of a controller's state (R386), and the identifier word of a
record (R379).
-/

namespace Sys2Proof.Machine

/-- Register base of a controller (R393). -/
def canBase (c : Nat) : Nat := 0x4000 + 0x800 * c

/-- The `ID` word of a `CAN_RX` record and of the TX events (R379, R392). -/
def canIdWord (f : CanFrame) : Nat :=
  f.id + (if f.ext then 2 ^ 29 else 0) + (if f.rtr then 2 ^ 30 else 0) + (if f.fd then 2 ^ 31 else 0)

def CanCtl.buf (x : CanCtl) (b : Nat) : TxBuf := Tbl.getD {} x.bufs b
def CanCtl.setBuf (x : CanCtl) (b : Nat) (t : TxBuf) : CanCtl :=
  { x with bufs := Tbl.setD {} x.bufs b t }

/-- Buffers in a state of a list, as a mask. -/
def CanCtl.mask (x : CanCtl) (sts : List Nat) : Nat :=
  maskOf ((x.bufs.filter fun e => sts.contains e.2.st).map (·.1))

/-- The buffer on the bus. -/
def CanCtl.onBus (x : CanCtl) : Option Nat := (x.bufs.find? fun e => e.2.st == 4).map (·.1)

/-- A buffer finishes (R384): it becomes empty, its outcome (1 `SENT`, 2 `FAILED`, 3 `ABORTED`)
stands in `TXOUT`, and a failure or an abort posts code 0x02 with its reason. -/
def txEnd (c b outcome reason : Nat) (s : State) : State :=
  let x := s.can c
  let f := (x.buf b).frame
  let s := s.setCan c { x.setBuf b {} with outs := Tbl.setD 0 x.outs b outcome
                                           txcnt := x.txcnt + b2n (outcome == 1) }
  if outcome == 1 then s
  else raiseEvent (58 + c) 2 ([byte b, byte outcome, byte reason, 0] ++ le 4 (canIdWord f)) s

/-- A frame on the bus finishes; its buffer then ends for this reason (R388, R390). -/
def CanCtl.stopOnBus (x : CanCtl) (reason : Nat) : CanCtl :=
  match x.onBus with
  | some b => x.setBuf b { x.buf b with stop := reason }
  | none => x

/-- `CANx_STB` (R369, R391): high while the controller is disabled, and in the safe state. -/
def State.canStandby (s : State) (c : Nat) : Bool := s.warden.safe || !(s.can c).running

/-- Every pending, armed and held buffer named by a mask returns `ABORTED` with a reason. -/
def abortBufs (c mask reason : Nat) (s : State) : State :=
  (bitList 32 (mask &&& (s.can c).mask [1, 2, 3])).foldl (fun s b => txEnd c b 3 reason s) s

/-- A controller changes state (R386): event code 0x01 with the counters. -/
def canState (c st : Nat) (s : State) : State :=
  let x := s.can c
  if x.st == st then s
  else raiseEvent (58 + c) 1 [byte x.st, byte st, byte (min x.tec 255), byte (min x.rxErr 255)]
    (s.setCan c { x with st := st })

/-- `EN_STAT` has fallen and `CANx_STB` rises (R388); a waiting `can.enable` is answered. -/
def canStopped (c : Nat) (s : State) : State :=
  let s := canState c 0 s
  let s := s.setCan c { s.can c with running := false, stopping := false, recovering := false }
  (List.range 8).foldl (fun s n =>
    match (s.mb n).state, (s.mb n).phase with
    | .posted, .waiting (.canDisable k mask) => if k == c then completeMb n .ok (le 4 mask) s else s
    | _, _ => s) s

/-- Clearing `ENABLE` (R388): pending, armed and held buffers return `ABORTED` with reason 2 at the
commit (log 38); a frame on the bus finishes and is not retried. `CAN_DISABLE_COMPLETE` ends it. -/
def canDisable (c : Nat) (s : State) : State :=
  let x := s.can c
  if !x.running || x.stopping then s
  else
    let s := abortBufs c 4294967295 2 (s.clrFlag (canBase c) 0)
    s.setCan c { (s.can c).stopOnBus 2 with stopping := true }

/-- `CANA` is Yarrow's (R390): a frame on the bus finishes and is not tried again; event code 0x06. -/
def canYarrow (s : State) : State :=
  raiseEvent 58 6 [1] (s.setCan 0 { (s.can 0).stopOnBus 5 with yarrow := true })

/-- Yarrow takes `CANA` over at warden-mode entry (R390): every buffer but one on the bus returns `ABORTED`
with reason 5. -/
def canTakeOver (s : State) : State := canYarrow (abortBufs 0 4294967295 5 s)

end Sys2Proof.Machine
end

