-- ==== Sys2Proof/Machine/React.lean ====
section
/-!
DEFINITION. Campion's counting and its reactions (R426 to R435), the entry to warden mode (R437,
first step), and the safe state (R448): what every counted fault can bring about in the same step.
-/

namespace Sys2Proof.Machine

/-! ### Sources -/

/-- Threshold, class and window (ms) of a source by the table of R426. -/
def srcDefault (n : Nat) : Nat × Nat × Nat :=
  if n < 48 then (16, 1, 3600000)
  else if n < 54 then (3, 1, 3600000)
  else if n < 56 then (3, 4, 3600000)
  else if n < 59 then (1, 5, 1000)
  else if n < 64 then (1, 1, 1000)
  else if n == 64 || n == 66 || n == 68 then (64, 1, 86400000)
  else if n < 71 then (1, 1, 1000)
  else if n == 71 then (1, 5, 1000)
  else if n < 76 then (1, 1, 1000)
  else if n < 80 then (1, 0, 1000)
  else if n < 86 then (1, 1, 1000)
  else if n < 88 then (1, 0, 1000)
  else if n < 92 then (8, 1, 60000)
  else if n < 94 then (1, 1, 1000)
  else if n < 96 then (1, 5, 1000)
  else if n < 104 then (16, 1, 1000)
  else if n == 104 || n == 106 then (1, 4, 1000)
  else if n == 105 || n == 107 then (1, 1, 1000)
  else (1, 0, 1000)

/-- The sources marked fixed (R426). -/
def srcFixed (n : Nat) : Bool := n == 56 || n == 57 || n == 58 || n == 71 || n == 95

/-- Threshold, class and window in force. -/
def State.srcCfg (s : State) (n : Nat) : Nat × Nat × Nat := ((s.src n).cfg).getD (srcDefault n)

/-- A source this part can raise at all (R426). -/
def State.srcRaised (s : State) (n : Nat) : Bool :=
  !(76 ≤ n && n ≤ 79) && n < 108 &&
    (s.variant == .svh48 || !((16 ≤ n && n ≤ 47) || (50 ≤ n && n ≤ 53) || (100 ≤ n && n ≤ 103)))

/-- Sources masked in warden mode (R435): those of the blocks it holds in reset. -/
def State.srcMasked (s : State) (n : Nat) : Bool :=
  s.warden.mode && (n == 54 || n == 55 || n == 106 ||
    (48 ≤ n && n ≤ 53 && !s.safetyGroup (n - 48)))

/-- The number of the sub-window of W/16 a source stands in (R429), W in ms. -/
def State.subWindow (s : State) (n : Nat) : Nat := s.tick / max ((s.srcCfg n).2.2 * 6250) 1

/-- Events in the present sub-window and the 15 before it (R429). -/
def State.srcCount (s : State) (n : Nat) : Nat :=
  (s.src n).subs.foldl (fun k e => if s.subWindow n < e.1 + 16 then k + e.2 else k) 0

/-- One more event in the present sub-window; sub-windows out of the window leave. -/
def bumpSub (w : Nat) (l : List (Nat × Nat)) : List (Nat × Nat) :=
  match l.filter fun e => w < e.1 + 16 with
  | (i, k) :: t => if i == w then (i, k + 1) :: t else (w, 1) :: (i, k) :: t
  | [] => [(w, 1)]

/-- The state of a source (R430): a `COUNTING` source whose count is 0 is `CLEAR`, after a `LOG` or `EVENT` reaction
once the sub-window of the reaction is over (DEDUCED, log 16). -/
def State.srcState (s : State) (n : Nat) : Nat :=
  let f := s.src n
  if f.st == 1 && s.srcCount n == 0 && !(f.subs.any fun e => e.1 == s.subWindow n) then 0 else f.st

/-- The sampled pair (R427): a force overrides the wires (R428). -/
def FaultSrc.input (f : FaultSrc) : Nat := if f.forced == 2 then 0 else if f.forced == 3 then 3 else f.pair

/-- A source's cause is present (R427): its pair does not read 0b01. -/
def FaultSrc.present (f : FaultSrc) : Bool := f.input != 1

/-- The group a source belongs to (R432). -/
def srcGroup (n : Nat) : Nat := if n < 48 then n / 8 else n - 48

/-! ### Reactions -/

/-- Record a reaction in `CAMP_LAST` (R431). -/
def lastReaction (n cls : Nat) (s : State) : State :=
  { s with campion.lastSrc := n, campion.lastClass := cls, campion.lastTime := s.time32 }

/-- `PORT_SAFE` (R431): both gates off, SBU `OPEN`, data lines idle, `LATCHED_OFF` without a ladder
count. -/
def portSafe (p : Nat) (s : State) : State :=
  (powerOff p 3 0 2 false s).modPw p fun w => { w with latch := 1, safeLatch := true }

/-- `GROUP_SAFE` (R328, R431): the master gate and every gate of the group. -/
def groupSafe (g : Nat) (s : State) : State :=
  groupGatesOff g 3 (fun _ => false) ((gmgOff g s).setFlag 0x3C00 (16 + g))

/-- The wall times of safe states kept for R450: those of the last 24 h, the newest 3. -/
def safeTimesWith (now : Nat) (l : List Nat) : List Nat :=
  (now :: l.filter fun t => now - t ≤ 86400000000000 && t ≤ now).take 3

/-- The safe state (R448, R450, R27, R391): outputs to their safe values, every core in reset, the
journal sealed with its `SEAL_CSEQ`, and the keeper's record of the cause. -/
def safeState (src : Nat) (s : State) : State :=
  if s.warden.safe then s
  else
    let s := (List.range s.nGroups).foldl (fun s g =>
      if s.safetyGroup g then s else gmgOff g s) s
    let s := (List.range s.nPorts).foldl (fun s p =>
      let s := wireDrop p (sbuOpen p 2 s)
      if s.safetyPort p then s
      else if (s.port p).usb.st == 3 || (s.port p).usb.st == 4 then gatesOff p s
      else powerOff p 0 7 2 false s) s
    let k := s.keeper
    let dead := fun (x : CanCtl) => { x with bufs := x.bufs.filter fun e => e.2.st != 4 }
    { s with
      warden := { s.warden with safe := true, safeAt := s.tick, safePin := true, degraded := true,
                                aliveRun := false }
      keeper := { k with safeSrc := src, safeValid := true,
                         safeTimes := safeTimesWith s.chicory.wall.ns k.safeTimes,
                         holdTimes := safeTimesWith s.chicory.wall.ns k.holdTimes,
                         sealCseq := s.cci.cseqHi, sealValid := true }
      journal.sealed := true
      cci.evqHi := false
      cci.rqHi := false
      cans := s.cans.map fun e => (e.1, dead e.2)
      chicory.phos := []
      chicory.psyncs := []
      groups := (List.range s.nGroups).foldl (fun t g =>
        Tbl.setD {} t g { (Tbl.getD {} t g) with engine := 4 }) s.groups
      mgmtDown := none }

/-- Warden mode begins (R437): the management pair and every group engine but the safety group's are held,
`DEGRADED_N` is asserted, step 0 of the armed script falls due 1 ms later. A logic BIST under way is
abandoned and leaves its engine held (R510); an engine that is held already stays so. -/
def wardenHold (cause : Nat) (s : State) : State :=
  { s with
    warden := { s.warden with
      mode := true, cause := cause, entryTime := s.time32, cleanup := true, degraded := true
      run := 0, stepIdx := 0, started := false, startAt := s.tick + ticksMs 1, frames := [] }
    mgmtDown := none
    test := if s.test.bist == 1 then { s.test with bist := 0, bistResult := 2, bistSig := 0 } else s.test
    groups := (List.range s.nGroups).foldl (fun t k =>
      let x : Group := Tbl.getD {} t k
      if k == s.fld 0x30C 2 0 || x.engine == 2 || x.engine == 3 then t
      else Tbl.setD {} t k { x with engine := if s.test.bist == 1 && s.test.bistOf == k then 3 else 4 }) s.groups }

/-- The groups and ports outside the safety set lose power with cause 7 (R437). -/
def wardenCut (s : State) : State :=
  (List.range s.nGroups).foldl (fun s k =>
    if k == s.fld 0x30C 2 0 then groupGatesOff k 7 (fun p => s.safetyPort p) s
    else groupGatesOff k 7 (fun _ => false) (gmgOff k s)) s

/-- Step 1 of R437; Yarrow takes `CANA` (R390). `WARDEN_CLEANUP` follows within 5 ms. -/
def wardenStart (cause : Nat) (s : State) : State := canTakeOver (wardenCut (wardenHold cause s))

/-- An escalation to warden mode, or to the safe state while the safety set is not valid (R53). -/
def wardenEnter (cause : Nat) (s : State) : State :=
  if s.safetyValid then wardenStart cause s else safeState cause s

/-- The class a reaction is carried out as (R433, R435): downgraded to `EVENT` on what the safety
set protects; in warden mode `WARDEN_MODE` becomes `SAFE_STATE` for the sources R435 names and an
event alone (6) for the rest. -/
def State.effClass (s : State) (n cls : Nat) : Nat :=
  if cls == 2 && s.safetyPort n then 1
  else if cls == 3 && s.safetyGroup (srcGroup n) then 1
  else if cls == 4 && s.warden.mode then
    if n == 56 || n == 57 || n == 104 || (48 ≤ n && n ≤ 53 && s.safetyGroup (n - 48)) then 5 else 6
  else cls

/-- A source reacts (R430, R431, R433): its class's action once, its own state, `CAMP_LAST`. -/
def react (n : Nat) (s : State) : State :=
  let f := s.src n
  let cls := (s.srcCfg n).2.1
  let eff := s.effClass n cls
  let k := s.srcCount n
  let s := lastReaction n cls s
  if eff ≤ 1 then
    let s := s.setSrc n { f with st := 1, subs := [(s.subWindow n, 0)],
                                 downgraded := f.downgraded || (2 ≤ cls) }
    let s := if eff == 1 then raiseEvent 80 1 [byte n, byte (min k 255)] s else s
    if 2 ≤ cls then raiseEvent 80 5 [byte n, byte cls] s else s
  else
    let s := s.setSrc n { f with st := if f.present then 3 else 2, reactedAs := eff }
    let ev := raiseEvent 80 2 [byte n, byte cls, byte (b2n f.present)]
    if eff == 2 then portSafe n (ev s)
    else if eff == 3 then groupSafe (srcGroup n) (ev s)
    else if eff == 4 then wardenEnter n s
    else if eff == 5 then safeState n s
    else ev s

/-- One event on a source (R429, R430): counted in its window and its total, and a reaction when
the count reaches N. `hold` is what the pair reads afterwards. -/
def countEvent (n hold : Nat) (s : State) : State :=
  if !s.srcRaised n || s.srcMasked n then s
  else
    let f := s.src n
    let f := { f with subs := bumpSub (s.subWindow n) f.subs, total := (f.total + 1) % 4294967296, pair := hold }
    if f.st == 2 || f.st == 3 then
      s.setSrc n { f with st := if f.present then 3 else 2 }
    else
      let s := s.setSrc n { f with st := 1 }
      if (s.srcCfg n).1 ≤ s.srcCount n then react n s else s

/-- A pulse on a source (R427): an event unless the pair already stands at fault. -/
def faultPulse (n : Nat) (s : State) : State :=
  if n == 58 then safeState 58 (lastReaction 58 5 s)
  else if (s.src n).input != 1 then s else countEvent n 1 s

/-- A source's input comes to stand at fault (R426, R427). -/
def faultHold (n : Nat) (s : State) : State :=
  if (s.src n).pair == 2 then s
  else if (s.src n).input != 1 then s.setSrc n { s.src n with pair := 2 }
  else countEvent n 2 s

/-- A source's cause goes (R430): `CAUSE_PRESENT` falls to `REACTED`. -/
def faultGone (n : Nat) (s : State) : State :=
  let f := s.src n
  s.setSrc n { f with pair := 1, st := if f.st == 3 && (f.forced == 0) then 2 else f.st }

/-- The input of FS(nn) follows the port's latches (R426): at fault while the port is `LATCHED_OFF`
or `STUCK_ON` by its own hardware. -/
def portInput (p : Nat) (s : State) : State :=
  let st := (s.port p).usb.st
  if (st == 3 || st == 4) && !(s.port p).pw.safeLatch then s
  else if (s.src p).pair == 2 then faultGone p s else s

/-- A trip (R319): one event on FS(nn), held while the port stays latched. -/
def trip (p cause mA : Nat) (s : State) : State :=
  let s := tripCore p cause mA s
  if (s.port p).usb.st == 3 then faultHold p s else faultPulse p s

end Sys2Proof.Machine
end

