-- ==== Sys2Proof/Machine/Can.lean ====
section
/-!
DEFINITION. The meanings of the `can.*` commands (R371 to R388, R295) and of what happens on a CAN bus
(R375 to R391).
-/

namespace Sys2Proof.Machine

/-! ### Timing -/

/-- Nominal and data timing: prescaler, TSEG1, TSEG2, SJW of each. -/
structure CanTiming where
  np : Nat := 2
  n1 : Nat := 63
  n2 : Nat := 16
  nj : Nat := 16
  dp : Nat := 1
  d1 : Nat := 29
  d2 : Nat := 10
  dj : Nat := 10

/-- The timing in bytes 2 to 11 of `can.config` (R295). -/
def timingOf (b : List Byte) : CanTiming :=
  { np := u16 b 0, n1 := u16 b 2, n2 := u8 b 4, nj := u8 b 5, dp := u8 b 6, d1 := u8 b 7, d2 := u8 b 8, dj := u8 b 9 }

/-- Cycles of the 80 MHz clock in a nominal and in a data bit (R370). -/
def CanTiming.nBit (t : CanTiming) : Nat := t.np * (1 + t.n1 + t.n2)
def CanTiming.dBit (t : CanTiming) : Nat := t.dp * (1 + t.d1 + t.d2)

/-- The parameter ranges of R295; the data fields only where FD frames are on (R371). -/
def CanTiming.inRange (t : CanTiming) (fd : Bool) : Bool :=
  1 ≤ t.np && t.np ≤ 1024 && 2 ≤ t.n1 && t.n1 ≤ 256 && 2 ≤ t.n2 && t.n2 ≤ 128 && 1 ≤ t.nj && t.nj ≤ 128 &&
    (!fd || (1 ≤ t.dp && t.dp ≤ 32 && 1 ≤ t.d1 && t.d1 ≤ 32 && 1 ≤ t.d2 && t.d2 ≤ 16 && 1 ≤ t.dj && t.dj ≤ 16))

/-- The timing tests of R371: rates, quanta per bit, SJW. -/
def CanTiming.ok (t : CanTiming) (fd : Bool) : Bool :=
  80 ≤ t.nBit && t.nBit ≤ 8000 && 8 ≤ 1 + t.n1 + t.n2 && t.nj ≤ t.n2 &&
    (!fd || (16 ≤ t.dBit && t.dBit ≤ t.nBit && 5 ≤ 1 + t.d1 + t.d2 && t.dj ≤ t.d2))

/-- The timing a controller's registers hold (R393). -/
def State.canTiming (s : State) (c : Nat) : CanTiming :=
  let n := canBase c + 8
  let d := canBase c + 12
  { np := s.fld n 9 0 + 1, n1 := s.fld n 17 10 + 1, n2 := s.fld n 24 18 + 1, nj := s.fld n 31 25 + 1
    dp := s.fld d 4 0 + 1, d1 := s.fld d 12 8 + 1, d2 := s.fld d 19 16 + 1, dj := s.fld d 27 24 + 1 }

/-- Load the timing; the data fields keep what they hold where FD frames are off (R371). -/
def loadTiming (c : Nat) (t : CanTiming) (fd : Bool) (s : State) : State :=
  let s := s.setReg (canBase c + 8)
    ((t.np - 1) % 1024 + (t.n1 - 1) % 256 * 2 ^ 10 + (t.n2 - 1) % 128 * 2 ^ 18 + (t.nj - 1) % 128 * 2 ^ 25)
  if fd then
    s.setReg (canBase c + 12)
      ((t.dp - 1) % 32 + (t.d1 - 1) % 32 * 2 ^ 8 + (t.d2 - 1) % 16 * 2 ^ 16 + (t.dj - 1) % 16 * 2 ^ 24)
  else s

/-- `CANx_MODE` fields. -/
def State.canFd (s : State) (c : Nat) : Bool := s.flag (canBase c + 4) 0
def State.canListen (s : State) (c : Nat) : Bool := s.flag (canBase c + 4) 2

/-- `LK_CANA` covers the controller (R372). -/
def State.canLocked (s : State) (c : Nat) : Bool := c == 0 && s.hrs.lock0.getLsbD 5

/-! ### Commands -/

/-- R295, R371 `can.config`. -/
def coreCanConfig (r : Req) (s : State) : CmdRes :=
  let c := tIndex r.target
  let p := r.params
  let fd := bit (u8 p 0) 0
  let t := timingOf (p.drop 2)
  let tdc := r.e8 12 1
  let off := r.e8 13 30
  if 8 ≤ u8 p 0 || 15 < u8 p 1 || !t.inRange fd || !t.ok fd || 1 < tdc || 127 < off then .refuse .badParam []
  else if s.canLocked c then .refuse .locked []
  else if (s.can c).running || (s.can c).st == 4 then .refuse .wrongState []
  else
    let tb := s.fld (canBase c + 4) 10 8
    let s := s.setReg (canBase c + 4) (u8 p 0 + tdc * 8 + u8 p 1 * 16 + tb * 256 + off * 65536)
    .commit [] (loadTiming c t fd s)

/-- The row of `coreCanConfig`. -/
def execCanConfig (mb : Fin 8) (s : State) : Out := runOp mb 0x0801 coreCanConfig s

/-- Ticks of 10 ns in a number of nominal bits, rounded up (R370). -/
def State.canBits (s : State) (c n : Nat) : Nat := (5 * n * (s.canTiming c).nBit + 3) / 4

/-- The controller is enabled (R369, R386): error-active with both counters 0, `CANx_STB` low; it takes part
50 µs and 11 recessive bits later. -/
def canStart (c : Nat) (s : State) : State :=
  let s := s.setFlag (canBase c) 0
  canState c 1 (s.setCan c { s.can c with running := true, stopping := false, tec := 0, rxErr := 0
                                          joinAt := s.tick + ticksUs 50 + s.canBits c 11 })

/-- R388 `can.enable`. -/
def coreCanEnable (r : Req) (s : State) : CmdRes :=
  let c := tIndex r.target
  let x := s.can c
  if 1 < u8 r.params 0 then .refuse .badParam []
  else if u8 r.params 0 == 1 then
    if x.running && !x.stopping then .commit (le 4 0) s
    else if x.running || x.st == 4 || !(s.canTiming c).ok (s.canFd c) then .refuse .wrongState []
    else .commit (le 4 0) (canStart c s)
  else if x.st == 4 then .refuse .wrongState []
  else if !x.running then .commit (le 4 0) s
  else .commitWait (.canDisable c (x.mask [1, 2, 3])) (canDisable c s)

/-- The row of `coreCanEnable`. -/
def execCanEnable (mb : Fin 8) (s : State) : Out := runOp mb 0x0802 coreCanEnable s

/-- Register base of filter pair `k` (R393). -/
def pairBase (c k : Nat) : Nat := canBase c + 0x100 + 16 * k

/-- R376, R377 `can.filter`. -/
def coreCanFilter (r : Req) (s : State) : CmdRes :=
  let c := tIndex r.target
  let p := r.params
  let b := pairBase c (u8 p 0)
  if 63 < u8 p 0 || 3 < u8 p 1 || 1 < u8 p 2 || 2 ^ 29 ≤ u32 p 4 || 2 ^ 29 ≤ u32 p 8 then .refuse .badParam []
  else if s.canLocked c then .refuse .locked []
  else .commit [] (((s.setReg b (u8 p 1 + 4 * u8 p 2)).setReg (b + 4) (u32 p 4)).setReg (b + 8) (u32 p 8))

/-- The row of `coreCanFilter`. -/
def execCanFilter (mb : Fin 8) (s : State) : Out := runOp mb 0x0803 coreCanFilter s

/-- Data bytes of a data length code (ISO 11898-1). -/
def dlcBytes (fd : Bool) (dlc : Nat) : Nat :=
  if !fd then min dlc 8
  else [0, 1, 2, 3, 4, 5, 6, 7, 8, 12, 16, 20, 24, 32, 48, 64].getD dlc 64

/-- R380 `can.tx`. -/
def coreCanTx (r : Req) (s : State) : CmdRes :=
  let c := tIndex r.target
  let p := r.params
  let b := u8 p 0
  let fl := u8 p 1
  let fd := bit fl 1
  let armed := bit fl 3
  let tb := u8 p 3
  let x := s.can c
  let f : CanFrame := {
    id := u32 p 4, ext := bit fl 0, fd := fd, brs := bit fl 2 && s.flag (canBase c + 4) 1, dlc := u8 p 2
    data := p.drop 16 }
  let ok := b < 32 && fl < 16 && u8 p 2 < 16 && f.id < (if f.ext then 2 ^ 29 else 2 ^ 11) &&
    f.data.length == dlcBytes fd (u8 p 2) && (fd || !bit fl 2) && (!fd || s.canFd c) &&
    (!armed || tb ≤ 4 || tb == 0xFF)
  if !ok then .refuse .badParam []
  else if s.canListen c then .refuse .notPermitted []
  else if !x.running || x.stopping || x.st == 3 then .refuse .wrongState []
  else if (x.buf b).st != 0 then .refuse .busy []
  else
    let t : TxBuf :=
      if !armed then { st := 1, frame := f }
      else if tb == 0xFF then { st := 3, frame := f }
      else { st := 2, frame := f, tb := tb, target := u64 p 8, armed := true }
    .commit [] (s.setCan c (x.setBuf b t))

/-- The row of `coreCanTx`. -/
def execCanTx (mb : Fin 8) (s : State) : Out := runOp mb 0x0804 coreCanTx s

/-- R385 `can.txabort`. -/
def coreCanTxabort (r : Req) (s : State) : CmdRes :=
  let c := tIndex r.target
  let x := s.can c
  let mask := u32 r.params 0
  let gone := mask &&& x.mask [1, 2, 3]
  let s := abortBufs c mask 3 s
  match x.onBus with
  | some b =>
    if bit mask b then
      let x := s.can c
      .commitWait (.canAbort c gone b) (s.setCan c (x.setBuf b { x.buf b with stop := 3 }))
    else .commit (le 4 gone ++ le 4 0) s
  | none => .commit (le 4 gone ++ le 4 0) s

/-- The row of `coreCanTxabort`. -/
def execCanTxabort (mb : Fin 8) (s : State) : Out := runOp mb 0x0805 coreCanTxabort s

/-- R387 `can.recover`. -/
def coreCanRecover (r : Req) (s : State) : CmdRes :=
  let c := tIndex r.target
  if (s.can c).st != 3 then .refuse .wrongState []
  else .commit [] (s.setCan c { s.can c with recovering := true, recoverAt := s.tick })

/-- The row of `coreCanRecover`. -/
def execCanRecover (mb : Fin 8) (s : State) : Out := runOp mb 0x0806 coreCanRecover s

/-- R375 `can.autobaud`. -/
def coreCanAutobaud (r : Req) (s : State) : CmdRes :=
  let c := tIndex r.target
  let p := r.params
  let n := u8 p 0
  let fd := s.canFd c
  let cands := (List.range n).map fun i => slice p (4 + 12 * i) 12
  let good (b : List Byte) : Bool := (timingOf b).inRange fd && (timingOf b).ok fd && u16 b 10 == 0
  if n == 0 || 16 < n || u8 p 1 < 10 || p.length != 4 + 12 * n || !cands.all good then .refuse .badParam []
  else if s.canLocked c then .refuse .locked []
  else if (s.can c).running || (s.can c).st == 4 then .refuse .wrongState []
  else
    .commitWait (.autobaud c) (canState c 4 (s.setCan c { s.can c with
      cands := cands, candIdx := 0, candGood := 0, candBrs := false, candAt := s.tick
      dwell := ticksMs (10 * u8 p 1) }))

/-- The row of `coreCanAutobaud`. -/
def execCanAutobaud (mb : Fin 8) (s : State) : Out := runOp mb 0x0807 coreCanAutobaud s

/-- R295 `can.status`. -/
def coreCanStatus (r : Req) (s : State) : CmdRes :=
  let x := s.can (tIndex r.target)
  .query ([byte x.st, byte (min x.tec 255), byte (min x.rxErr 255), 0] ++ le 4 (x.mask [1, 2, 3, 4]) ++
    le 4 (x.mask [2]) ++ le 2 x.rxq0.length ++ le 2 x.rxq1.length ++ le 4 x.txcnt ++ le 4 x.errcnt)

/-- The row of `coreCanStatus`. -/
def execCanStatus (mb : Fin 8) (s : State) : Out := runOp mb 0x0808 coreCanStatus s

/-! ### Errors and bus-off -/

/-- The wind-down script ends (R390, R446) after a step: reason 0 completed, 1 bus-off. Nothing further is sent: a
frame still pending returns as in R390. -/
def scriptEnd (last reason : Nat) (s : State) : State :=
  if s.warden.run == 2 then
    let s := abortBufs 0 4294967295 5 (s.setCan 0 ((s.can 0).stopOnBus 5))
    raiseEvent 81 3 [byte last, byte reason] { s with warden.run := 3, warden.started := false }
  else s

/-- The frame on the bus has ended; a `can.txabort` that named it is answered (R385, R295). -/
def answerAbort (c b : Nat) (sent : Bool) (s : State) : State :=
  (List.range 8).foldl (fun s n =>
    match (s.mb n).state, (s.mb n).phase with
    | .posted, .waiting (.canAbort k gone bb) =>
      if k == c && bb == b then
        completeMb n .ok (if sent then le 4 gone ++ le 4 (2 ^ b) else le 4 (gone ||| 2 ^ b) ++ le 4 0) s
      else s
    | _, _ => s) s

/-- Entry to bus-off (R386). -/
def canBusOff (c : Nat) (s : State) : State :=
  let s := canState c 3 s
  let s := match (s.can c).onBus with
    | some b => answerAbort c b false (txEnd c b 2 1 s)
    | none => s
  let s := abortBufs c 4294967295 4 (s.setFlag (canBase c) 11)
  let s := if c == 0 && s.warden.mode then scriptEnd s.warden.stepIdx 1 s else s
  faultHold (92 + c) s

/-- The error counters take new values (R386); a listen-only controller's do not change (R374). -/
def canCounters (c tec rxErr : Nat) (s : State) : State :=
  let x := s.can c
  if s.canListen c || !(x.st == 1 || x.st == 2) then s
  else
    let s := s.setCan c { x with tec := tec, rxErr := rxErr }
    if 255 < tec then canBusOff c s
    else canState c (if 128 ≤ tec || 128 ≤ rxErr then 2 else 1) s

/-- An error frame is seen: `ERRCNT` and `LAST_ERR` (R393). -/
def canError (c : Nat) (kind : Fin 6) (s : State) : State :=
  let x := s.can c
  s.setCan c { x with errcnt := (x.errcnt + 1) % 4294967296, lastErr := kind + 1 }

/-- The controller is enabled, not bus-off and not in the safe state. -/
def State.canUp (s : State) (c : Nat) : Bool :=
  let x := s.can c
  !s.warden.safe && x.running && (x.st == 1 || x.st == 2)

/-- The controller takes part on the bus (R369). -/
def State.canLive (s : State) (c : Nat) : Bool := s.canUp c && (s.can c).joinAt ≤ s.tick

/-- A receive error counter after a frame received without error (ISO 11898-1): one less, or a value of
119 to 127 where it was above 127. -/
def recDown (s : State) (n : Nat) : Nat × State :=
  if n == 0 then (0, s) else if n ≤ 127 then (n - 1, s) else (119 + s.free.toNat % 9, s.drawn)

/-! ### Reception -/

/-- A pair matches a frame (R376). -/
def pairMatches (s : State) (c k : Nat) (f : CanFrame) : Bool :=
  let b := pairBase c k
  let w := if f.ext then 2 ^ 29 - 1 else 2 ^ 11 - 1
  let m := s.fld (b + 8) 28 0 &&& w
  s.fld b 1 0 != 3 && s.flag b 2 == f.ext && (f.id &&& m) == (s.fld (b + 4) 28 0 &&& m)

/-- The record of a received frame (R379). -/
def rxRec (s : State) (c k : Nat) (f : CanFrame) : Rec :=
  let tb := s.fld (canBase c + 4) 10 8
  { angle := s.angStamp tb, time32 := s.time32, holdover := tb < 4 && s.holdover tb
    data := le 4 (canIdWord f) ++ [byte f.dlc, byte k, byte (b2n f.brs + 2 * b2n f.esi), 0] ++ f.data }

/-- A frame enters a receive queue, or is dropped (R378). -/
def rxPush (c q : Nat) (r : Rec) (s : State) : State :=
  let x := s.can c
  let l := if q == 0 then x.rxq0 else x.rxq1
  if l.length < 256 then
    s.setCan c (if q == 0 then { x with rxq0 := l ++ [r] } else { x with rxq1 := l ++ [r] })
  else
    let s := (s.setFlag (canBase c) (12 + q)).incFld (canBase c + 0x20) (16 * q + 15) (16 * q)
    raiseEvent (58 + c) 4 ([byte q, 0] ++ le 2 (s.fld (canBase c + 0x20) (16 * q + 15) (16 * q))) s

/-- Detection ends (R375): the controller stays disabled, the command is answered. -/
def autobaudEnd (c idx : Nat) (ver : Bool) (s : State) : State :=
  let s := s.setCan c { s.can c with cands := [], candGood := 0, candBrs := false, abdVer := ver }
  let s := raiseEvent (58 + c) 5 [byte idx, byte (b2n ver)] (canState c 0 s)
  completeWhere (fun w => w == .autobaud c) .ok [byte idx] s

/-- A frame during detection (R375). With `FD` 0 an FD frame is a form error (R368). -/
def autobaudFrame (c : Nat) (f : CanFrame) (s : State) : State :=
  let x := s.can c
  let brs := x.candBrs || (f.fd && f.brs)
  if s.warden.safe || x.candAt + x.dwell < s.tick then s
  else if f.fd && !s.canFd c then canError c 1 s
  else if 3 ≤ x.candGood then
    autobaudEnd c x.candIdx brs (loadTiming c (timingOf (x.cands.getD x.candIdx [])) (s.canFd c) s)
  else s.setCan c { x with candGood := x.candGood + 1, candBrs := brs }

/-- A frame received without error has ended: the receive counter falls, and the lowest pair that matches says
where its record goes (R376 to R379). -/
def canStore (c : Nat) (frame : CanFrame) (r : Nat → Rec) (s : State) : State :=
  let x := s.can c
  let (n, s) := recDown s x.rxErr
  let s := canCounters c x.tec n s
  match (List.range 64).find? fun k => pairMatches s c k frame with
  | none => s.incFld (canBase c + 0x24) 15 0
  | some k =>
    match s.fld (pairBase c k) 1 0 with
    | 0 => rxPush c 0 (r k) s
    | 1 => rxPush c 1 (r k) s
    | _ => s

/-- R368, R376 to R379. A frame received without error, from its SOF, at which its stamps are taken, to its end.
With `FD` 0 an FD frame is a form error. DESIGN CHOICE (log 38): the frame's time passes within this row. -/
def execCanFrameReceived (c : Fin 2) (frame : CanFrame) (ticks : Nat) (s : State) : Out :=
  let t := s.elapse ticks
  if (s.can c).st == 4 then .next (autobaudFrame c frame t)
  else if !s.canLive c then .next s
  else if frame.fd && !s.canFd c then .next (canCounters c (t.can c).tec ((t.can c).rxErr + 1) (canError c 1 t))
  else .next (canStore c frame (fun k => rxRec s c k frame) t)

/-- R375. A candidate's dwell ends without success. -/
def execAutobaudDwellEnd (c : Fin 2) (s : State) : Out :=
  let x := s.can c
  if x.st != 4 || s.warden.safe then .next s
  else
    let s := s.waitUntil (x.candAt + x.dwell)
    if x.candIdx + 1 < x.cands.length then
      .next (s.setCan c { s.can c with candIdx := x.candIdx + 1, candGood := 0, candBrs := false, candAt := s.tick })
    else .next (autobaudEnd c 0xFF false s)

/-! ### Transmission -/

/-- A frame's priority on the bus (R382), the lower first: base identifier, format, identifier. -/
def canPriority (f : CanFrame) : Nat :=
  if f.ext then f.id / 2 ^ 18 * 2 ^ 19 + 2 ^ 18 + f.id % 2 ^ 18 else f.id * 2 ^ 19

/-- The pending buffer of highest priority, the lower index among equals. -/
def topBuf : List (Nat × TxBuf) → Option (Nat × TxBuf)
  | [] => none
  | e :: t =>
    match topBuf t with
    | none => some e
    | some m => if canPriority m.2.frame < canPriority e.2.frame then some m else some e

/-- Where the controller samples its own data bits in an FD frame with bit-rate switching (R373): with compensation
on, at the loop delay it measures, which is free, plus `TDC_OFF`; else at the sample point. -/
def canSample (c : Nat) (f : CanFrame) (s : State) : State :=
  let t := s.canTiming c
  if !(f.fd && f.brs) then s
  else if s.flag (canBase c + 4) 3 then
    s.drawn.setCan c { s.can c with ssp := s.free.toNat + s.fld (canBase c + 4) 22 16 }
  else s.setCan c { s.can c with ssp := t.dp * (1 + t.d1) }

/-- R382. Arbitration starts: the controller, once it takes part (R369), enters its pending buffer of highest
priority. An error-passive node sends ESI recessive. -/
def execCanArbitrationStart (c : Fin 2) (s : State) : Out :=
  let x := s.can c
  if !s.canUp c || x.stopping || x.onBus.isSome || s.canListen c then .next s
  else match topBuf (x.bufs.filter fun e => e.2.st == 1) with
  | none => .next s
  | some (b, t) =>
    let s := s.waitUntil x.joinAt
    let f := { t.frame with esi := t.frame.fd && x.st == 2 }
    .next (canSample c f (s.setCan c ((s.can c).setBuf b { t with st := 4, sofAt := s.tick, frame := f })))

/-- Nanoseconds by which a time base stands past a target, an angle clock's at its present rate. -/
def State.pastBy (s : State) (tb target : Nat) : Nat :=
  if tb == 4 then s.chicory.wall.ns - 1000 * target
  else (s.live tb - target) * 1000000000000000000 / max 1 (65536 * s.angRate tb)

/-- R381. The target of an armed buffer falls due. -/
def execCanArmedDue (c : Fin 2) (buf : Fin 32) (s : State) : Out :=
  let b := (s.can c).buf buf
  if b.st != 2 || s.warden.safe || (b.tb < 4 && (s.ang b.tb).st == 0) then .next s
  else match s.reach b.tb b.target with
  | none => .next s
  | some s =>
    .next (s.setCan c ((s.can c).setBuf buf { b with st := 1, dueAt := s.tick, late := s.pastBy b.tb b.target }))

/-- Lateness of an armed frame from target to SOF, ns (R392). -/
def lateness (b : TxBuf) : Nat := min 4294967295 (b.late + 10 * (b.sofAt - b.dueAt))

/-- A `SENT` frame of `CANA` is captured by the mirrors of the armed script (R444). -/
def captureMirror (f : CanFrame) (s : State) : State :=
  match s.warden.script with
  | none => s
  | some sc =>
    if s.warden.mode then s
    else match sc.mirrorIds.findIdx? fun i => i == f.id + (if f.ext then 2 ^ 29 else 0) with
    | some k => { s with warden.mirrors := Tbl.setD [] s.warden.mirrors k f.data }
    | none => s

/-- A transmission has succeeded (R384). -/
def txSent (c b : Nat) (s : State) : State :=
  let x := s.can c
  let t := x.buf b
  let s := if t.armed then raiseEvent (58 + c) 3 ([byte b, 0, 0, 0] ++ le 4 (lateness t)) s else s
  let s := if c == 0 then captureMirror t.frame s else s
  canCounters c (x.tec - 1) x.rxErr (txEnd c b 1 0 s)

/-- A transmission lost arbitration (R382), or ended in error (`err`; R383): pending again, unless it may
not be tried again (R385, R388, R390), or its error takes the controller bus-off (R386). `counts` where the error
raises the transmit counter. -/
def txRetry (c b : Nat) (err counts : Bool) (s : State) : State :=
  let x := s.can c
  let t := x.buf b
  let n := t.errors + b2n err
  let r := s.fld (canBase c + 4) 7 4
  if counts && !s.canListen c && 255 < x.tec + 8 then s
  else if t.stop == 3 then txEnd c b 3 3 s
  else if t.stop == 2 then txEnd c b 2 2 s
  else if t.stop == 5 then (if err then txEnd c b 2 1 s else txEnd c b 3 5 s)
  else if err && r < 15 && r < n then txEnd c b 2 1 s
  else s.setCan c (x.setBuf b { t with st := 1, errors := n })

/-- A transmission ended in an error: `LAST_ERR`, `ERRCNT`, and 8 more on the transmit counter where it counts. -/
def txError (c b : Nat) (kind : Fin 6) (counts : Bool) (s : State) : State :=
  let s := canError c kind (txRetry c b true counts s)
  let x := s.can c
  if counts then canCounters c (x.tec + 8) x.rxErr s else s

/-- R383 to R385, R388. The frame on the bus ends; a `can.txabort` that named it is answered. -/
def execCanTxEnd (c : Fin 2) (result : CanResult) (s : State) : Out :=
  match (s.can c).onBus with
  | none => .next s
  | some b =>
    if !s.canLive c then .next s
    else
      let s := match result with
        | .sent => txSent c b s
        | .lostArbitration => txRetry c b false false s
        | .busError kind counts => txError c b kind counts s
      .next (answerAbort c b (result = .sent) s)

/-- R386. The counters move as ISO 11898-1 says, and the controller's state with them. -/
def execCanErrorStateChange (c : Fin 2) (err : CanError) (s : State) : Out :=
  let x := s.can c
  if !s.canLive c then .next s
  else match err with
  | .received kind => .next (canCounters c x.tec (x.rxErr + 1) (canError c kind s))
  | .receiverFlag => .next (canCounters c x.tec (x.rxErr + 8) s)
  | .transmitterFlag => .next (canCounters c (x.tec + 8) x.rxErr s)

/-- R386. The transmit counter passes 255. -/
def execBusOff (c : Fin 2) (s : State) : Out :=
  if s.canLive c then .next (canCounters c 256 (s.can c).rxErr s) else .next s

/-- R387. 128 occurrences of 11 recessive bits after `can.recover`. -/
def execBusOffRecoveryEnd (c : Fin 2) (s : State) : Out :=
  let x := s.can c
  if x.st != 3 || !x.recovering || s.warden.safe then .next s
  else
    let s := s.waitUntil (x.recoverAt + s.canBits c 1408)
    .next (faultGone (92 + c) (canState c 1 (s.setCan c { s.can c with tec := 0, rxErr := 0, recovering := false })))

/-- R388. After the intermission the controller stops. -/
def execCanDisableComplete (c : Fin 2) (s : State) : Out :=
  let x := s.can c
  if !x.stopping || x.onBus.isSome || s.warden.safe then .next s
  else .next (canStopped c (if x.st == 3 then faultGone (92 + c) s else s))

end Sys2Proof.Machine
end

