-- ==== Sys2Proof/Machine/Targets.lean ====
section
/-!
DEFINITION. Counting the targets of a schedule, and the targets a time base passes in one tick
(R212, R235).
-/

namespace Sys2Proof.Machine

/-- Angles of one cycle, in order, as a number of them (R212). -/
def SchedSpec.perCycle (p : SchedSpec) : Nat := p.count

/-- The i-th angle of a cycle. -/
def SchedSpec.angleAt (p : SchedSpec) (i : Nat) : Nat :=
  if p.pattern = 1 then p.angles.getD i 0 else p.start + i * p.step

/-- Angles of a cycle that lie below an angle. -/
def SchedSpec.anglesBelow (p : SchedSpec) (a : Nat) : Nat :=
  if p.pattern = 1 then ((p.angles.take p.count).filter fun x => x < a).length
  else if a ≤ p.start then 0
  else if p.step = 0 then 1
  else min p.count ((a - p.start + p.step - 1) / p.step)

/-- Cycles served whose count lies below a count. -/
def SchedSpec.cyclesBelow (p : SchedSpec) (c : Nat) : Nat :=
  let div := max p.div 1
  (c + div - 1 - p.cphase % div) / div

/-- Targets that lie below a position of the schedule's time base. -/
def SchedSpec.targetsBelow (p : SchedSpec) (pos : Nat) : Nat :=
  if p.tb = 4 then
    let per := max p.period 1
    (pos + per - 1 - p.offset % per) / per
  else
    let c := pos / 65536
    let div := max p.div 1
    p.cyclesBelow c * p.count + (if c % div = p.cphase % div then p.anglesBelow (pos % 65536) else 0)

/-- The target of a number, counting from 0. -/
def SchedSpec.targetAt (p : SchedSpec) (i : Nat) : Nat :=
  if p.tb = 4 then p.offset % max p.period 1 + i * max p.period 1
  else
    let n := max p.count 1
    (p.cphase % max p.div 1 + i / n * max p.div 1) * 65536 + p.angleAt (i % n)

/-- The last `k` targets of a schedule below its target number `b`. -/
def SchedSpec.lastTargets (p : SchedSpec) (b k : Nat) : List Nat :=
  (List.range k).map fun i => p.targetAt (b - k + i)

/-- The targets of one served channel that its time base has passed (R235): the latest 16 yield
`MISSED` records in target order, the earlier ones count as skipped. Where an apply point was passed
with them, `chg` gives that point and the new schedule, none for a channel that closes at it: old targets before
it, new ones from it on (R243). -/
def passChan (slot : Nat) (chg : Option (Option SchedSpec × Nat)) (s : State) : State :=
  let c := s.chan slot
  let p := c.sched
  let now := s.live p.tb
  let cut := match chg with
    | some (_, a) => max c.next (min a now)
    | none => now
  let q := (chg.bind (·.1)).getD p
  let oldHi := p.targetsBelow cut
  let nOld := oldHi - p.targetsBelow c.next
  let newHi := q.targetsBelow now
  let nNew := match chg with
    | some (some q, a) => newHi - q.targetsBelow a
    | _ => 0
  let n := nOld + nNew
  if c.periodic && !c.byTxn && (c.st == 1 || (c.st == 0 && n != 0)) && n != 0 then
    let kNew := min nNew 16
    let kOld := min nOld (16 - kNew)
    let s := s.setChan slot { c with st := 1, sched := q, next := q.nextFrom now,
                                     nSkipped := c.nSkipped + (n - (kNew + kOld)) }
    (p.lastTargets oldHi kOld ++ q.lastTargets newHi kNew).foldl (fun s a => missRec slot 4 a s) s
  else s

end Sys2Proof.Machine
end

