-- ==== Sys2Proof/Machine/SchedOps.lean ====
section
/-!
DEFINITION. The apply point of a schedule transaction (R242, R243), the transaction's end at
warden-mode entry (R244), closing a channel (R200), and the targets a time base passes in one tick.
-/

namespace Sys2Proof.Machine

/-- A transaction of the channel is on a wire. -/
def State.slotOnWire (s : State) (slot : Nat) : Bool :=
  s.sched.wire.any fun e => match e.2 with
    | some w => w.slot == slot
    | none => false

/-- A close without `ABORT` takes effect (R200): `LAST` follows at once, or after the transaction on
the wire or the control request in flight. -/
def closeNow (slot : Nat) (s : State) : State :=
  let c := s.chan slot
  let wait := s.slotOnWire slot || c.ctrl.isSome
  let s := s.setChan slot { c with st := 4, due := [], pausing := false, byStop := false, byTxn := false
                                   closing := wait }
  if wait then s else emitLast slot s

/-- The transaction that is `PENDING`, if one is. -/
def State.pendingTxn (s : State) : Option SchedTxn := s.sched.txns.find? fun t => t.st == 1

/-- Replace a transaction by its number. -/
def State.setTxn (s : State) (t : SchedTxn) : State :=
  { s with sched.txns := s.sched.txns.map fun x => if x.txn == t.txn then t else x }

/-- The `CHANGE` of a slot's channel in a transaction, the last where several name it. -/
def State.changeIn (s : State) (t : SchedTxn) (slot : Nat) : Option SchedSpec :=
  (t.items.reverse.find? fun i => i.code == 6 && s.slotOf i.target == some slot).map (·.spec)

/-- A transaction closes a slot's channel. -/
def State.closesIn (s : State) (t : SchedTxn) (slot : Nat) : Bool :=
  t.items.any fun i => i.code == 5 && s.slotOf i.target == some slot

/-- A sync pattern is set (R246): its first target at or after a position. -/
def startSync (p : Nat) (spec : SchedSpec) (pos : Nat) (s : State) : State :=
  let x : SyncPat := { on := true, sched := spec, next := spec.nextFrom pos }
  { s with sched.syncs := Tbl.setD {} s.sched.syncs p x }

/-- One item takes effect at the apply point (R239, R242): its status, and the state after it. New schedules begin
at a position of the apply point's time base, on another time base at its live value. -/
def applyItem (tb pos : Nat) (i : Item) (s : State) : Item × State :=
  let from_ (p : SchedSpec) : Nat := p.nextFrom (if p.tb = tb then pos else s.live p.tb)
  let h := if i.code == 1 then i.handle else i.target
  let slot := s.slotOf h
  let stale : Bool := match slot with
    | some n => (s.chan n).st == 4
    | none => true
  match i.code with
  | 1 =>
    match slot with
    | some n =>
      if stale then ({ i with status := 2 }, s)
      else
        ({ i with status := 1 }, s.modChan n fun c => { c with
          byTxn := false, st := if c.st == 0 && !c.periodic && !s.portHeld c.port then 1 else c.st
          next := if c.periodic then from_ c.sched else 0 })
    | none => ({ i with status := 2 }, s)
  | 2 => ({ i with status := 1 },
      startSync (tIndex i.target) i.spec (if i.spec.tb = tb then pos else s.live i.spec.tb) s)
  | 3 =>
    let p := tIndex i.target
    let x := s.port p
    let go := x.usb.ccAtt && !x.usb.hostOff && x.pw.coolUntil.isNone && x.usb.st == 0 &&
      s.flag (fuseBase p) 0
    let v := some (u8 i.body 0, u64 i.body 8)
    let s := { s with sched.inrush := Tbl.setD none s.sched.inrush p v }
    let s := s.modPw p fun w => { w with held := false }
    ({ i with status := 1 }, if go then askGrant p s else s)
  | 4 =>
    let k := tIndex i.target
    let x := s.can k
    let b := Tbl.getD {} x.bufs (u8 i.body 0)
    if b.st == 3 then
      let b := { b with st := 2, tb := u8 i.body 1, target := u64 i.body 8, armed := true }
      ({ i with status := 1 }, s.setCan k { x with bufs := Tbl.setD {} x.bufs (u8 i.body 0) b })
    else ({ i with status := 2 }, s)
  | 5 =>
    match slot with
    | some n => if stale then ({ i with status := 2 }, s) else ({ i with status := 1 }, closeNow n s)
    | none => ({ i with status := 2 }, s)
  | _ =>
    match slot with
    | some n =>
      if stale then ({ i with status := 2 }, s)
      else
        ({ i with status := 1 }, s.modChan n fun c => { c with
          sched := i.spec, next := from_ i.spec
          lateBound := if c.sched.cls == i.spec.cls then c.lateBound else i.lateBound
          blockTime := if c.sched.cls == i.spec.cls then c.blockTime else i.blockTime })
    | none => ({ i with status := 2 }, s)

/-- The group whose calendar an item touches. -/
def itemGroup (s : State) (i : Item) : Option Nat :=
  match i.code with
  | 2 => some (tIndex i.target / 8)
  | 3 => none
  | 4 => none
  | _ => (s.slotOf (if i.code == 1 then i.handle else i.target)).bind fun n =>
      if (s.chan n).periodic then some (s.chan n).grp else none

/-- The apply point is reached (R242): every item, in order, in one tick, and the groups' events. The new
schedules begin at a position, the apply point or what a jump past it leaves (R243). -/
def applyTxn (pos : Nat) (t : SchedTxn) (s : State) : State :=
  let groups := t.items.map fun i => itemGroup s i
  let (items, s) := t.items.foldl (fun (acc : List Item × State) i =>
    let (i, s) := applyItem t.applyTb pos i acc.2
    (acc.1 ++ [i], s)) ([], s)
  let s := s.setTxn { t with st := 2, items := items }
  (List.range s.nGroups).foldl (fun s g =>
    let n := ((items.zip groups).filter fun e => e.1.status == 1 && e.2 == some g).length
    if n == 0 then s else groupEvent g 0x0B (le 4 t.txn ++ le 2 n) s) s

/-- The pending transaction applies once its clock reaches the apply point; never in warden mode (R237, R244). -/
def atApply (t : SchedTxn) (s : State) : State :=
  if s.warden.mode then s
  else match s.reach t.applyTb t.applyAt with
  | none => s
  | some u => applyTxn t.applyAt t u

/-- The new channels of a transaction on a time base, whose targets begin at the apply point (R239, R243). -/
def newFrom (t : SchedTxn) (s : State) : State :=
  ((t.items.filter fun (i : Item) => i.code == 1).filterMap fun i => s.slotOf i.handle).foldl (fun s n =>
    let c := s.chan n
    if c.byTxn && c.periodic && c.sched.tb == t.applyTb then
      s.setChan n { c with byTxn := false, next := c.sched.nextFrom t.applyAt }
    else s) s

/-- A time base has moved past targets in one tick (R235, R243): every channel on it; the sync
patterns, whose passed targets give no pulse; and a pending apply point on it. -/
def passTargets (tb : Nat) (s : State) : State :=
  let due := s.pendingTxn.filter fun t => t.applyTb == tb && t.applyAt ≤ s.live tb && !s.warden.mode
  let s := match due with
    | some t => newFrom t s
    | none => s
  let s := s.openSlots.foldl (fun s k =>
    if (s.chan k).sched.tb == tb then
      passChan k (due.bind fun t =>
        if s.closesIn t k then some (none, t.applyAt) else (s.changeIn t k).map fun q => (some q, t.applyAt)) s
    else s) s
  let s := { s with sched.syncs := s.sched.syncs.map fun e =>
    if e.2.on && e.2.sched.tb == tb && e.2.next < s.live tb then
      (e.1, { e.2 with next := e.2.sched.nextFrom (s.live tb) })
    else e }
  match due with
  | some t => applyTxn (s.live tb) t s
  | none => s

/-- Warden-mode entry (R237, R244): an `OPEN` transaction is cancelled; a `PENDING` one never applies,
and its new channels close without a `LAST` record. -/
def voidTxns (s : State) : State :=
  let news := match s.pendingTxn with
    | some t => (t.items.filter fun (i : Item) => i.code == 1).filterMap fun (i : Item) => s.slotOf i.handle
    | none => []
  let s := { s with sched.txns := s.sched.txns.map fun (t : SchedTxn) =>
    if t.st == 0 then { t with st := 3 } else if t.st == 1 then { t with st := 4 } else t }
  news.foldl (fun s n => closeSlot n s) s

end Sys2Proof.Machine
end

