-- ==== Sys2Proof/Machine/Chicory.lean ====
section
/-!
DEFINITION. Chicory's operations (chapter 4): the states of the angle clocks and of the wall
discipline, the loop, wall steps, phase outputs, captures and the phase link, and what a change of
each unit's `ENABLE` does. The commands and the window both go through them.
-/

namespace Sys2Proof.Machine

/-! ### Phase outputs -/

/-- Register base of an output (R140). -/
def phoBase (n : Nat) : Nat := 0x1200 + 16 * n

def State.pho (s : State) (n : Nat) : PhaseOut := Tbl.getD {} s.chicory.phos n
def State.setPho (s : State) (n : Nat) (x : PhaseOut) : State :=
  { s with chicory.phos := Tbl.setD {} s.chicory.phos n x }

/-- The pin is driven active. -/
def PhaseOut.on (x : PhaseOut) (tick : Nat) : Bool :=
  x.active && (match x.endsAt with | some t => tick < t | none => true)

/-- The configurations R128 refuses, and a time base that does not exist (R140). -/
def phoBad (tb pos per width : Nat) (level : Bool) : Bool :=
  4 < tb || width == 0 ||
    (if tb == 4 then per == 0 || per ≤ pos
     else level && (pos % 65536 == per % 65536 || pos / 65536 != 0))

/-- The targets of an output as a schedule (R128). -/
def State.phoSpec (s : State) (n : Nat) : SchedSpec :=
  let b := phoBase n
  let tb := s.fld b 4 2
  let step := s.fld (b + 4) 31 16
  let start := s.fld (b + 4) 15 0
  { tb := tb, start := start, step := step, div := 1
    count := if step = 0 then 1 else (65535 - start) / step + 1
    offset := s.reg (b + 4), period := s.reg (b + 8) }

/-- An output's next target from now on. -/
def phoAim (n : Nat) (s : State) : State :=
  let p := s.phoSpec n
  s.setPho n { s.pho n with next := p.nextFrom (s.live p.tb) }

/-- `ENABLE` of an output set and cleared (R128). -/
def phoOn (n : Nat) (s : State) : State := phoAim n (s.setFlag (phoBase n) 0)
def phoOff (n : Nat) (s : State) : State :=
  let x := s.pho n
  (s.clrFlag (phoBase n) 0).setPho n
    (match x.endsAt with
     | some t => if s.tick < t then { x with next := 0 } else {}
     | none => {})

/-- Pin level of an output (R128, R522 to R524): low in the safe state, the latched level while an SVH16 holds its
pads, and no level while an SVH48 bank is unpowered; otherwise active or not, in the sense of `POL`. -/
def State.phoPin (s : State) (n : Nat) : Option Bool :=
  let held := s.power.held.contains (n / 8)
  if held && s.variant == .svh48 then none
  else if s.warden.safe then some false
  else if held then some (bit s.power.padLevel n)
  else some ((s.pho n).on s.tick != s.flag (phoBase n) 6)

/-- The tick of the pin edge for a crossing (R129): 40 ns after it, less `ADV` × 10 ns. -/
def State.phoEdge (s : State) (n cross : Nat) : Nat := cross + 4 - s.fld (phoBase n) 23 16

/-- A target of an output falls due (R128, R130), its edge placed now. -/
def phoFire (n : Nat) (s : State) : State :=
  let b := phoBase n
  let p := s.phoSpec n
  let x := s.pho n
  let tgt := x.next
  let level := s.flag b 5
  let next := p.nextFrom (tgt + 1)
  if p.tb < 4 && level then
    let clr := s.fld (b + 8) 15 0
    let cyc := tgt / 65536
    let e := if tgt % 65536 < clr then cyc * 65536 + clr else (cyc + 1) * 65536 + clr
    s.setPho n { active := true, endsAt := none, endPos := some e, next := next }
  else
    let s := if x.on s.tick && !level then s.setFlag b 11 else s
    s.setPho n { active := true, endsAt := some (s.tick + s.fld (b + 12) 23 0), endPos := none, next := next }

/-! ### Angle clocks -/

/-- A change of an angle clock's state posts EV(54 + k) code 0x01 and emits an anchor (R115). In `HOLDOVER`
and `FREE` it runs at its rate alone, and owes nothing. -/
def angState (k st : Nat) (s : State) : State :=
  let a := s.ang k
  if a.st == st then s
  else
    let s := s.setAng k { a with st := st, heldAt := s.tick, lockRun := 0, unlockRun := 0
                                 owe := if st == 3 || st == 4 then 0 else a.owe }
    anchor k 4 (raiseEvent (54 + k) 1 [byte a.st, byte st] s)

/-- What follows a clock is aimed from its count 0 (R115): the outputs, the channels and the sync patterns
that name it. -/
def reaim (k : Nat) (s : State) : State :=
  let s := (List.range 16).foldl (fun s n =>
    if s.flag (phoBase n) 0 && (s.phoSpec n).tb == k then phoAim n s else s) s
  let s := s.openSlots.foldl (fun s n =>
    if (s.chan n).periodic && (s.chan n).sched.tb == k then
      s.modChan n fun c => { c with next := c.sched.nextFrom 0 }
    else s) s
  { s with sched.syncs := s.sched.syncs.map fun e =>
      if e.2.on && e.2.sched.tb == k then (e.1, { e.2 with next := e.2.sched.nextFrom 0 }) else e }

/-- Setting `ENABLE` (R115): cycle count and angle 0, `ACQUIRING`. -/
def angOn (k : Nat) (s : State) : State :=
  let s := s.setFlag (angBase k) 0
  let a := s.ang k
  if a.st != 0 then s
  else
    reaim k (angState k 1 (s.setAng k { a with
      cycle := 0, angle := 0, frac := 0, seen := 0, reverse := false, indexed := false
      firstIndex := true, owe := 0, rate := 0, rates := [], edgeAt := none, fast := false
      linkHold := none, adopt := s.fld (angBase k + 4) 2 0 == 3, lastEvent := s.tick }))

/-- A clock is enabled for the commands of R288. -/
def State.angRuns (s : State) (k : Nat) : Bool := s.flag (angBase k) 0 || (s.ang k).st != 0

/-- A reference fault (R108): FS(88 + k), EV(54 + k) code 0x02 and `REF_ERR`. An edge-rate (1) or cycle-rate fault (2)
persists, and the source stands at fault meanwhile (R426). -/
def refFault (k kind : Nat) (s : State) : State :=
  let s := raiseEvent (54 + k) 2 [byte kind] (s.setFlag (angBase k) 11)
  if kind ≤ 2 then faultHold (88 + k) s else faultPulse (88 + k) s

/-- No reference fault of a clock persists any more (R426). -/
def refQuiet (k : Nat) (s : State) : State := if (s.src (88 + k)).pair == 2 then faultGone (88 + k) s else s

/-- Clearing `ENABLE` (R115): `UNLOCKED`, the accumulator held; TX buffers armed on the clock return
`ABORTED` with reason 6 (R381). -/
def angOff (k : Nat) (s : State) : State :=
  let s := (List.range 2).foldl (fun s c =>
    ((s.can c).bufs.filter fun e => e.2.st == 2 && e.2.tb == k).foldl (fun s e => txEnd c e.1 3 6 s) s) s
  let s := s.clrFlag (angBase k) 0
  let a := s.ang k
  refQuiet k (angState k 0 (s.setAng k { a with reverse := false, linkHold := none }))

/-- `ANGk_SRC.MODE` (R106). -/
def State.angMode (s : State) (k : Nat) : Nat := s.fld (angBase k + 4) 2 0

/-- Reference events in one cycle of a clock (R106). -/
def State.eventsPerCycle (s : State) (k : Nat) : Nat :=
  let n := max (s.fld (angBase k + 4) 31 16) 1
  match s.angMode k with
  | 1 => n
  | 2 => 4 * n
  | _ => 1

/-- Reference loss (R116), counted in `MISSING`: with a rate estimate the clock goes from `ACQUIRING` or `LOCKED`
to `HOLDOVER`. -/
def refLoss (k : Nat) (s : State) : State :=
  let a := s.ang k
  if a.st == 1 || a.st == 2 then
    let s := s.incFld (angBase k + 0x28) 31 24
    if a.seen == 2 then angState k 3 s else s
  else s

/-- The reference's angle at its i-th event (R106): `OFFSET` at the zero event, 65,536/N or 65,536/(4N) au a further
event; of a link mark the angle its clock had when the mark left the upstream chip, `DLY` ns ago (R137). -/
def State.refAngle (s : State) (k i : Nat) : Nat :=
  let a := s.ang k
  if s.angMode k == 3 then s.fld 0x1504 11 0 * s.angRate k * 65536 / 10 ^ 18
  else (a.base + i * 65536 / s.eventsPerCycle k) % 65536

/-- The signed phase error of a clock against an angle, −0x8000 to +0x7FFF au. -/
def Ang.errorTo (a : Ang) (ref : Nat) : Int := signed 16 ((ref + 65536 - a.angle % 65536) % 65536)

/-- The cycle rate that the interval from the last event to a tick spells, in 10^-9 Hz. -/
def State.measured (s : State) (k tick : Nat) : Nat :=
  10 ^ 17 / max ((tick - (s.ang k).lastEvent) * s.eventsPerCycle k) 1

/-- The rate estimate after an event (R112). DESIGN CHOICE (log 51): the mean of the present rate and the rates of the
last 2^`BW` − 1 cycles, so that a narrower setting rejects more jitter and each lock time of R112 is kept. -/
def State.estimate (s : State) (k rate : Nat) : Nat :=
  let l := rate :: (s.ang k).rates.take (2 ^ s.fld (angBase k + 8) 1 0 - 1)
  l.foldl (· + ·) 0 / l.length

/-- A cycle rate within 0.5 to 1,000 Hz (R108, R116). -/
def rateInRange (rate : Nat) : Bool := 500000000 ≤ rate && rate ≤ 1000000000000

/-- The lock and unlock tests at a reference event (R113, R114); the lock test runs at the first event of a cycle. -/
def lockTest (k : Nat) (err : Int) (newCycle : Bool) (s : State) : State :=
  let a := s.ang k
  let m := err.natAbs
  if a.st == 1 then
    if newCycle then
      let run := if m ≤ s.fld (angBase k + 8) 23 16 then a.lockRun + 1 else 0
      let s := s.setAng k { a with lockRun := run }
      if s.fld (angBase k + 8) 27 24 ≤ run then angState k 2 s else s
    else s
  else if a.st == 2 then
    let run := if s.fld (angBase k + 0x0C) 31 16 < m then a.unlockRun + 1 else 0
    let s := s.setAng k { a with unlockRun := run }
    if 2 ≤ run then angState k 1 s else s
  else s

/-- The first accepted event after enable (R106, R115): it assigns the angle, at which the clock holds. -/
def refFirst (k : Nat) (s : State) : State :=
  let a := s.ang k
  let off := if s.angMode k == 3 then 0 else s.fld (angBase k + 0x10) 15 0
  s.setAng k { a with
    angle := off, base := off, evIdx := 0, seen := 1, owe := 0, lastEvent := s.tick, inCycle := 0, cycleAt := s.tick }

/-- An event after the first (R108, R111, R113 to R117): the rate estimate, the phase error to absorb, the state. A rate
outside 0.5 to 1,000 Hz is reference loss, and a fault when the estimate leaves the range. The first event after a
gap of more than 1.5 intervals in `HOLDOVER` or `FREE` measures no rate (DEDUCED, log 51). -/
def refUpdate (k : Nat) (s : State) : State :=
  let a := s.ang k
  let n := s.eventsPerCycle k
  let gap := 3 ≤ a.st && 3 * 10 ^ 17 < 2 * (s.tick - a.lastEvent) * n * a.rate
  let rate := if gap then a.rate else s.estimate k (s.measured k s.tick)
  let newCycle := n ≤ a.inCycle + 1
  let err := a.errorTo (s.refAngle k (a.evIdx + 1))
  let b := { a with
    rate := rate, lastEvent := s.tick, evIdx := (a.evIdx + 1) % n
    inCycle := if newCycle then 0 else a.inCycle + 1
    cycleAt := if newCycle then s.tick else a.cycleAt
    rates := if newCycle && !gap then (10 ^ 17 / max (s.tick - a.cycleAt) 1 :: a.rates).take 8 else a.rates }
  if !gap && !rateInRange rate then
    let s := s.setAng k b
    refLoss k (if a.rate == 0 || rateInRange a.rate then refFault k 2 s else s)
  else
    let s := s.setAng k { b with pherr := err, owe := err, seen := 2 }
    if 3 ≤ a.st then angState k 1 s else lockTest k err newCycle s

/-- The rate of the accepted edges (R108, R116): two of them less than 500 ns apart exceed 2 MHz, which is a fault as it
begins, and reference loss. DEDUCED (log 51): the edges counted are those that are reference events. -/
def edgeRate (k : Nat) (s : State) : State :=
  let a := s.ang k
  let fast := match a.edgeAt with
    | some t => s.tick - t < 50
    | none => false
  let s := s.setAng k { a with edgeAt := some s.tick, fast := fast }
  if fast && !a.fast then refLoss k (refFault k 1 s) else s

/-- The shaft turns backwards (R109): the clock holds. -/
def reverseOn (k : Nat) (s : State) : State :=
  let a := s.ang k
  if a.reverse then s else raiseEvent (54 + k) 3 [1] (s.setAng k { a with reverse := true })

/-- The first forward event (R109): the reference takes up from the angle at which the clock held, and the next index
edge has no expected position; in `HOLDOVER` and `FREE` it is a valid reference event. -/
def reverseOff (k : Nat) (s : State) : State :=
  let a := s.ang k
  let s := raiseEvent (54 + k) 3 [0] (s.setAng k { a with
    reverse := false, owe := 0, firstIndex := true, base := a.angle, evIdx := 0, lastEvent := s.tick
    inCycle := 0, cycleAt := s.tick })
  if a.seen == 0 then refFirst k s else if 3 ≤ a.st then angState k 1 s else s

/-- A reference event of a clock (R106, R109, R111). -/
def refEvent (k : Nat) (s : State) : State :=
  let a := s.ang k
  if a.st == 0 || a.fast then s
  else
    let s := if a.reverse then reverseOff k s else if a.seen == 0 then refFirst k s else refUpdate k s
    let rate := (s.ang k).rate
    if rate == 0 || rateInRange rate then refQuiet k s else s

/-- The loop of a `LOCKED` clock over the `n` ticks to its next reference event (R113): while the cycle rate changes by
at most 1 %, it makes up the difference on the way, within the bounds of R111. DESIGN CHOICE (log 51). -/
def track (k n : Nat) (s : State) : State :=
  let a := s.ang k
  let rate := s.measured k (s.tick + n)
  if a.st == 2 && !a.reverse && (rate - a.rate + (a.rate - rate)) * 100 ≤ a.rate then
    let free := ({ a with owe := 0 } : Ang).run (s.angRate k) n
    s.setAng k { a with owe := free.errorTo (s.refAngle k (a.evIdx + 1)) }
  else s

/-- What a level change on a clock's reference lines is (R106 to R109). -/
inductive LineChange where
  /-- No line of the clock changes. -/
  | nothing
  /-- It reverts before `DGL` × 10 ns. -/
  | glitch
  /-- An accepted change that is no reference event. -/
  | level
  /-- A reference event, in `QUAD` mode a forward one. -/
  | event
  | backward
  /-- Both lines of a pair change in one tick. -/
  | illegal
  deriving DecidableEq, Repr

/-- Levels of a clock's lines in the levels of `PREF0` to `PREF5`: the input, or lines A and B of the pair. -/
def State.linesOf (s : State) (k levels : Nat) : Nat :=
  let inp := s.fld (angBase k + 4) 5 3
  if s.angMode k == 2 then bits levels (2 * inp + 1) (2 * inp) else bits levels inp inp

/-- Line A leads line B over one change of one line: after a change of A the levels differ, after one of B they are
the same. -/
def aLeads (old new : Nat) : Bool := (bit old 0 != bit new 0) == (bit new 0 != bit new 1)

/-- What a change is for a clock. -/
def State.lineChange (s : State) (k : Nat) (c : PinChange) : LineChange :=
  let old := (s.ang k).lines
  let new := s.linesOf k c.levels
  if s.angMode k == 3 || old == new then .nothing
  else if c.hold < s.fld (angBase k + 8) 15 8 then .glitch
  else if s.angMode k == 2 then
    if old + new == 3 then .illegal
    else if aLeads old new == s.flag (angBase k + 4) 7 then .backward else .event
  else if bit new 0 != s.flag (angBase k + 4) 6 then .event else .level

/-! ### Wall clock -/

/-- The RTC's 48-bit count of 32.768 kHz periods (R474): the keeper's base and the time since. -/
def State.rtcNow (s : State) : Nat := (s.keeper.rtc + s.tick * 32768 / 100000000) % 2 ^ 48

/-- The keeper's wall-time pair is written (R474). -/
def wallPair (s : State) : State :=
  { s with keeper := { s.keeper with wallNs := s.chicory.wall.ns, wallRtc := s.rtcNow, wallValid := true } }

/-- A wall step (R120): the clock moves, a `WALL` anchor with `STEP` follows before any other
record, and passed targets are settled (R235). -/
def wallStep (ns : Nat) (s : State) : State :=
  passTargets 4 (anchor 4 8 { s with chicory.wall.ns := ns % 2 ^ 64 })

/-- A change of the wall discipline's state emits an anchor (R119, R125). -/
def wallState (st : Nat) (s : State) : State :=
  if s.chicory.wall.st == st then s
  else anchor 4 4 { s with
    chicory.wall.st := st, chicory.wall.heldAt := s.tick, chicory.wall.goodEdges := 0
    chicory.wall.edgeSeen := st != 1 && s.chicory.wall.edgeSeen }

/-- Discipline is on: enabled, and to a source (R119). -/
def State.disciplined (s : State) : Bool := s.flag 0x1100 0 && s.fld 0x1104 1 0 != 0

/-- `WALL_CTRL.ENABLE` set and cleared (R119). -/
def wallOn (s : State) : State :=
  let s := s.setFlag 0x1100 0
  if s.disciplined && s.chicory.wall.st == 4 then
    wallState 1 { s with chicory.wall.edgeSeen := false, chicory.wall.lastEdge := s.tick }
  else s
def wallOff (s : State) : State :=
  wallState 4 { s.clrFlag 0x1100 0 with chicory.wall.adj := 0 }

/-- The rate correction a discipline edge leaves, in 0.01 ppm (R119): it steers the second boundary towards the next
edge and not past it, within ±200 ppm. The loop is not given: its strength is a free value (log 5). -/
def steerAdj (offset : Int) (s : State) : Int :=
  let m := 1 + s.free.toNat % max (min 20000 ((offset.natAbs + 9) / 10)) 1
  if offset < 0 then m else if offset = 0 then 0 else -(m : Int)

/-- The offset of the wall clock from the nearest second boundary at an edge that left its source some ns ago. -/
def State.wallOffset (s : State) (ago : Nat) : Int :=
  let r := (s.chicory.wall.ns + 1000000000 - ago % 1000000000) % 1000000000
  if r < 500000000 then (r : Int) else (r : Int) - 1000000000

/-- A discipline edge that left its source some ns ago (R119, R120). -/
def wallEdge (ago : Nat) (s : State) : State :=
  if !s.disciplined then s
  else
    let s := if 3 ≤ s.chicory.wall.st then wallState 1 s else s
    let offset := s.wallOffset ago
    let step := s.chicory.wall.st == 1 && !s.chicory.wall.edgeSeen && 1000000 < offset.natAbs
    let s := if step then wallStep ((s.chicory.wall.ns : Int) - offset).toNat s else s
    let w := s.chicory.wall
    let good := if offset.natAbs ≤ 1000 then w.goodEdges + 1 else 0
    let s := { s.drawn with chicory.wall := { w with
      edgeSeen := true, ppserr := offset, lastEdge := s.tick, goodEdges := good
      adj := steerAdj (if step then 0 else offset) s } }
    if 4 ≤ good then wallState 2 s else s

/-! ### Captures -/

def State.pcap (s : State) (m : Nat) : Pcap := Tbl.getD {} s.chicory.pcaps m
def State.setPcap (s : State) (m : Nat) (x : Pcap) : State :=
  { s with chicory.pcaps := Tbl.setD {} s.chicory.pcaps m x }

/-- Register base of a capture input (R140). -/
def pcapBase (m : Nat) : Nat := 0x1400 + 16 * m

/-- A `CAPTURE` channel uses an input. -/
def State.pcapUsed (s : State) (m : Nat) : Bool :=
  s.chans.any fun e => e.2.st != 5 && e.2.kind == 7 && e.2.dev == m

/-- An accepted capture edge is dated and queued (R133). -/
def capture (m : Nat) (s : State) : State :=
  let b := pcapBase m
  let x := s.pcap m
  let tb := s.fld b 14 12
  let x := { x with lastWall := s.chicory.wall.ns, lastAng := s.angStamp tb }
  if x.queue.length < 16 then
    s.setPcap m { x with queue := x.queue ++ [(s.chicory.wall.ns, s.angStamp tb, s.holdover tb)] }
  else
    let s := (s.setPcap m x).setFlag b 11
    s.setFld 0x1480 (4 * m + 3) (4 * m) (satInc (s.fld 0x1480 (4 * m + 3) (4 * m)) 15)

/-! ### Sync drivers -/

/-- `PSYNCnn` of a port, and its pin. -/
def psyncReg (p : Nat) : Nat := 0x1300 + 4 * p
def State.psync (s : State) (p : Nat) : PhaseOut := Tbl.getD {} s.chicory.psyncs p
def State.setPsync (s : State) (p : Nat) (x : PhaseOut) : State :=
  { s with chicory.psyncs := Tbl.setD {} s.chicory.psyncs p x }

/-- A sync pattern on a port (R246). -/
def State.syncPat (s : State) (p : Nat) : SyncPat := Tbl.getD {} s.sched.syncs p
def State.setSyncPat (s : State) (p : Nat) (x : SyncPat) : State :=
  { s with sched.syncs := Tbl.setD {} s.sched.syncs p x }

/-- A port's sync driver is active (R132). DESIGN CHOICE (log 52): `LEVEL` is the one of R128 that needs no `CLR`, active for
`WIDTH` × 10 ns, and held longer while the clock holds (R130). -/
def State.psyncOn (s : State) (p : Nat) : Bool :=
  (s.psync p).on s.tick || ((s.psync p).active && s.flag (psyncReg p) 2 &&
    (s.syncPat p).sched.tb < 4 && s.angHolds (s.syncPat p).sched.tb)

/-- Level of a port's sync driver, in the sense of `POL` (R132). -/
def State.psyncPin (s : State) (p : Nat) : Bool := s.psyncOn p != s.flag (psyncReg p) 3

/-- A sync target falls due (R132): a pulse, or a drop while SBU is not at `PSYNC`. The pin edge follows the crossing by
40 ns (R129). -/
def psyncFire (p : Nat) (s : State) : State :=
  let x := s.syncPat p
  let s := s.setSyncPat p { x with next := x.sched.nextFrom (x.next + 1) }
  if (s.port p).pd.sbu != 2 then s.incFld 0x13C0 31 16
  else if s.flag (psyncReg p) 0 then
    s.setPsync p { active := true, endsAt := some (s.tick + s.fld (psyncReg p) 19 4) }
  else s

/-! ### Phase link -/

/-- The link's receiver runs. -/
def State.linkOn (s : State) : Bool := s.flag 0x1500 0

/-- A local source wins over a slot that also arrives (R138): reported while the flag is clear. -/
def slotConflict (i : Nat) (s : State) : State :=
  if s.flag 0x1504 (16 + i) && !s.flag 0x1500 11 then
    raiseEvent (54 + s.slotClk i) 4 [byte i] (s.setFlag 0x1500 11)
  else s

/-- A follower compares its count at a mark with the source's (R139): it adopts it after enable,
jumps forward when behind, holds at 0xFFFF when ahead; a jump emits an anchor (R235), with `STEP`. DESIGN CHOICE (log 53): the adoption waits for a mark whose count
a frame has given, and a held follower goes on at the mark that takes the source past the held count. -/
def linkCount (k count : Nat) (s : State) : State :=
  let a := s.ang k
  let own := if a.angle < 32768 then a.cycle else a.cycle + 1
  let skew := raiseEvent (54 + k) 5 (le 6 a.cycle)
  let jump (s : State) : State := passTargets k (anchor k 8 s)
  if a.adopt && a.pos ≤ count * 65536 then
    jump (s.setAng k { a with cycle := count, angle := s.refAngle k 0, adopt := false })
  else
    let a := { a with adopt := false }
    match a.linkHold with
    | some h => if h < count then s.setAng k { a with linkHold := none } else s
    | none =>
      if own < count then jump (skew (s.setAng k { a with cycle := a.cycle + (count - own) }))
      else if count < own then skew (s.setAng k { a with linkHold := some a.cycle })
      else s.setAng k a

/-- A cycle mark of a slot for one of its clocks (R137, R139). -/
def linkMarkFor (k : Nat) (count : Option Nat) (s : State) : State :=
  let s := refEvent k (edgeRate k s)
  match count with
  | some c => linkCount k c s
  | none => s

/-- A received cycle mark (R137, R138, R139). Each mark after a frame counts one cycle on. A slot that no clock of this
chip follows is sent on as it arrives (DESIGN CHOICE, log 53). -/
def linkCycleMark (i : Nat) (s : State) : State :=
  let s := slotConflict i s
  let l := s.chicory.plink
  let known := (Tbl.getD none l.counts i).map fun c => (c.1 + 1, c.2)
  let l := { l with marks := Tbl.setD none l.marks i (some s.tick)
                    counts := Tbl.setD none l.counts i known
                    outMarks := if s.flag 0x1500 2 && s.slotOut i == none then
                        Tbl.setD none l.outMarks i (some s.tick) else l.outMarks }
  let s := { s with chicory.plink := l }
  (s.linkClocks i).foldl (fun s k => linkMarkFor k (known.map (·.1)) s) s

/-- A received second mark (R119, R136, R137): the frames begin anew after it. -/
def linkSecondMark (s : State) : State :=
  let s := { s with
    chicory.plink.wallMark := some s.tick, chicory.plink.rxBits := [], chicory.plink.rxSkip := false
    chicory.plink.outWall := if s.flag 0x1500 2 && !s.wallOut then some s.tick else s.chicory.plink.outWall }
  if s.fld 0x1104 1 0 == 2 then wallEdge (s.fld 0x1504 11 0) s else s

/-- A width or CRC error (R135, R140). -/
def frameError (s : State) : State := (s.setFlag 0x1500 12).incFld 0x1508 15 8

/-- A frame whose CRC fails (R108, R140): a reference fault for its slot's clocks. -/
def linkFrameBad (ty : Nat) (s : State) : State :=
  let s := frameError s
  if 16 ≤ ty && ty < 20 then (s.linkClocks (ty - 16)).foldl (fun s k => refFault k 5 s) s else s

/-- An accepted wall frame (R120, R122, R474): a follower 1 ms or more away steps to it. -/
def linkWallFrame (ns : Nat) (s : State) : State :=
  let s := { s with chicory.plink.wallFrame := ns }
  if s.fld 0x1104 1 0 == 2 && s.flag 0x1100 0 then
    let since := match s.chicory.plink.wallMark with
      | some t => 10 * (s.tick - t) + s.fld 0x1504 11 0
      | none => 0
    let now := ns + since
    let s := if 1000000 ≤ ((s.chicory.wall.ns : Int) - now).natAbs then wallStep now s else s
    wallPair { s with chicory.wall.valid := true }
  else s

/-- A number sent most significant byte first (R136). -/
def rdBe (l : List Byte) : Nat := rdLe l.reverse

/-- A received frame (R136): type byte, payload, CRC-8. -/
def linkFrameIn (f : List Byte) (s : State) : State :=
  let ty := u8 f 0
  let body := f.dropLast
  if crc8 body != (f.getLastD 0).toNat then linkFrameBad ty s
  else if ty == 1 then linkWallFrame (rdBe (slice body 1 8)) s
  else
    let c := some (rdBe (slice body 1 6), u8 body 7)
    { s with chicory.plink.counts := Tbl.setD none s.chicory.plink.counts (ty - 16) c }

/-- Eight bits to a byte, most significant first. -/
def bitsToBytes : Nat → List Bool → List Byte
  | 0, _ => []
  | n + 1, l => byte ((l.take 8).foldl (fun a b => 2 * a + b2n b) 0) :: bitsToBytes n (l.drop 8)

/-- Bits of a frame with its CRC by its type byte (R136); none for a type of no frame. -/
def frameBits (ty : Nat) : Option Nat :=
  if ty = 1 then some 80 else if 16 ≤ ty ∧ ty < 20 then some 72 else none

/-- A received data bit (R136): the frame is taken up across the marks within it. -/
def linkBit (b : Bool) (s : State) : State :=
  let l := s.chicory.plink
  let got := l.rxBits ++ [b]
  let store (x : List Bool) (skip : Bool) : State :=
    { s with chicory.plink.rxBits := x, chicory.plink.rxSkip := skip }
  if l.rxSkip then s
  else if got.length < 8 then store got false
  else match frameBits (u8 (bitsToBytes 1 got) 0) with
  | none => frameError (store [] true)
  | some n => if got.length < n then store got false else linkFrameIn (bitsToBytes (n / 8) got) (store [] false)

/-- A pulse width is one of the code's, within ±40 ns (R135). -/
def nearWidth (width code : Nat) : Bool := code ≤ width + 40 && width ≤ code + 40

/-- The slot whose cycle mark a width is (R135). -/
def markSlot (width : Nat) : Option Nat := (List.range 4).find? fun i => nearWidth width (400 + 100 * i)

/-- One outgoing frame: type byte, payload most significant byte first, CRC-8 (R136). -/
def linkFrameOut (ty n v : Nat) : List Byte :=
  let b := byte ty :: (le n v).reverse
  b ++ [byte (crc8 b)]

/-- The frames after a second mark (R136 to R138): the wall frame, then each slot sourced or forwarded, from the
chip's own clocks where they carry it. -/
def linkFrames (s : State) : List (List Byte) :=
  let wall := if s.wallOut then [linkFrameOut 1 8 (s.chicory.wall.ns / 1000000000 * 1000000000)]
    else match s.chicory.plink.wallMark with
    | some _ => [linkFrameOut 1 8 s.chicory.plink.wallFrame]
    | none => []
  let slot (i : Nat) : List (List Byte) :=
    match s.slotOut i with
    | some k => [linkFrameOut (16 + i) 7 ((s.ang k).cycle * 256 + (s.ang k).st)]
    | none => match Tbl.getD none s.chicory.plink.counts i with
      | some c => [linkFrameOut (16 + i) 7 (c.1 * 256 + c.2)]
      | none => []
  wall ++ (List.range 4).flatMap slot

/-- The ticks of the marks the transmitter foresees (R136): the next wrap of each clock it emits from, and the next
second of its wall clock. -/
def State.foreseen (s : State) : List Nat :=
  ((List.range 4).filterMap fun i => match s.slotOut i with
    | some k => if s.angHolds k then none
        else some (s.tick + s.crossed k (((s.ang k).cycle + 1) * 65536))
    | none => none) ++
  (if s.wallOut then [s.tick + s.chicory.wall.ticksTo ((s.chicory.wall.ns / 1000000000 + 1) * 1000000000)] else [])

/-- The first tick from `t` on at which a 500 ns data cell keeps clear of the 1 µs before every mark foreseen (R136);
DESIGN CHOICE (log 53): a deferred cell follows 1 µs after the mark. -/
def cellAt (marks : List Nat) (t : Nat) : Nat :=
  marks.foldl (fun t _ => marks.foldl (fun t m => if m < t + 150 && t < m + 100 then m + 100 else t) t) t

/-- The pulses of a burst (R135, R136): bit by bit, most significant first, 100 ns for 0 and 200 ns for 1. -/
def linkCells (marks : List Nat) (start : Nat) (l : List (List Byte)) : List (Nat × Nat) :=
  (l.flatten.foldl (fun (acc : List (Nat × Nat) × Nat) b =>
    (List.range 8).foldl (fun (acc : List (Nat × Nat) × Nat) i =>
      let t := cellAt marks acc.2
      (acc.1 ++ [(t, if bit b.toNat (7 - i) then 200 else 100)], t + 50)) acc) ([], start)).1

/-- The link's configuration changes while it runs (R288): its clocks see reference loss. -/
def linkRestart (s : State) : State :=
  (List.range 4).foldl (fun s k => if s.angMode k == 3 then refLoss k s else s) s

end Sys2Proof.Machine
end

