-- ==== Sys2Proof/Machine/PortOps.lean ====
section
/-!
DEFINITION. The shared operations of a port's USB side (chapter 5): resets and resumes and their
collisions (R163, R165), the strike test (R22), the mode change (R150), an upstream reset (R158).
-/

namespace Sys2Proof.Machine

/-- Register base of a port (R172). -/
def portBase (p : Nat) : Nat := 0x2000 + 16 * p

/-- A group engine runs: not restarting, not held, its domain ON (R24, R152, R456). -/
def State.groupUp (s : State) (g : Nat) : Bool := (s.group g).engine == 0 && (s.dom (3 + g)).st == 0

/-- A group is stopped (R199), by `chan.stop_group` or by the first step of its test (R507). -/
def State.groupStopped (s : State) (g : Nat) : Bool :=
  (s.group g).stopped || (s.test.bist == 1 && s.test.bistOf == g)

/-- The hub has a USB host (R14). -/
def State.usbHost (s : State) : Bool := !s.straps.hostsel || s.boot.rescue.isSome

/-- The port a hub port names (R6), where it is transparent; the embedded port's number. -/
def State.hubPortOf (s : State) (h : Nat) : Option Nat :=
  if 1 ≤ h && h ≤ s.nPorts && (s.port (h - 1)).usb.transparent then some (h - 1) else none
def State.embeddedPort (s : State) : Nat := s.nPorts + 1

/-- A reset is driven (R143, R165): it abandons a resume, whose command is answered as superseded.
`who`: 1 attach, 2 host, 3 command, 4 surge, 5 babble, 6 mode change. -/
def startReset (p who : Nat) (s : State) : State :=
  let s := wireDrop p (completeWhere (fun w => w == .portSuspend p) .wrongState [] s)
  let s := completeWhere (fun w => w == .portResume p) .ok [2] s
  let s := setPortState p 7 0 s
  activateHeld p (s.modUsb p fun u => { u with
    resetting := some who, resetAt := s.tick, resuming := 0, remoteWake := false, selSusp := false
    debounce := none, enumerated := false, heldAddrs := [], hubOff := [], sofPend := false })

/-- A resume window opens on a suspended port (R163, R165). -/
def startResume (p : Nat) (s : State) : State :=
  if (s.port p).usb.resuming == 1 then s
  else s.modUsb p fun u => { u with resuming := 1, resetAt := s.tick }

/-! ### Power domains: pads, the core supply and wakes (R456 to R470) -/

/-- Ports a domain suspended resume (R458). -/
def unprepareDom (d : Nat) (s : State) : State :=
  if isGrp d then
    (List.range 8).foldl (fun s i =>
      let p := 8 * (d - 3) + i
      if (s.port p).usb.domSusp then
        let s := s.modUsb p fun u => { u with domSusp := false }
        if (s.port p).usb.st == 9 then startResume p s else s
      else s) s
  else s

/-- Levels the pads of a bank are driven to now (R128). -/
def State.bankLevels (s : State) (g : Nat) : Nat :=
  maskOf ((List.range 8).map (8 * g + ·) |>.filter fun n => s.phoPin n == some true)

/-- The pad bank of G0 or G1 is held at its levels, or floats, from AP2, and is freed (R4, R467); only a hold posts
EV103. -/
def padHold (d : Nat) (on : Bool) (s : State) : State :=
  let g := d - 3
  if !(d = 3 || d = 4) || s.power.held.contains g == on then s
  else
    let others := s.power.padLevel - (s.power.padLevel &&& 255 * 256 ^ g)
    let s := { s with
      power.held := if on then addSorted g s.power.held else s.power.held.filter (· != g)
      power.padLevel := if on && s.variant = .svh16 then others + s.bankLevels g else others }
    if s.variant = .svh16 then raiseEvent 103 1 [byte g, byte (b2n on)] s else s

/-- A `VCORE` value is asked for (R469, R470): written at once, or once what is pending has ended. -/
def vcoreAsk (mv : Nat) (s : State) : State :=
  match s.power.vcorePend with
  | some (m, _) => if m == mv then { s with power.vcoreNext := none } else { s with power.vcoreNext := some mv }
  | none =>
    if s.power.vcoreMv == mv then s else { s with power.vcorePend := some (mv, 1), power.vcoreAt := s.tick }

/-- Entry is abandoned at the next abort point (R462): pads are freed, and suspended ports resume. -/
def abandonEntry (d src : Nat) (s : State) : State :=
  if (s.dom d).entry.isNone then s else unprepareDom d (padHold d false (abandonAt d src s))

/-- A wake from RET or OFF begins (R460); a group's waits for `VCORE`. -/
def beginWake (d src at_ : Nat) (s : State) : State :=
  let s := wakeFrom d src at_ s
  if isGrp d then vcoreAsk 800 s else s

/-- A source enabled for a domain (R461). -/
def State.wakeEnabled (s : State) (d src : Nat) : Bool :=
  src == 8 || src == 9 || (src == 4 && (d = 0x0A || d = 0x0B) && (s.dom d).st == 1) ||
    (src ≤ 5 && bit (s.fld (domBase d + 8) 5 0) src)

/-- An enabled wake source acts on a domain (R461 to R463). -/
def domWake (d src : Nat) (s : State) : State :=
  if s.warden.safe then s
  else
    let s := if 8 ≤ src then s.setDom d { s.dom d with idleAt := s.tick } else s
    let x := s.dom d
    match x.entry with
    | some _ =>
      if x.ap < 3 then abandonEntry d (src % 16) s
      else s.setDom d { x with wakeAfter := some (src, s.tick), lastSrc := src % 16, wakeTime := s.time32 }
    | none => if x.st = 0 || x.wake.isSome then s else beginWake d src s.tick s

/-- A masked source acts on every domain that enables it. -/
def wakeAll (src : Nat) (s : State) : State :=
  ((List.range 33).filter fun d => domainExists s.variant d && s.wakeEnabled d src).foldl
    (fun s d => domWake d src s) s

/-- A CC attach on a port wakes the domains of the port that enable it (R461). -/
def attachWake (p : Nat) (s : State) : State :=
  ((s.portDoms p).filter fun d => s.wakeEnabled d 4).foldl (fun s d => domWake d 4 s) s

/-- A connect or a remote wake on a concentrated port is a demand on its group (R461). -/
def connectWake (p : Nat) (s : State) : State :=
  if (s.port p).usb.transparent then s else domWake (3 + p / 8) 8 s

/-- The speed a reset settles (R144, R145): 1 low, 2 full, 3 high. -/
def resetSpeed (p : Nat) (chirp : Chirp) (s : State) : Nat :=
  let u := (s.port p).usb
  if u.pull == 2 then 1
  else if s.fld (portBase p + 4) 1 0 == 1 || (u.transparent && s.hub.upSpeed == 2) then 2
  else match chirp with
  | .high => 3
  | _ => 2

/-- A signature in the strike test of R22: one that counts with another of its port (R166) only puts off the quiet
time. DESIGN CHOICE (log 55): signatures less than 10 ms apart fall in one window, and more than 10 ms without
one end the hold. -/
def strikeTest (p : Nat) (counts : Bool) (s : State) : State :=
  let k := s.strike
  if !counts || (k.raised && s.tick - k.last ≤ ticksMs 10) then { s with strike := { k with last := s.tick } }
  else
    let old := if k.raised then [] else k.seen.filter fun e => s.tick - e.1 < ticksMs 10
    let seen := (s.tick, (p, s.chicory.wall.ns)) :: old
    let ports := (List.range 48).filter fun n => seen.any fun e => e.2.1 == n
    let groups := (List.range 6).filter fun g => ports.any fun n => n / 8 == g
    let first := (seen.getLast?.map (·.2.2)).getD s.chicory.wall.ns
    if 6 ≤ ports.length && 2 ≤ groups.length then
      faultPulse 105 { s with
        strike := { seen := [], raised := true, last := s.tick, firstWall := first }
        keeper := { s.keeper with ltnCount := satInc s.keeper.ltnCount 65535, ltnWall := first } }
    else { s with strike := { k with seen := seen, raised := false, last := s.tick } }

/-- A surge recovery is counted; the ninth within 1 s is refused (R169). -/
def recoveryFull (p : Nat) (s : State) : Bool :=
  8 ≤ ((s.port p).usb.recoveries.filter fun t => s.tick - t < ticksS 1).length
def noteRecovery (p : Nat) (s : State) : State :=
  s.modUsb p fun u => { u with
    recoveries := (s.tick :: u.recoveries.filter fun t => s.tick - t < ticksS 1).take 8 }

/-- The change of R150. Port power and the contract stay; a port that turns CONCENTRATED takes its over-current out of
the hub's (R157), shows automatic indication (R160), and its translator's buffers are discarded. -/
def switchMode (p : Nat) (transp : Bool) (s : State) : State :=
  if transp then toTransparent p s
  else
    let s := (stepsOver p s).modUsb p fun u => { u with
      transparent := false, resetting := none, resuming := 0, remoteWake := false, selSusp := false
      debounce := none, enumerated := false, babbleAt := none, babbleReset := none
      changes := 1, indicator := 0, testSel := 0 }
    let s := overClear p { s with hub.tt := Tbl.erase s.hub.tt (p + 1) }
    let s := if (s.port p).usb.pull != 0 && 6 ≤ (s.port p).usb.st then startReset p 6 s else s
    raiseEvent p 4 [0] s

/-- An interruption of the session (R95, R101, R273, R275): `RESYNC_PEND` and EV107. -/
def sessionCut (cause : Nat) (s : State) : State :=
  raiseEvent 107 1 [byte cause] { s with cci.resyncPend := true }

/-- An upstream bus reset or detach (R158): the hub function returns to its default state. -/
def hubDefault (s : State) : State :=
  let s := { s with hub := { s.hub with
    configured := false, suspended := false, multiTt := false, rwake := false, resumeUp := false
    casideSuspended := false, casideRwake := false, splits := 0, tt := [] }, cci.wakeUp := false }
  (List.range s.nPorts).foldl (fun s p =>
    let u := (s.port p).usb
    if u.transparent && 8 ≤ u.st && u.st ≤ 10 then
      (setPortState p 7 0 s).modUsb p fun u => { u with
        resetting := none, resuming := 0, remoteWake := false, selSusp := false, reportOnConfig := true }
    else if u.transparent && u.st == 7 then s.modUsb p fun u => { u with reportOnConfig := true }
    else s) s

/-- `OC_MODE` is sampled (R157). -/
def sampleOc (s : State) : State := { s with hub.ocActive := s.flag 0x2400 0 }

/-- A front end stops or starts with `PORTnn_CTRL.ENABLE` (R172): at 0 after the transaction on the wire. -/
def portFrontOff (p : Nat) (s : State) : State :=
  if (s.onWire p).isSome then s.modUsb p fun u => { u with stopping := true } else frontStop p s
def portFrontOn (p : Nat) (s : State) : State := s.modUsb p fun u => { u with running := true, stopping := false }

end Sys2Proof.Machine
end

