-- ==== Sys2Proof/Machine/Admission.lean ====
section
/-!
DEFINITION. Schedule specifications (R211), endpoints of a device (R174, R187), admission (R213 to
R232), and allotting a slot (R189).
-/

namespace Sys2Proof.Machine

/-! ### Specifications -/

/-- Every element of a list lies below the next. -/
def ascending : List Nat → Bool
  | a :: b :: t => a < b && ascending (b :: t)
  | _ => true

/-- A schedule specification (R211, R212), none where a field is out of range. -/
def parseSpec (b : List Byte) : Option SchedSpec :=
  let p : SchedSpec := {
    tb := u8 b 0, cls := u8 b 1, pattern := u8 b 2, count := u16 b 4, start := u16 b 6, step := u16 b 8
    div := u16 b 10, cphase := u16 b 12, maxRate := u32 b 16, period := u32 b 20, offset := u32 b 24
    blockRes := u32 b 28
    angles := if u8 b 2 = 1 then (List.range 16).map fun i => u16 b (48 + 2 * i) else [] }
  let len := if p.pattern = 1 then 80 else 48
  let ok := b.length == len && p.tb ≤ 4 && p.cls ≤ 1 && p.pattern ≤ 1 && u8 b 3 == 0 && u16 b 14 == 0 &&
    allZero b 32 48 && (if p.cls == 0 then p.blockRes ≤ 1000000 else p.blockRes == 0)
  let wall := p.count == 1 && p.start == 0 && p.step == 0 && p.div == 0 && p.cphase == 0 &&
    p.maxRate == 0 && allZero b 48 80 && 125 ≤ p.period && p.period ≤ 4000000000 && p.offset < p.period
  let cycle := 1 ≤ p.div && p.cphase < p.div && 500 ≤ p.maxRate && p.maxRate ≤ 1000000 &&
    p.period == 0 && p.offset == 0 && 1 ≤ p.count
  let uniform := p.count ≤ 1024 && (if p.count == 1 then p.step == 0 else 1 ≤ p.step) &&
    p.start + (p.count - 1) * p.step ≤ 65535
  let listed := p.count ≤ 16 && p.start == 0 && p.step == 0 && ascending (p.angles.take p.count) &&
    (p.angles.drop p.count).all (· == 0)
  if ok && (if p.tb == 4 then wall else cycle && (if p.pattern == 1 then listed else uniform)) then some p
  else none

/-- The bytes of a specification of the length its pattern has. -/
def specLen (b : List Byte) : Nat := if u8 b 2 = 1 then 80 else 48

/-! ### Endpoints -/

/-- The endpoint descriptor of an address in a configuration descriptor, alternate setting 0 of each
interface: type, packet size, transactions per microframe. -/
def findEp : Nat → Nat → Nat → List Byte → Option (Nat × Nat × Nat)
  | 0, _, _, _ => none
  | n + 1, ep, alt, l =>
    if u8 l 0 < 2 then none
    else if u8 l 1 = 5 && u8 l 2 = ep && alt = 0 then
      some (u8 l 3 % 4, u16 l 4 % 2048, u16 l 4 / 2048 % 4 + 1)
    else findEp n ep (if u8 l 1 = 4 then u8 l 3 else alt) (l.drop (u8 l 0))

/-- An endpoint of a device: address 0 is the control endpoint every device has. -/
def Device.endpoint (d : Device) (ep : Nat) : Option (Nat × Nat × Nat) :=
  if ep % 128 = 0 then some (0, u8 d.desc.devDesc 7, 1)
  else match findEp d.desc.cfgDesc.length ep 0 d.desc.cfgDesc with
  | some (t, m, k) => some (t, m, if d.desc.speed = 3 && (t = 1 || t = 3) then k else 1)
  | none => none

/-- The endpoint suits a channel kind (R187): direction and type. -/
def epFits (kind ep ty : Nat) : Bool :=
  match kind with
  | 1 => 128 ≤ ep && ty != 0
  | 2 => ep < 128 && ty != 0
  | 3 => ty == 0
  | 4 => 128 ≤ ep && ty == 2
  | _ => ep < 128 && ty == 2

/-! ### Durations -/

/-- Duration of one transaction in ns (R224). -/
def txnNs (bus n : Nat) : Nat :=
  if bus = 3 then (12000 + 195 * n + 9) / 10
  else if bus = 2 then 10100 + 778 * n
  else 80700 + 6223 * n

/-- Kinds that use a port's bus. -/
def Chan.onBus (c : Chan) : Bool := 1 ≤ c.kind && c.kind ≤ 5

/-- A channel's transaction time (R224): its packets back to back. -/
def Chan.txTime (c : Chan) : Nat :=
  let extra := if c.bus = 3 && c.speed < 3 then 4 else 0
  let m := max c.mps 1
  let full := c.payload / m
  let rest := c.payload % m
  full * txnNs c.bus (m + extra) + (if rest = 0 then 0 else txnNs c.bus (rest + extra))

/-- The floor of a port's block time (R225). -/
def blockFloor (bus : Nat) : Nat := if bus = 3 then 2448 else if bus = 2 then 59892 else 130484

/-- A guaranteed schedule. -/
def Chan.guaranteed (c : Chan) : Bool := c.periodic && c.sched.cls == 0

/-- The channel counts in the checks of bus and time (R200): not once it closes and its wire is idle. -/
def Chan.counts (c : Chan) : Bool := c.st != 5 && !(c.st == 4 && !c.closing)

/-- The block time a set of channels gives a port (R225). -/
def blockTime (bus : Nat) (l : List Chan) : Nat :=
  l.foldl (fun n c => max (max n c.txTime) (if c.guaranteed then c.sched.blockRes else 0)) (blockFloor bus)

/-- The ceiling of a schedule (R213), mHz. -/
def State.schedCeiling (s : State) (p : SchedSpec) : Nat :=
  let f := s.fld (angBase p.tb + 0x14) 31 0
  if !s.flag (angBase p.tb + 0x0C) 13 && p.maxRate < f then f else p.maxRate

/-! ### Spacing and bus window (checks 3 and 4) -/

/-- Two rising lists of (time, weight) in one. -/
def mergeTimes : Nat → List (Nat × Nat) → List (Nat × Nat) → List (Nat × Nat)
  | 0, a, b => a ++ b
  | _ + 1, [], b => b
  | _ + 1, a, [] => a
  | n + 1, x :: a, y :: b =>
    if x.1 ≤ y.1 then x :: mergeTimes n a (y :: b) else y :: mergeTimes n (x :: a) b

/-- The targets of a set of guaranteed channels in one cycle, or one largest period, in the units of
the time base, each with its transaction time + 2,000 ns; and the length of that cycle (R229). -/
def placed (l : List Chan) : List (Nat × Nat) × Nat :=
  match l with
  | [] => ([], 65536)
  | c0 :: _ =>
    let span := if c0.sched.tb = 4 then l.foldl (fun n c => max n c.sched.period) 1 else 65536
    (l.foldl (fun acc c =>
      let w := c.txTime + 2000
      let t := if c0.sched.tb = 4 then
          (List.range (span / max c.sched.period 1)).map fun i => (c.sched.offset + i * c.sched.period, w)
        else (List.range c.sched.count).map fun i => (c.sched.angleAt i, w)
      mergeTimes (acc.length + t.length) acc t) [], span)

/-- The smallest step between neighbours of a rising list, and from its last to its first in the next
cycle. -/
def minGap (span : Nat) (l : List Nat) : Nat :=
  match l with
  | [] => span
  | f :: _ =>
    let rec go : List Nat → Nat → Nat
      | a :: b :: t, m => go (b :: t) (min m (b - a))
      | [z], m => min m (f + span - z)
      | [], m => m
    go l span

/-- Units of a time base to 10^-12 s: au × 10^12 × 10^3 / (65,536 × mHz), or µs (R229); as a fraction
(numerator for one unit, denominator), in ns. -/
def unitNs (tb rate : Nat) : Nat × Nat := if tb = 4 then (1000, 1) else (1000000000000, 65536 * max rate 1)

/-- Peak occupancy of the bus window (check 4): the greatest sum of transaction time + 2,000 ns over a
window that begins at a target. -/
def peakWindow (winNs : Nat) (u : Nat × Nat) (span : Nat) (pts : List (Nat × Nat)) : Nat :=
  let win := winNs * u.2 / u.1
  let reps := win / max span 1 + 2
  let ext := ((List.range reps).map fun k => pts.map fun e => (e.1 + k * span, e.2)).flatten
  pts.foldl (fun m e => max m (ext.foldl (fun n x =>
    if e.1 ≤ x.1 && x.1 ≤ e.1 + win then n + x.2 else n) 0)) 0

/-- Highest ceiling among guaranteed schedules (R229). -/
def State.topCeiling (s : State) (l : List Chan) : Nat :=
  l.foldl (fun n c => max n (s.schedCeiling c.sched)) 0

/-! ### Upstream budget (check 8) -/

/-- The upstream budget in B/s (R230). Before any upstream link has attached it is that of a
high-speed host. -/
def State.budgetDefault (s : State) : Nat :=
  if s.straps.hostsel || s.domain.chipNum != 0 then 4000000
  else if s.hub.upSpeed == 2 then 700000 else 20000000
def State.upBudget (s : State) : Nat := min (s.sched.budget.getD s.budgetDefault) s.budgetDefault

/-- Bytes a target adds to the stream (R230). -/
def Chan.streamBytes (c : Chan) : Nat :=
  if c.kind == 2 && bit c.opts 1 then 16 else 16 + round8 c.payload

/-- A channel's load on the budget at a ceiling, in 10^-3 B/s, rounded up (R230). -/
def Chan.loadAt (c : Chan) (ceiling : Nat) : Nat :=
  if !c.stream || !c.periodic then 0
  else
    let p := c.sched
    if p.tb = 4 then (c.streamBytes * 1000000000 + max p.period 1 - 1) / max p.period 1
    else (c.streamBytes * ceiling * p.count + max p.div 1 - 1) / max p.div 1
def State.chanLoad (s : State) (c : Chan) : Nat := c.loadAt (s.schedCeiling c.sched)

/-- The load of the channels that are relayed from children (R230). -/
def State.relayLoad (s : State) : Nat :=
  s.domain.children.foldl (fun n e => e.2.loads.foldl (fun n x => if x.2.2 then n + x.2.1 else n) n) 0

/-- The load of a set of the chip's channels, with those relayed. -/
def State.loadOf (s : State) (l : List Chan) : Nat :=
  l.foldl (fun n c => if c.counts && !(c.st == 3 && c.cause == 4) then n + s.chanLoad c else n) s.relayLoad

/-! ### The checks (R228) -/

/-- The channels open now, the anchor channel apart, with their slots. -/
def State.chanSet (s : State) : List (Nat × Chan) := s.chans.filter fun e => e.1 != 0 && e.2.st != 5

/-- A port's sync pattern takes a guaranteed entry (R246). -/
def State.syncEntries (s : State) (p : Nat) : Nat := b2n (Tbl.getD {} s.sched.syncs p).on

/-- Space of the buffer pool (R194), the latest-value area (R197), the descriptor rings (R195) and the
history rings (R198) taken by a set. -/
def poolOf (l : List Chan) : Nat :=
  l.foldl (fun n c => if c.ringed then n else n + (2 * c.payload + 63) / 64 * 64) 0
def latestOf (l : List Chan) : Nat :=
  l.foldl (fun n c => if c.toLatest then n + round8 (16 + c.payload) else n) 0
def ringPagesOf (l : List Chan) : Nat :=
  l.foldl (fun n c => if c.ringed then n + (2064 * c.ringDesc + 4095) / 4096 else n) 0
def histBytesOf (l : List Chan) : Nat :=
  l.foldl (fun n c => if c.toHistory then n + 2 ^ c.histLog2 else n) 0

/-- The lowest check that fails for a candidate beside the others (R228, R241), 0 where all pass.
`syncs` is the number of sync patterns on the candidate's port, `isNew` whether it takes a slot. -/
def admission (s : State) (others : List Chan) (c : Chan) (syncs : Nat) (isNew : Bool) : Nat :=
  let all := c :: others
  let onPort := (others.filter fun o => o.onBus && o.port == c.port && o.counts)
  let bt := blockTime c.bus (c :: onPort)
  let gs := (c :: onPort).filter Chan.guaranteed
  let own := if isNew || !c.guaranteed || c.blockTime == 0 then [] else [c.blockTime]
  let admitted := own ++ (onPort.filter Chan.guaranteed).map (·.blockTime)
  let lanes (g : Bool) := ((c :: others).filter fun o =>
    o.onBus && o.periodic && o.port == c.port && o.st != 4 && o.guaranteed == g).length
  let slots := isNew && 4095 < all.length + s.sched.quarantined.length
  let u := unitNs c.sched.tb (s.topCeiling gs)
  let pl := placed gs
  let hs := c.bus == 3
  let mixed := !(gs.all fun o => o.sched.tb == c.sched.tb)
  if slots || (c.periodic && c.guaranteed && 64 < lanes true + syncs) ||
      (c.periodic && !c.guaranteed && 32 < lanes false) then 1
  else if c.onBus && admitted.any fun a => a < bt then 2
  else if c.guaranteed && !mixed && ((c.sched.tb == 4 && !(gs.all fun o => pl.2 % max o.sched.period 1 == 0)) ||
      minGap pl.2 (pl.1.map (·.1)) * u.1 < (bt + 2000) * u.2) then 3
  else if c.guaranteed && !mixed && (if hs then 100000 else 900000) <
      peakWindow (if hs then 125000 else 1000000) u pl.2 pl.1 + bt then 4
  else if c.periodic &&
      (let v := unitNs c.sched.tb (s.schedCeiling c.sched)
       let gap := if c.sched.tb == 4 then c.sched.period
         else minGap (65536 * max c.sched.div 1) ((List.range c.sched.count).map c.sched.angleAt)
       let lim := if c.speed == 3 then 125000 else 1000000
       gap * v.1 * (if c.speed == 3 then max c.mult 1 else 1) < lim * v.2) then 5
  else if c.guaranteed && mixed then 6
  else if 6291456 < poolOf all || JournalArea.latest.size < latestOf all || s.regionPages 0x10 < ringPagesOf all ||
      s.regionPages 0x11 * 4096 < histBytesOf all || 32 < (all.filter Chan.ringed).length then 7
  else if c.stream && s.upBudget * 950 < s.loadOf all then 8
  else 0

/-- The candidate as admitted (R226): its block time with the channel included, and `LATE_BOUND`. -/
def admitted (others : List Chan) (c : Chan) : Chan :=
  if !c.guaranteed then { c with lateBound := 0, blockTime := 0 }
  else
    let bt := blockTime c.bus (c :: others.filter fun o => o.onBus && o.port == c.port && o.counts)
    { c with blockTime := bt, lateBound := bt + 2000 + (if c.behind then 125000 else 0) }

/-! ### Slots -/

/-- The slot the next open takes (R189): never used, the lowest first; then the one free longest. -/
def State.nextSlot (s : State) : Option Nat :=
  match (List.range 4096).find? fun n => n != 0 && (s.chan n).gen == 0 with
  | some n => some n
  | none => s.sched.freed.head?

/-- Memory a channel needs (R194, R195, R198): lines of the pool, pages of `RING`, pages of `HIST`. -/
def Chan.memNeed (c : Chan) : List (Nat × Nat) :=
  [(0, if c.ringed then 0 else (2 * c.payload + 63) / 64),
   (1, if c.ringed then (2064 * c.ringDesc + 4095) / 4096 else 0),
   (2, if c.toHistory then 2 ^ c.histLog2 / 4096 else 0)]

/-- A channel takes a slot at its next generation (R188, R189), and its memory. -/
def placeChan (c : Chan) (s : State) : Option (Nat × State) :=
  match s.nextSlot with
  | none => none
  | some n =>
    let g := (s.chan n).gen + 1
    let s := { s with sched.freed := s.sched.freed.filter (· != n), sched.nextOrd := s.sched.nextOrd + 1 }
    some (n, allocChan n c.memNeed (s.setChan n { c with gen := g, ord := s.sched.nextOrd }))

/-! ### Opening -/

/-- Judge the parameters of an open (R186, R187, R378) and build the channel, or say why not. -/
def openParse (s : State) (target : Nat) (q : List Byte) : Except Status Chan :=
  let kind := u8 q 0
  let ep := u8 q 1
  let dl := u8 q 2
  let opts := u8 q 3
  let payload := u16 q 4
  let rd := u16 q 8
  let usb := 1 ≤ kind && kind ≤ 5
  let d := s.dev (tIndex target)
  let port := if usb then d.port else 48
  let plain := 1 ≤ kind && kind ≤ 7 && dl < 16 && (bit dl 0 || bit dl 2 || bit dl 3) && opts < 4 &&
    (!bit opts 0 || kind == 4 || kind == 5) && 1 ≤ payload && payload ≤ 2048 &&
    (if bit opts 0 then (List.range 9).any fun k => rd == 2 ^ (k + 4) else rd == 0) &&
    (if bit dl 3 then 16 ≤ u8 q 10 && u8 q 10 ≤ 28 else u8 q 10 == 0) &&
    (if kind == 3 then 1 ≤ u8 q 11 && u8 q 11 ≤ 100 else u8 q 11 == 0) && allZero q 12 16 &&
    (if usb then tScope target == 3 else if kind == 6 then tScope target == 4 else tScope target == 0) &&
    (if kind == 6 then ep < 2 && payload == 72 else if kind == 7 then ep < 8 else true)
  let c : Chan := {
    st := 0, kind := kind, ep := ep, deliver := dl, opts := opts, payload := payload
    heartbeat := u16 q 6, ringDesc := rd, histLog2 := u8 q 10, ctrlTmo := u8 q 11
    dev := if usb then tIndex target else if kind == 6 then tIndex target else ep
    grp := if usb then port / 8 else 0, port := port
    speed := d.desc.speed, bus := if (s.port port).usb.speed == 0 then d.desc.speed else (s.port port).usb.speed
    behind := d.desc.hub1 != 0
    pool := if bit opts 0 then 0 else (2 * payload + 63) / 64 * 64 }
  if !plain then .error .badParam
  else if usb then
    match d.endpoint ep with
    | none => .error .badParam
    | some (ty, mps, mult) =>
      let c := { c with mps := mps, mult := mult }
      let spec := if kind ≤ 2 then parseSpec (q.drop 16) else some {}
      if !d.used || !epFits kind ep ty || mps * mult < payload || (3 ≤ kind && q.length != 16) then
        .error .badParam
      else match spec with
      | none => .error .badParam
      | some p =>
        if d.gone || (s.port port).usb.st == 9 || s.groupStopped (port / 8) ||
            (s.dom (3 + port / 8)).st == 2 then .error .wrongState
        else .ok { c with sched := p }
  else if q.length != 16 then .error .badParam
  else if kind == 6 && s.chanSet.any fun e => e.2.kind == 6 && e.2.dev == c.dev && e.2.ep == ep then
    .error .noResource
  else .ok c

/-- The commit of an open (R188, R191): the channel stands, `OPENING` until its first target; a kind
without targets is served at once, unless its port's resume has still to complete (R163). -/
def openCommit (c : Chan) (s : State) : Option (Nat × State) :=
  let c := { c with next := if c.periodic then c.sched.nextFrom (s.live c.sched.tb) else 0
                    st := if c.periodic || c.byTxn || s.portHeld c.port then 0 else 1 }
  placeChan c s

end Sys2Proof.Machine
end

