-- ==== Sys2Proof/Machine/Delivery.lean ====
section
/-!
DEFINITION. Delivery and acknowledgement of records (R260, R264, R265, R267, R439), the record area's
level (R268 to R270), and what the transport sends again (R261, R266).
-/

namespace Sys2Proof.Machine

/-! ### Acknowledgement -/

/-- The oldest unacknowledged number moves past those acknowledged already (R264). -/
def moveOldest : Nat → Chan → Chan
  | 0, c => c
  | n + 1, c =>
    if c.acked.contains c.oldest then
      moveOldest n { c with oldest := (c.oldest + 1) % 65536, acked := c.acked.filter (· != c.oldest) }
    else c

/-- Records of a channel are acknowledged (R264, R267): their space is freed in log order, a ring
descriptor is freed (R195), a full window opens (R265), and the `LAST` record closes the channel
(R200). -/
def ackSeqs (slot : Nat) (seqs : List Nat) (s : State) : State :=
  let h := s.handle slot
  let last := s.journal.area.any fun e => e.rcd.handle == h && e.rcd.last && seqs.contains e.rcd.seq
  let c := s.chan slot
  let c := moveOldest (c.acked.length + seqs.length)
    { c with acked := c.acked ++ seqs.filter fun q => !c.acked.contains q }
  let c := { c with ring := c.ring.filter fun (e : Nat × RingDesc) =>
    !(2 ≤ e.2.status && seqs.contains e.2.seq) }
  let area := s.journal.area.map fun e =>
    if e.rcd.handle == h && (last || seqs.contains e.rcd.seq) then { e with acked := true } else e
  let s := { s.setChan slot c with journal := Journal.trim { s.journal with area := area } }
  if last then closeSlot slot s
  else if c.windowFull && c.unacked < 32767 then
    settlePassed slot (s.modChan slot fun c => { c with windowFull := false })
  else s

/-! ### Delivery -/

/-- A record of the stream is delivered (R260). In warden mode it is freed at once (R439). -/
def deliverRec (r : Rec) (s : State) : State :=
  let s := { s with journal.area := s.journal.area.map fun e =>
    if e.rcd.handle == r.handle && e.rcd.seq == r.seq then { e with delivered := true } else e }
  match s.slotOf r.handle with
  | none => s
  | some n =>
    let c := s.chan n
    let next := (r.seq + 1) % 65536
    let s := if newer16 next c.delivered then s.setChan n { c with delivered := next } else s
    if s.warden.mode then ackSeqs n [r.seq] s else s

/-! ### Sending again -/

/-- Records of the ring in its output stage (R85): those that begin within its 32 items. -/
def stageTake : Nat → List (Rec × List Byte) → List (Rec × List Byte)
  | _, [] => []
  | n, e :: t => if n < 256 then e :: stageTake (n + e.2.length) t else []

/-- Records go out ahead of every other (R261): the first `keep` of the record queue stay at its head, then
come these, then what waited there and to be sent again. -/
def sendAgain (keep : Nat) (recs : List Rec) (s : State) : State :=
  State.refill { s with cci.ring := s.cci.ring.take keep
                        cci.resend := recs ++ (s.cci.ring.drop keep).map (·.1) ++ s.cci.resend }

/-- `chan.rewind` (R266): the output stage goes out, then the channel's unacknowledged records from the
oldest, then all else in its order. -/
def rewind (slot : Nat) (s : State) : List Rec × State :=
  let h := s.handle slot
  let recs := (s.journal.area.filter fun e => e.rcd.handle == h && !e.acked).map (·.rcd)
  let stage := stageTake 0 s.cci.ring
  let other (r : Rec) : Bool := r.handle != h
  let area := s.journal.area.map fun e => if e.rcd.handle == h then { e with queued := true } else e
  let s := { s with journal.area := area
                    cci.ring := stage ++ (s.cci.ring.drop stage.length).filter fun e => other e.1
                    cci.resend := s.cci.resend.filter other }
  (recs, sendAgain stage.length recs s)

/-! ### The record area's level -/

/-- Time bases in use (R125, R269). -/
def State.basesInUse (s : State) : List Nat := ((List.range 4).filter fun k => s.inUse k) ++ [4]

/-- The level the free bytes call for (R268). -/
def Journal.levelNow (j : Journal) : Nat :=
  let f := j.free
  match j.level with
  | 0 => if f < 65536 then 1 else 0
  | 1 => if 131072 ≤ f then 0 else if f < 8192 then 2 else 1
  | _ => if 16384 ≤ f then 1 else 2

/-- The `LAST` records that waited for space commit now (R268). -/
def settleBuiltLast (s : State) : State :=
  s.openSlots.foldl (fun s n =>
    match (s.chan n).built with
    | [r] =>
      if r.last && s.noPlace n r == none then
        settleLast n (commitPlain n r (s.modChan n fun c => { c with built := [] }))
      else s
    | _ => s) s

/-- One change of level (R268 to R270): its events; on leaving `FULL` anchors for every time base in
use, then the passed targets. -/
def changeLevel (l : Nat) (s : State) : State :=
  let was := s.journal.level
  let s := { s with journal.level := l }
  let oldest := match s.journal.area.find? fun e => !e.acked with
    | some e => e.rcd.handle
    | none => 0
  let s := (List.range s.nGroups).foldl (fun s g =>
    groupEvent g 0x0C ([byte l, 0] ++ le 2 (s.journal.free / 1024) ++ le 4 oldest) s) s
  let s := if was == 2 then
      s.openSlots.foldl (fun s n => settlePassed n s) (s.basesInUse.foldl (fun s b => anchor b 0 s) s)
    else s
  settleBuiltLast s

end Sys2Proof.Machine
end

