-- ==== Sys2Proof/Machine/Channels.lean ====
section
/-!
DEFINITION. The meanings of the `chan.*` commands (R186 to R204, R263 to R266, R291), and admission
beside a pending schedule transaction (R241).
-/

namespace Sys2Proof.Machine

/-! ### Admission beside a pending transaction -/

/-- A channel under a new schedule (R226, R242): it keeps its block time and its `LATE_BOUND` in the class it
had. -/
def Chan.under (c : Chan) (p : SchedSpec) : Chan :=
  let same := c.sched.cls == p.cls
  { c with sched := p, blockTime := if same then c.blockTime else 0, lateBound := if same then c.lateBound else 0 }

/-- The channels as they would stand after a transaction's apply point (R241): those it closes are `CLOSING`
(R200), its changes are in. -/
def State.setAfter (s : State) (t : SchedTxn) : List (Nat × Chan) :=
  s.chanSet.map fun e =>
    if s.closesIn t e.1 then (e.1, { e.2 with st := 4, closing := false })
    else match s.changeIn t e.1 with
    | some p => (e.1, if e.2.st == 4 then e.2 else e.2.under p)
    | none => e

/-- Sync patterns on a port after the transaction. -/
def State.syncsAfter (s : State) (t : SchedTxn) (p : Nat) : Nat :=
  if t.items.any fun i => i.code == 2 && tIndex i.target == p then 1 else s.syncEntries p

/-- Admission of a channel against the present set, then against the set after a pending apply point
(R228, R241); `slot` is its own slot where it stands already. -/
def admitBoth (s : State) (slot : Option Nat) (c : Chan) : Nat :=
  let others (l : List (Nat × Chan)) := (l.filter fun e => some e.1 != slot).map (·.2)
  let now := admission s (others (s.chanSet.filter fun e => !e.2.byTxn)) c (s.syncEntries c.port) slot.isNone
  if now != 0 then now
  else match s.pendingTxn with
  | none => 0
  | some t => admission s (others (s.setAfter t)) c (s.syncsAfter t c.port) slot.isNone

/-! ### Opening -/

/-- R186 to R191 `chan.open`. -/
def coreChanOpen (r : Req) (s : State) : CmdRes :=
  match openParse s r.target r.params with
  | .error st => .refuse st []
  | .ok c =>
    let code := admitBoth s none c
    if code != 0 then .refuse .noResource (zeros 15 ++ [byte code])
    else
      let c := admitted (s.chanSet.map (·.2)) c
      match openCommit c (if c.periodic then s else loopStop c.port 3 s) with
      | none => .refuse .noResource (zeros 15 ++ [1])
      | some (n, s) => .commit (le 4 (s.handle n) ++ le 4 c.lateBound ++ le 4 c.pool ++ zeros 4) s

/-- The row of `coreChanOpen`. -/
def execChanOpen (mb : Fin 8) (s : State) : Out := runOp mb 0x0401 coreChanOpen s

/-! ### Closing, pausing, resuming -/

/-- R200 to R202 `chan.close`. -/
def coreChanClose (r : Req) (s : State) : CmdRes :=
  if 1 < u8 r.params 0 then .refuse .badParam []
  else match s.slotOf r.target with
  | none => .refuse .staleHandle []
  | some n =>
    let c := s.chan n
    let wire := s.slotOnWire n
    if n == 0 then .refuse .notPermitted []
    else if u8 r.params 0 == 1 then
      let s := ctrlEnd n 4 (s.setChan n { c with closing := false, pausing := false })
      let s := s.modChan n fun c => { c with st := 4, due := [], built := [] }
      if wire then .commitWait (.closed n) (s.modChan n fun c => { c with abortClose := true })
      else
        let (k, s) := discardRecords n s
        .commit (le 4 k) (closeSlot n s)
    else if c.st == 4 then .commit (le 4 0) s
    else .commit (le 4 0) (closeNow n s)

/-- The row of `coreChanClose`. -/
def execChanClose (mb : Fin 8) (s : State) : Out := runOp mb 0x0402 coreChanClose s

/-- R199 `chan.pause`. -/
def coreChanPause (r : Req) (s : State) : CmdRes :=
  match s.slotOf r.target with
  | none => .refuse .staleHandle []
  | some n =>
    let c := s.chan n
    if n == 0 then .refuse .notPermitted []
    else if c.st == 3 || c.st == 4 then .refuse .wrongState []
    else if c.st == 2 then .commit [] s
    else if s.slotOnWire n then
      .commitWait (.paused [n] []) (s.setChan n { c with pausing := true, due := [] })
    else .commit [] (s.setChan n { c with st := 2, due := [] })

/-- The row of `coreChanPause`. -/
def execChanPause (mb : Fin 8) (s : State) : Out := runOp mb 0x0403 coreChanPause s

/-- A paused or halted channel goes on; one that waits for its transaction's apply point is `OPENING`
again. -/
def goOn (slot : Nat) (s : State) : State :=
  if (s.chan slot).byTxn then
    s.modChan slot fun c => { c with st := 0, cause := 0, byStop := false, pausing := false }
  else activate slot s

/-- R192, R199 `chan.resume`. `clearOk` is the device's answer to `CLEAR_FEATURE(ENDPOINT_HALT)`. -/
def coreChanResume (clearOk : Bool) (r : Req) (s : State) : CmdRes :=
  match s.slotOf r.target with
  | none => .refuse .staleHandle []
  | some n =>
    let c := s.chan n
    let d := s.dev c.dev
    if n == 0 then .refuse .notPermitted []
    else if c.st == 4 then .refuse .wrongState []
    else if c.st ≤ 1 && !c.pausing then .commit [] s
    else if s.groupStopped c.grp then .refuse .wrongState []
    else if c.st != 3 then .commit [] (settlePauses (goOn n s))
    else if c.cause == 3 && (!d.used || d.gone) then .refuse .wrongState []
    else if c.cause == 2 && !clearOk then .refuse .wrongState []
    else if c.cause == 4 then
      let c := { c with speed := d.desc.speed, bus := (s.port c.port).usb.speed }
      let code := admitBoth s (some n) { c with st := 0, cause := 0 }
      let s := { s with sched.nextOrd := s.sched.nextOrd + 1 }
      if code != 0 then .refuse .noResource (zeros 15 ++ [byte code])
      else .commit [] (goOn n (s.setChan n { c with ord := s.sched.nextOrd }))
    else .commit [] (goOn n (if c.cause == 2 then s.setChan n { c with toggle := false } else s))

/-- The row of `coreChanResume`. -/
def execChanResume (mb : Fin 8) (clearOk : Bool) (s : State) : Out :=
  runOp mb 0x0404 (coreChanResume clearOk) s

/-- R199 `chan.stop_group`. -/
def coreChanStopGroup (r : Req) (s : State) : CmdRes :=
  let g := tIndex r.target
  if (s.group g).stopped then .commit (le 2 0) s
  else
    let slots := (s.chanSet.filter fun e => e.2.grp == g && e.2.st ≤ 1).map (·.1)
    let wires := slots.filter fun n => s.slotOnWire n
    let s := slots.foldl (fun s n => s.modChan n fun c =>
      { c with byStop := true, due := [], pausing := wires.contains n
               st := if wires.contains n then c.st else 2 }) s
    let s := groupEvent g 8 [1] (s.setGroup g { s.group g with stopped := true })
    if wires.isEmpty then .commit (le 2 slots.length) s
    else .commitWait (.paused wires (le 2 slots.length)) s

/-- The row of `coreChanStopGroup`. -/
def execChanStopGroup (mb : Fin 8) (s : State) : Out := runOp mb 0x0405 coreChanStopGroup s

/-- R199 `chan.start_group`. -/
def coreChanStartGroup (r : Req) (s : State) : CmdRes :=
  let g := tIndex r.target
  if !(s.group g).stopped then .commit (le 2 0) s
  else
    let slots := (s.chanSet.filter fun e => e.2.grp == g && e.2.byStop &&
      (e.2.st == 2 || (e.2.st ≤ 1 && e.2.pausing))).map (·.1)
    let s := s.setGroup g { s.group g with stopped := false }
    let s := settlePauses (slots.foldl (fun s n => goOn n s) s)
    .commit (le 2 slots.length) (groupEvent g 8 [0] s)

/-- The row of `coreChanStartGroup`. -/
def execChanStartGroup (mb : Fin 8) (s : State) : Out := runOp mb 0x0406 coreChanStartGroup s

/-! ### Control requests and writes -/

/-- R203 `chan.ctrl`. -/
def coreChanCtrl (r : Req) (s : State) : CmdRes :=
  let out := if r.hasData then r.data else r.params.drop 8
  if 2048 < out.length || (r.hasData && r.params.length != 8) || 2048 < u16 r.params 6 then
    .refuse .badParam []
  else match s.slotOf r.target with
  | none => .refuse .staleHandle []
  | some n =>
    let c := s.chan n
    if c.kind != 3 then .refuse .badParam []
    else if c.st != 1 then .refuse .wrongState []
    else if c.ctrl.isSome then .refuse .busy []
    else .commitWait (.ctrl n) (s.setChan n { c with
      ctrl := some { setup := r.params.take 8, out := out, deadline := s.tick + ticksMs (50 * c.ctrlTmo) } })

/-- The row of `coreChanCtrl`. -/
def execChanCtrl (mb : Fin 8) (s : State) : Out := runOp mb 0x0407 coreChanCtrl s

/-- Fill descriptors of an OUT ring in order (R195). -/
def fillDescs (zlp : Bool) : Nat → Nat → List Byte → Chan → Chan
  | 0, _, _, c => c
  | n + 1, i, l, c =>
    let d : RingDesc := { len := min 2048 l.length, status := 1, zlp := zlp && n == 0, data := l.take 2048 }
    fillDescs zlp n ((i + 1) % max c.ringDesc 1) (l.drop 2048) { c with ring := Tbl.setD {} c.ring i d }

/-- R291 `chan.write`. -/
def coreChanWrite (r : Req) (s : State) : CmdRes :=
  let data := if r.hasData then r.data else r.params.drop 8
  if u16 r.params 0 != data.length || 1 < u8 r.params 2 || (r.hasData && r.params.length != 8) then
    .refuse .badParam []
  else match s.slotOf r.target with
  | none => .refuse .staleHandle []
  | some n =>
    let c := s.chan n
    if !(c.kind == 2 || c.kind == 5) || (!c.ringed && c.payload < data.length) then .refuse .badParam []
    else if c.st == 4 then .refuse .wrongState []
    else if c.kind == 2 then
      if c.unsent.isSome then .refuse .busy []
      else .commit (le 4 0) (storeMem n 0 0 data.length (s.setChan n { c with
        outVal := data, unsent := some (data, false) }))
    else if !c.ringed then
      if c.unsent.isSome then .refuse .busy []
      else .commit (le 4 0) (storeMem n 0 0 data.length (s.setChan n { c with
        unsent := some (data, u8 r.params 2 == 1) }))
    else
      let k := max ((data.length + 2047) / 2048) 1
      let used := (c.ring.filter fun (e : Nat × RingDesc) => e.2.status == 1).length
      if c.ringDesc < used + k then .refuse .busy []
      else
        let i := (c.ringNext + used) % max c.ringDesc 1
        let s := s.setChan n (fillDescs (u8 r.params 2 == 1) k i data c)
        .commit (le 2 i ++ le 2 k) ((List.range k).foldl (fun s j =>
          storeMem n 1 (2048 * ((i + j) % max c.ringDesc 1)) (min 2048 (data.length - 2048 * j)) s) s)

/-- The row of `coreChanWrite`. -/
def execChanWrite (mb : Fin 8) (s : State) : Out := runOp mb 0x0408 coreChanWrite s

/-! ### Queries -/

/-- A ring descriptor's 16 bytes (R195). -/
def descBytes (i : Nat) (d : RingDesc) : List Byte :=
  le 4 (2048 * i) ++ le 2 d.len ++ [byte d.status, byte (b2n d.zlp)] ++ le 2 d.seq ++ zeros 2 ++ le 4 d.time32

/-- R291 `chan.info`. -/
def coreChanInfo (r : Req) (s : State) : CmdRes :=
  if r.params.length == 1 then .refuse .badParam []
  else match s.slotOf r.target with
  | none => .refuse .staleHandle []
  | some n =>
    let c := s.chan n
    let i := u16 r.params 0
    let base := [byte c.kind, byte c.st, byte (if c.st == 3 then c.cause else 0), byte c.deliver] ++
      le 2 c.nextSeq ++ le 2 c.oldest ++ le 4 c.lateBound ++ le 4 c.blockTime ++ le 4 c.nCommitted ++
      le 4 c.nChange ++ le 4 c.nSkipped ++ le 4 c.nLate ++
      ((List.range 6).map fun k => le 4 (Tbl.getD 0 c.nMissed k)).flatten ++ le 4 c.nError
    let desc := r.params.length == 2 && r.expert
    if desc && (!c.ringed || c.ringDesc ≤ i) then .refuse .badParam []
    else if c.st == 4 then .refuse .wrongState []
    else if desc then .query (base ++ zeros 4 ++ descBytes i (Tbl.getD {} c.ring i))
    else .query base

/-- The row of `coreChanInfo`. -/
def execChanInfo (mb : Fin 8) (s : State) : Out := runOp mb 0x0409 coreChanInfo s

/-- R197 `chan.latest`. -/
def coreChanLatest (r : Req) (s : State) : CmdRes :=
  match s.slotOf r.target with
  | none => .refuse .staleHandle []
  | some n =>
    let c := s.chan n
    if !c.toLatest then .refuse .badParam []
    else if c.st == 4 then .refuse .wrongState []
    else match c.latest with
    | none => .query (zeros 16)
    | some x => .query (x.header ++ slice x.data (u16 r.params 0) 224)

/-- The row of `coreChanLatest`. -/
def execChanLatest (mb : Fin 8) (s : State) : Out := runOp mb 0x040A coreChanLatest s

/-- As many whole records as fit in the room left (R198). -/
def wholeRecords : Nat → List Rec → List Byte
  | _, [] => []
  | room, r :: t => if r.size ≤ room then r.bytes ++ wholeRecords (room - r.size) t else []

/-- The records of a history from a number on (R198): from the one that has it, else from the oldest after it.
DESIGN CHOICE (log 56): where a ring of more than 65,536 records holds a number more than once, the oldest. -/
def historyFrom (first : Nat) (l : List Rec) : List Rec :=
  match l.dropWhile fun x => x.seq != first, l with
  | [], x :: _ => if newer16 x.seq first then l else []
  | r, _ => r

/-- R198 `chan.history`. -/
def coreChanHistory (r : Req) (s : State) : CmdRes :=
  match s.slotOf r.target with
  | none => .refuse .staleHandle []
  | some n =>
    let c := s.chan n
    let first := u16 r.params 0
    if !c.toHistory then .refuse .badParam []
    else if c.st == 4 then .refuse .wrongState []
    else match historyFrom first c.history with
    | [] => .query []
    | x :: t =>
      if 224 < x.data.length then .query (x.header ++ slice x.data (u16 r.params 2) 224)
      else .query (wholeRecords 240 (x :: t))

/-- The row of `coreChanHistory`. -/
def execChanHistory (mb : Fin 8) (s : State) : Out := runOp mb 0x040B coreChanHistory s

/-! ### Acknowledgement -/

/-- Handle, first and last number of range `i` of a `chan.ack` (R263). -/
def ackRange (p : List Byte) (i : Nat) : Nat × Nat × Nat :=
  (u32 p (8 + 8 * i), u16 p (12 + 8 * i), u16 p (14 + 8 * i))

/-- The sequence numbers of a range. -/
def rangeSeqs (a : Nat × Nat × Nat) : List Nat :=
  (List.range ((a.2.2 + 65536 - a.2.1) % 65536 + 1)).map fun k => (a.2.1 + k) % 65536

/-- A number of a range is not delivered yet (R264). -/
def Chan.notYet (c : Chan) (seq : Nat) : Bool :=
  let d := (seq + 65536 - c.oldest) % 65536
  (c.delivered + 65536 - c.oldest) % 65536 ≤ d && d ≤ 32767

/-- A number of a range is among those it acknowledges (R264). -/
def Chan.acksNow (c : Chan) (seq : Nat) : Bool :=
  (seq + 65536 - c.oldest) % 65536 < (c.delivered + 65536 - c.oldest) % 65536

/-- R263, R264 `chan.ack`. -/
def coreChanAck (r : Req) (s : State) : CmdRes :=
  let p := r.params
  let n := u8 p 0
  let free (s : State) : List Byte := zeros 2 ++ le 4 s.journal.free
  let bad (st : Status) (i : Nat) : CmdRes := .refuse st ([0, byte i] ++ free s)
  let ranges := (List.range n).map (ackRange p)
  if n == 0 || 29 < n || p.length != 8 + 8 * n then .refuse .badParam []
  else match ranges.findIdx? fun a =>
      tChip a.1 != tChip r.target || 32766 < (a.2.2 + 65536 - a.2.1) % 65536 ||
        match s.slotOf a.1 with
        | some k => (rangeSeqs a).any fun q => (s.chan k).notYet q
        | none => false with
  | some i => bad .badParam i
  | none =>
    match ranges.findIdx? fun a => (s.slotOf a.1).isNone with
    | some i => bad .staleHandle i
    | none =>
      let s := ranges.foldl (fun s a =>
        match s.slotOf a.1 with
        | some k => ackSeqs k ((rangeSeqs a).filter fun q => (s.chan k).acksNow q) s
        | none => s) s
      .commit ([byte n, 0xFF] ++ free s) s

/-- The row of `coreChanAck`. -/
def execChanAck (mb : Fin 8) (s : State) : Out := runOp mb 0x0410 coreChanAck s

/-- R266 `chan.rewind`. -/
def coreChanRewind (r : Req) (s : State) : CmdRes :=
  match s.slotOf r.target with
  | none => .refuse .staleHandle []
  | some n =>
    if !(s.chan n).stream then .refuse .badParam []
    else if (s.chan n).st == 4 then .refuse .wrongState []
    else
      let (l, s') := rewind n s
      let first := match l with
        | x :: _ => x.seq
        | [] => (s.chan n).nextSeq
      .commit (le 2 first ++ le 2 l.length) s'

/-- The row of `coreChanRewind`. -/
def execChanRewind (mb : Fin 8) (s : State) : Out := runOp mb 0x0411 coreChanRewind s

end Sys2Proof.Machine
end

