-- ==== Sys2Proof/Machine/Rules.lean ====
section
/-!
DEFINITION. The station profile as bytes (R489, R491), device rules (R185), the status words' codes
(R285), and the epoch break of a running hub (R102, R278 to R280).
-/

namespace Sys2Proof.Machine

/-- The numeric code of a status word (R285), and the word of a code. -/
def Status.code : Status → Nat
  | .ok => 0 | .busy => 1 | .badParam => 2 | .noResource => 3 | .notPermitted => 4 | .locked => 5
  | .wrongState => 6 | .staleHandle => 7 | .aborted => 8 | .expertRequired => 9 | .duplicate => 10
  | .timeout => 11 | .ctrlAborted => 12 | .mixed => 13
def statusOf (n : Nat) : Status :=
  match n with
  | 0 => .ok | 1 => .busy | 2 => .badParam | 3 => .noResource | 4 => .notPermitted | 5 => .locked
  | 6 => .wrongState | 7 => .staleHandle | 8 => .aborted | 9 => .expertRequired | 10 => .duplicate
  | 11 => .timeout | 12 => .ctrlAborted | _ => .mixed

/-! ### The station profile -/

/-- One profile entry (R489). -/
structure ProfEntry where
  idx : Nat := 0
  op : Nat := 0
  lock : Bool := false
  target : Nat := 0
  params : List Byte := []

/-- The entries of a profile body, at most a number of them (R489). -/
def parseEntries : Nat → Nat → List Byte → List ProfEntry
  | 0, _, _ => []
  | n + 1, i, l =>
    if l.length < 12 then []
    else
      let plen := u16 l 4
      { idx := i, op := u16 l 0, lock := bit (u8 l 2) 0, target := u32 l 8, params := slice l 12 plen } ::
        parseEntries n (i + 1) (l.drop ((12 + plen + 3) / 4 * 4))

/-- A profile's header fits this part and its CRC matches (R489, R491). -/
def profileOk (v : Variant) (b : List Byte) : Bool :=
  u16 b 0 == 0x5350 && u8 b 2 == 1 && (u8 b 3 == 3 || u8 b 3 == (if v = .svh48 then 1 else 2)) &&
    16 ≤ u32 b 4 && u32 b 4 ≤ 65536 && u32 b 4 ≤ b.length && u16 b 14 == 0 &&
    u32 b 8 == crc32 (slice b 16 (u32 b 4 - 16))

/-- The profile in force (R491): the active one, else the previous one, else none. -/
def State.inForce (s : State) : Option (List Byte) :=
  if profileOk s.variant s.boot.profile then some s.boot.profile
  else if profileOk s.variant s.boot.previous then some s.boot.previous
  else none

/-- Its entries. -/
def State.entries (s : State) : List ProfEntry :=
  match s.inForce with
  | some b => parseEntries (u16 b 12) 0 (slice b 16 (u32 b 4 - 16))
  | none => []

/-- The chip-number bindings of the profile (R206, R489): serial and number. -/
def State.bindings (s : State) : List (Nat × Nat) :=
  (s.entries.filter fun e => e.op == 0xF002).map fun e => (u64 e.params 0, u8 e.params 8)

/-! ### Device rules -/

/-- A device rule matches a device on a port (R185, R489). -/
def ruleMatches (e : ProfEntry) (port : Nat) (d : DevDesc) : Bool :=
  let p := e.params
  e.op == 0xF004 && u16 p 0 == d.vid && (u16 p 2 == d.pid || u16 p 2 == 0xFFFF) &&
    (u48 p 4 == 0 || bit (u48 p 4) port) && (u8 p 10 == 0xFF || u8 p 10 == u8 d.devDesc 4)

/-- The rule that applies: of those that match, the lowest index (R185). -/
def State.ruleFor (s : State) (port : Nat) (d : DevDesc) : Option ProfEntry :=
  s.entries.find? fun e => ruleMatches e port d

/-- The templates of a rule, from its byte 12 on. -/
def templates : Nat → List Byte → List (List Byte)
  | 0, _ => []
  | n + 1, l => slice l 2 (u16 l 0) :: templates n (l.drop (2 + u16 l 0))

/-- One template opens its channel as `chan.open` would (R185), or its refusal is told. -/
def openTemplate (id rule : Nat) (q : List Byte) (s : State) : State :=
  let refuse (st : Status) (s : State) : State := raiseEvent 108 1 (le 2 rule ++ [byte st.code]) s
  match openParse s (s.domain.chipNum * 2 ^ 26 + 3 * 2 ^ 22 + id) q with
  | .error st => refuse st s
  | .ok c =>
    if admitBoth s none c != 0 then refuse .noResource s
    else
      let c := admitted (s.chanSet.map (·.2)) c
      match openCommit c (if c.periodic then s else loopStop c.port 3 s) with
      | none => refuse .noResource s
      | some (n, s) =>
        groupEvent c.grp 7 (le 4 (s.handle n) ++ le 2 rule) { s with journal.logged := s.journal.logged + 1 }

/-- Management opens the channels of the matching rule for an admitted device (R185). -/
def autoOpen (id : Nat) (s : State) : State :=
  let d := s.dev id
  match s.ruleFor d.port d.desc with
  | none => s
  | some e => (templates (min (u8 e.params 11) 8) (e.params.drop 12)).foldl (fun s q => openTemplate id e.idx q s) s

/-! ### The epoch break -/

/-- The next epoch: 0 is skipped (R280). -/
def nextEpoch (n : Nat) : Nat := if n == 4294967295 then 1 else n + 1

/-- A record of the queue's head has partly left (R85). -/
def State.startedRec (s : State) : Option Rec :=
  match s.cci.ring with
  | (r, b) :: _ => if b.length < r.size then some r else none
  | [] => none

/-- Undelivered records an epoch break discards (R279, R280). -/
def State.undelivered (s : State) : Nat :=
  let started := s.startedRec
  (s.journal.area.filter fun e => !e.delivered &&
    !(match started with
      | some r => r.handle == e.rcd.handle && r.seq == e.rcd.seq
      | none => false)).length

/-- The closing summary (R280). -/
def closingSummary (cause lastCseq discarded sealFlag readFlag : Nat) (cold : Bool) (s : State) : List Byte :=
  le 4 s.keeper.epoch ++ le 4 lastCseq ++ le 2 discarded ++
    [byte (sealFlag + 2 * readFlag + 4 * b2n cold), byte cause] ++ le 4 (if cold then 0 else s.time32)

/-- A committed command that still waits when the epoch breaks, or when warden mode is entered, completes first
with its own result (R26, R102). What that result says of an outcome still to come is a free value (log 24). -/
def breakWait (mb : Nat) (w : Wait) (s : State) : State :=
  let f := s.free.toNat
  let free (l : List Byte) : State := completeMb mb .ok l s.drawn
  match w with
  | .paused _ res => completeMb mb .ok res s
  | .closed n => finishAbort n s
  | .ctrl n => completeWhere (fun w => w == .ctrl n) .ctrlAborted [0, 4, 0, 0, 0, 0] s
  | .portMode p => completeMb mb .ok [] (switchMode p true s)
  | .portSuspend p => completeMb mb .ok [] (setPortState p 9 0 s)
  | .rotate | .domain _ _ | .altMode _ => completeMb mb .ok [] s
  | .canDisable _ mask => completeMb mb .ok (le 4 mask) s
  | .canAbort _ gone b =>
    free (if f % 2 == 0 then le 4 gone ++ le 4 (2 ^ b) else le 4 (gone ||| 2 ^ b) ++ le 4 0)
  | .portReset _ => free [byte (1 + f % 3)]
  | .portResume _ => free [if f % 3 == 0 then 0 else byte (1 + f % 3)]
  | .autobaud c =>
    let n := (s.can c).cands.length
    free [if f % (n + 1) == n then 0xFF else byte (f % (n + 1))]
  | .pdSwap _ => free [byte (f % 4)]
  | .bist => free ([byte (f % 2), 0, 0, 0] ++ le 4 (f / 2))
  | .loop _ => completeMb mb .ok (le 4 f ++ le 4 s.drawn.free.toNat) s.drawn.drawn
  | .cacheEntry _ | .relay _ => s

/-- Every `POSTED` command below a mailbox, at an epoch break (R102) or in warden mode (R26): committed ones
complete with their own status and result, then every other is answered `ABORTED`. -/
def settlePosted (k : Nat) (s : State) : State :=
  let s := (List.range k).foldl (fun s n =>
    let m := s.mb n
    match m.state, m.phase with
    | .posted, .waiting w => if m.committed then breakWait n w s else s
    | _, _ => s) s
  (List.range k).foldl (fun s n =>
    let m := s.mb n
    match m.state, m.phase with
    | .posted, .answered r => if r.committed then s else answer n (refusal .aborted [] s) s
    | .posted, _ => answer n (refusal .aborted [] s) s
    | _, _ => s) s

/-- The expert levels close, each with its event (R79); the test multiplexer's `UNLOCK` falls with group
0x0E (R503). -/
def closeExpert (s : State) : State :=
  let s := if s.cci.expert.contains 0x0E then s.clrFlag 0xE00 11 else s
  s.cci.expert.foldl (fun s g => raiseEvent 111 1 [byte g, 0] s) { s with cci.expert := [] }

/-- Every channel but the anchor channel closes without a record, every undelivered record but one partly
on the transport goes, and the anchor channel's sequence restarts (R279). -/
def closeAll (s : State) : State :=
  let keep := match s.cci.ring with
    | (r, b) :: _ => if b.length < r.size then [(r, b)] else []
    | [] => []
  let s := { s with sched.wire := [], cci.ring := keep, cci.resend := [], journal.area := [] }
  let s := (s.chanSet.map (·.1)).foldl (fun s n => closeSlot n s) s
  (s.modChan 0 fun c => if c.st == 1 then { st := 1, gen := c.gen, deliver := c.deliver } else c).rqLevel

/-- Group stops end (R279). -/
def endStops (s : State) : State :=
  (List.range s.nGroups).foldl (fun s g =>
    if (s.group g).stopped then groupEvent g 8 [0] (s.setGroup g { s.group g with stopped := false }) else s) s

/-- An epoch break that is not a chip-level start (R102, R278 to R280): causes 3 to 6. Of the transactions,
only one that warden mode made `VOID` is still reported after it is left (R244, R292). -/
def epochBreak (cause : Nat) (s : State) : State :=
  let s := settlePosted 8 s
  let closing := closingSummary cause s.cci.cseqHi (min s.undelivered 65535) (b2n s.keeper.sealValid) 1 false s
  let s := endStops (closeAll (closeExpert s))
  let e := nextEpoch s.keeper.epoch
  let s := { s with
    cci.closing := closing, cci.session := false, cci.resyncPend := false, cci.cache := []
    cci.cseqHi := 0, cci.evictHi := 0
    keeper.epoch := e, boot.norEpoch := e, boot.norWall := s.chicory.wall.ns, boot.norWallAt := s.tick
    sched.txns := if cause == 5 then s.sched.txns.filter (·.st == 4) else [], sched.nextTxn := 1 }
  let s := raiseEvent 106 1 (le 4 e ++ [byte cause]) s
  ((s.devices.filter fun e => e.2.used && !e.2.gone).map (·.1)).foldl (fun s id => autoOpen id s) s

/-! ### Aborts -/

/-- What `sys.abort` answers for a mailbox (R99): 0 nothing, 1 aborted, 2 already committed. -/
def abortCode (m : Mailbox) : Nat :=
  if m.state != .posted then 0
  else if m.committed then 2
  else match m.phase with
    | .answered r => if r.committed then 2 else 1
    | _ => 1

/-- The abort of one mailbox's command (R99), with its result byte. Whether a relayed command has committed
is its child's to say (R207): a free value. -/
def abortOne (n : Nat) (s : State) : Nat × State :=
  let m := s.mb n
  match m.state, m.phase with
  | .posted, .waiting (.relay _) =>
    if s.free.toNat % 2 == 1 then (1, answer n (refusal .aborted [] s) s.drawn) else (2, s.drawn)
  | _, _ =>
    let c := abortCode m
    if c == 1 then (1, answer n (refusal .aborted [] s) s) else (c, s)

/-- A relayed command of a child whose link is lost: its abort resolves at rejoin (R208). -/
def State.abortWaits (s : State) (n : Nat) : Bool :=
  match (s.mb n).state, (s.mb n).phase with
  | .posted, .waiting (.relay c) => !(s.child c).joined
  | _, _ => false

/-- The aborts of a mask of mailboxes (R99): the result bytes and the state. -/
def abortMask (mask : Nat) (s : State) : List Byte × State :=
  (List.range 8).foldl (fun (x : List Byte × State) n =>
    if bit mask n then
      let y := abortOne n x.2
      (x.1 ++ [byte y.1], y.2)
    else (x.1 ++ [0], x.2)) ([], s)

/-- Every `REQ` bit that can be resolved now is (R99, R208). -/
def resolveAborts (s : State) : State :=
  let later := maskOf ((bitList 8 s.cci.abortReq).filter s.abortWaits)
  let t := (abortMask (s.cci.abortReq - later) s).2
  { t with cci.abortReq := later }

/-- The `sys.abort` that waits in MB7 (R99), as its mask of mailboxes; 0 where none does. -/
def State.abortAsked (s : State) : Nat :=
  let m := s.mb 7
  if m.state == .posted && m.phase == .ready && m.op == 4 then u8 (m.req 7).params 0 % 128 else 0

/-- A mask of mailboxes names one whose command waits for a lost child to rejoin (R208). -/
def State.abortHeld (s : State) (mask : Nat) : Bool := (bitList 8 mask).any s.abortWaits

/-- A child has rejoined (R208): the aborts that waited for it resolve, their time running from now. -/
def abortsResume (chip : Nat) (s : State) : State :=
  let mine := maskOf ((List.range 8).filter fun n =>
    (s.mb n).state == .posted && (s.mb n).phase == .waiting (.relay chip))
  let s := if s.cci.abortReq &&& mine != 0 then { s with cci.abortSince := s.tick } else s
  let s := if s.abortAsked &&& mine != 0 then s.setMb 7 { s.mb 7 with since := s.tick } else s
  if s.warden.mode || s.mgmtUp then resolveAborts s else s

/-- The command of a mailbox has just committed and completed. -/
def justCommitted (mb : Nat) (s t : State) : Bool :=
  (s.mb mb).phase == .ready && (match (t.mb mb).phase with
    | .answered r => r.committed && r.status == .ok
    | _ => false)

end Sys2Proof.Machine
end

