-- ==== Sys2Proof/Machine/Devices.lean ====
section
/-!
DEFINITION. Enumeration and the device table (R174 to R185), the domain (R205 to R209, R298), and the
flush of a Cowslip queue (R87, R95, R209).
-/

namespace Sys2Proof.Machine

/-! ### The device table -/

/-- The CRC-32 of a serial string, 0 where there is none (R177). -/
def serialCrc (d : DevDesc) : Nat :=
  match d.serial with
  | some l => crc32 l
  | none => 0

/-- Same path (R177). -/
def samePath (p : Nat) (d : DevDesc) (e : Device) : Bool :=
  e.used && e.port == p && e.desc.hub1 == d.hub1 && e.desc.hub2 == d.hub2

/-- Same identity, the path included (R177). -/
def sameIdentity (p : Nat) (d : DevDesc) (e : Device) : Bool :=
  samePath p d e && e.desc.vid == d.vid && e.desc.pid == d.pid && e.desc.bcd == d.bcd &&
    e.serialCrc == serialCrc d

/-- An Otind chip (chapter 6, joining a domain). -/
def isOtind (d : DevDesc) : Bool := d.vid == 0x3A5E && (d.pid == 0x0480 || d.pid == 0x0160)

/-- The descriptors are invalid (R178, reason 4). -/
def badDescriptors (d : DevDesc) : Bool :=
  u8 d.devDesc 0 != 18 || u8 d.devDesc 1 != 1 || d.devDesc.length != 18 || u8 d.cfgDesc 0 != 9 ||
    u8 d.cfgDesc 1 != 2 || u16 d.cfgDesc 2 != d.cfgDesc.length || 1024 < u16 d.cfgDesc 2

/-- Chips of the domain as the root knows them. -/
def State.chipsKnown (s : State) : Nat := 1 + (s.domain.children.filter fun e => e.2.known).length

/-- Why an Otind chip seen at enumeration cannot join (R205), by the codes of EV115; 0 where it may. `back`: it
returns to an entry whose chip has its number already. -/
def joinBar (back : Bool) (d : DevDesc) (s : State) : Nat :=
  if !d.hostUsb || d.speed != 3 || d.tier != 1 then 4
  else if 2 ≤ s.domain.tier then 1
  else if 64 ≤ s.chipsKnown && !back then 2
  else 0

/-- The entry a device on a path returns to has a child chip's number. -/
def State.childBack (s : State) (p : Nat) (d : DevDesc) : Bool :=
  s.devices.any fun e => sameIdentity p d e.2 && e.2.child.isSome

/-- The reason for which a device is refused (R178), 0 where it is admitted. -/
def refusalOf (p : Nat) (d : DevDesc) (s : State) : Nat :=
  let pol := Tbl.getD 0 s.policies p
  if badDescriptors d then 4
  else if 3 < d.tier || (d.tier == 3 && d.isHub) then 3
  else if isOtind d && joinBar (s.childBack p d) d s != 0 then 5
  else if pol == 2 || (pol == 1 && (s.ruleFor p d).isNone) then 2
  else if 256 ≤ s.sched.usedIds && s.sched.freedIds.isEmpty then 1
  else 0

/-- The lowest free USB address of a segment (R174). -/
def State.nextAddr (s : State) (p : Nat) : Nat :=
  let used := ((s.portDevs p).filter fun id => !(s.dev id).gone).map (fun id => (s.dev id).addr) ++
    (s.port p).usb.heldAddrs.map (·.2)
  ((List.range 128).find? fun n => n != 0 && !used.contains n).getD 0

/-- The local ID that has been free longest (R180), and the state without it. -/
def takeId (s : State) : Nat × State :=
  if s.sched.usedIds < 256 then (s.sched.usedIds, { s with sched.usedIds := s.sched.usedIds + 1 })
  else (s.sched.freedIds.headD 0, { s with sched.freedIds := s.sched.freedIds.tail })

/-- The device of open channels is configured again: their data toggles start anew, and those admitted at a
higher speed than it now has halt with `BUDGET` (R192). -/
def reconfigured (id : Nat) (d : DevDesc) (s : State) : State :=
  (s.devSlots id).foldl (fun s n =>
    let s := s.modChan n fun c => { c with toggle := false }
    if d.speed < (s.chan n).speed then haltChan n 4 s else s) s

/-- The entry a device is given, in its first configuration: a device rule names no other (R174, R489). -/
def mkDevice (p addr : Nat) (d : DevDesc) : Device :=
  { used := true, port := p, desc := d, addr := addr, serialCrc := serialCrc d, cfg := u8 d.cfgDesc 5 }

/-- A device takes over its `GONE` entry (R183): its channels return, or are paused by the group stop. -/
def rejoin (id p : Nat) (d : DevDesc) (s : State) : State :=
  let back := (s.devSlots id).filter fun n => (s.chan n).st == 3 && (s.chan n).cause == 3
  let s := s.setDev id { mkDevice p (s.nextAddr p) d with child := (s.dev id).child }
  let stopped := s.groupStopped (p / 8)
  let s := back.foldl (fun s n =>
    if stopped then s.modChan n fun c => { c with st := 2, cause := 0, byStop := true }
    else goOn n s) s
  reconfigured id d (groupEvent (p / 8) 4 (le 2 (s.devId id) ++ [byte p, 0] ++ le 2 back.length) s)

/-- A device is admitted as a new one, or refused (R178, R180). -/
def admitDevice (p : Nat) (d : DevDesc) (s : State) : State :=
  let why := refusalOf p d s
  if why != 0 then
    let s := s.modUsb p fun u => { u with heldAddrs := (d.hub1 * 256 + d.hub2, s.nextAddr p) :: u.heldAddrs }
    let s := groupEvent (p / 8) 3 ([0, 0, byte p, byte why] ++ le 2 d.vid ++ le 2 d.pid) s
    if why == 5 then
      raiseEvent 115 1 [0, byte s.domain.chipNum, byte p, byte (joinBar (s.childBack p d) d s)] s
    else s
  else
    let addr := s.nextAddr p
    let (id, s) := takeId s
    let s := s.setDev id (mkDevice p addr d)
    autoOpen id (groupEvent (p / 8) 1
      (le 2 (s.devId id) ++ [byte p, byte (d.tier % 4 + 4 * d.speed)] ++ le 2 d.vid ++ le 2 d.pid) s)

/-- Step 6 of R174 for a device: after a reset it keeps its entry where its identity matches (R184), at the
address that step 2 gives it anew; it takes over a `GONE` entry (R183) unless a refusal applies (R178); or it is
a new one. The device rules open channels again for an entry that a warm start restored (R488). -/
def settleDevice (p : Nat) (d : DevDesc) (s : State) : State :=
  match (s.devices.find? fun e => samePath p d e.2 && !e.2.gone) with
  | some (id, e) =>
    if sameIdentity p d e then
      let s := reconfigured id d (s.setDev id { e with
        desc := d, restored := false, addr := s.nextAddr p, unaddr := false })
      if e.restored then autoOpen id s else s
    else admitDevice p d (devGone id 5 s)
  | none =>
    match (s.devices.find? fun e => sameIdentity p d e.2 && e.2.gone) with
    | some (id, _) => if refusalOf p d s ≤ 1 then rejoin id p d s else admitDevice p d s
    | none => admitDevice p d s

/-- The external hub in front of a device is admitted, configured and serves its ports (R181), the one the
device is on not disabled (R175); a child chip is no such hub (R205). -/
def State.hubAbove (s : State) (p : Nat) (d : DevDesc) : Bool :=
  d.tier == 1 || (s.devices.any fun e => e.2.used && !e.2.gone && !e.2.unaddr && e.2.port == p && e.2.desc.isHub &&
    !isOtind e.2.desc && e.2.desc.tier + 1 == d.tier && (d.tier == 2 || e.2.desc.hub1 == d.hub1)) &&
    !((s.port p).usb.hubOff.any fun k => onPath (k / 256) (k % 256) (d.hub1 * 256 + d.hub2))

/-- R174, R178, R183 to R185. The embedded host has enumerated a device as far as its admission. -/
def execEnumeration (p : Port) (dev : DevDesc) (s : State) : Out :=
  let u := (s.port p).usb
  if u.transparent || u.st != 8 || !s.groupUp (p / 8) || (dev.tier == 1) == u.enumerated ||
      !s.hubAbove p dev then .next s
  else
    let s := s.modUsb p fun u => { u with
      enumerated := true, enumTries := Tbl.erase u.enumTries (dev.hub1 * 256 + dev.hub2) }
    .next (settleDevice p dev (forgetAddrs p dev.hub1 dev.hub2 s))

/-- R175. A step of the enumeration of the device on a path fails, no hub port for the port itself: the device
is reset and tried again, and the third failure ends it. The port enters `ERROR`; behind an external hub the hub
port is disabled and the port stays as it is. -/
def execEnumerationStepFail (p : Port) (step : Fin 8) (hub1 hub2 : Nat) (s : State) : Out :=
  let u := (s.port p).usb
  let path := hub1 * 256 + hub2
  let tier := if hub1 == 0 then 1 else if hub2 == 0 then 2 else 3
  if u.transparent || u.st != 8 || !s.groupUp (p / 8) || step.val == 0 || (tier == 1) == u.enumerated ||
      !s.hubAbove p { tier := tier, hub1 := hub1, hub2 := hub2 } then .next s
  else if Tbl.getD 0 u.enumTries path < 2 then
    let s := s.modUsb p fun u => { u with enumTries := Tbl.modD 0 u.enumTries path (· + 1) }
    .next (if tier == 1 then startReset p 1 s else forgetAddrs p hub1 hub2 s)
  else
    let s := groupEvent (p / 8) 5 [0, 0, byte p, byte step, byte tier]
      (s.modUsb p fun u => { u with enumTries := Tbl.erase u.enumTries path })
    if tier == 1 then .next (setPortState p 10 6 (wireDrop p s))
    else .next (forgetAddrs p hub1 hub2 (s.modUsb p fun u => { u with hubOff := addSorted path u.hubOff }))

/-! ### `dev.*` -/

/-- Bytes of a device-table entry (R290). -/
def devEntry (s : State) (id : Nat) : List Byte :=
  let d := s.dev id
  [byte id, byte d.port, byte d.desc.hub1, byte d.desc.hub2, byte (b2n d.gone), byte d.desc.speed,
    byte d.addr, byte d.desc.tier] ++ le 2 d.desc.vid ++ le 2 d.desc.pid ++ le 2 d.desc.bcd ++
    le 2 (s.devSlots id).length

/-- R290 `dev.list`. -/
def coreDevList (r : Req) (s : State) : CmdRes :=
  let ids := (s.devices.filter fun e => e.2.used && u8 r.params 0 ≤ e.1).map (·.1)
  let next := match ids.drop 14 with
    | n :: _ => n
    | [] => 0xFFFF
  let l := ids.take 14
  .query (le 2 next ++ [byte l.length] ++ zeros 13 ++ (l.map (devEntry s)).flatten)

/-- The row of `coreDevList`. -/
def execDevList (mb : Fin 8) (s : State) : Out := runOp mb 0x0301 coreDevList s

/-- R290 `dev.info`. -/
def coreDevInfo (r : Req) (s : State) : CmdRes :=
  let d := s.dev (tIndex r.target)
  let c := d.desc.cfgDesc
  let part := (c.drop (u16 r.params 0)).take 206
  if !d.used then .refuse .badParam []
  else .query (le 4 d.serialCrc ++ [byte d.cfg, byte (u8 c 4)] ++ le 2 (u16 c 2) ++ fit 18 d.desc.devDesc ++
    zeros 6 ++ le 2 part.length ++ part)

/-- The row of `coreDevInfo`. -/
def execDevInfo (mb : Fin 8) (s : State) : Out := runOp mb 0x0302 coreDevInfo s

/-- R179, R290 `dev.policy`. -/
def coreDevPolicy (r : Req) (s : State) : CmdRes :=
  let p := tIndex r.target
  if 2 < u8 r.params 0 then .refuse .badParam []
  else if (s.port p).usb.transparent then .refuse .notPermitted []
  else .commit [] { s with policies := Tbl.setD 0 s.policies p (u8 r.params 0) }

/-- The row of `coreDevPolicy`. -/
def execDevPolicy (mb : Fin 8) (s : State) : Out := runOp mb 0x0303 coreDevPolicy s

/-! ### The domain -/

/-- The chip is the root of its domain (R205, R482). -/
def State.isRoot (s : State) : Bool := !s.straps.bootsel0

/-- The number a joining child takes (R206); none where the profile's number is held by another. -/
def childNumber (serial : Nat) (s : State) : Option Nat :=
  let known := s.domain.children.filter fun e => e.2.known
  match s.bindings.find? fun b => b.1 == serial with
  | some (_, n) => if known.any fun e => e.1 == n && e.2.serial != serial then none else some n
  | none =>
    match known.find? fun e => e.2.serial == serial with
    | some (n, _) => some n
    | none => (List.range 64).find? fun n => n != 0 && !(known.any fun e => e.1 == n) &&
        !(s.bindings.any fun b => b.2 == n)

/-- A child's join reaches the root (R205, R206); a child of a child is at tier 2. -/
def joinChild (p : Port) (child : ChildDesc) (s : State) : Out :=
  let ids := (s.portDevs p).filter fun id => isOtind (s.dev id).desc && !(s.dev id).gone
  let par := s.child child.parent
  let tier := if child.parent == 0 then 1 else par.tier + 1
  let refuse (why : Nat) : Out :=
    .next (raiseEvent 115 1 [0, byte child.parent, byte child.parentPort, byte why] s)
  if !s.isRoot || ids.isEmpty || (child.parent != 0 && !par.joined) then .next s
  else if 2 < tier then refuse 1
  else match childNumber child.serial s with
  | none => if 64 ≤ s.chipsKnown then refuse 2 else refuse 3
  | some n =>
    let old := s.child n
    if !old.known && 64 ≤ s.chipsKnown then refuse 2
    else
      let rejoined := old.known && old.serial == child.serial
      let s := s.setChild n { old with
        known := true, joined := true, parent := child.parent, parentPort := child.parentPort
        tier := tier, ports := child.ports, serial := child.serial }
      let s := if child.parent == 0 then
          ids.foldl (fun s id => s.setDev id { s.dev id with child := some n }) s
        else s
      .next (abortsResume n (raiseEvent 113 1 [byte n, byte child.parent, byte child.parentPort, byte tier,
        byte (b2n rejoined)] s))

/-- R205, R206. A child's join reaches the root; or this chip, below a parent, is given its number. -/
def execChildJoin (join : Join) (s : State) : Out :=
  match join with
  | .child p child => joinChild p child s
  | .own number tier =>
    if s.isRoot || number.val == 0 || tier.val == 0 then .next s
    else .next { s with domain := { s.domain with chipNum := number, joined := true, tier := tier } }

/-- Mailboxes whose relayed command waits for a chip. -/
def State.relayed (s : State) (chip : Nat) : List Nat :=
  (List.range 8).filter fun n => (s.mb n).state == .posted && (s.mb n).phase == .waiting (.relay chip)

/-- R208. The link of a joined child is lost. -/
def execChildLost (chip : Fin 64) (_reason : Fin 4) (s : State) : Out :=
  let c := s.child chip
  if !c.joined then .next s
  else
    .next (raiseEvent 114 1 ([byte chip, byte c.parentPort] ++ le 2 (s.relayed chip).length)
      (s.setChild chip { c with joined := false }))

/-- The chips of the domain from a number on (R298), with chip 0 as the root. -/
def chipEntry (s : State) (n : Nat) : List Byte :=
  if n == 0 then [0, 0, 0, 0, 0, byte s.nPorts, 0, 0]
  else
    let c := s.child n
    [byte n, byte c.parent, byte c.parentPort, byte c.tier, byte (b2n (!c.joined)), byte c.ports, 0, 0]

/-- R298 `dom.list`. -/
def coreDomList (r : Req) (s : State) : CmdRes :=
  let all := 0 :: (s.domain.children.filter fun e => e.2.known).map (·.1)
  let l := (all.filter fun n => u8 r.params 0 ≤ n).take 29
  .query ([byte all.length, byte l.length] ++ zeros 6 ++ (l.map (chipEntry s)).flatten)

/-- The row of `coreDomList`. -/
def execDomList (mb : Fin 8) (s : State) : Out := runOp mb 0x0B01 coreDomList s

/-- R298 `dom.event`. -/
def coreDomEvent (r : Req) (s : State) : CmdRes :=
  let n := tChip r.target
  let c := s.child n
  match c.mirror with
  | [] => .refuse .wrongState []
  | e :: t => .commit (fit 16 e ++ [byte t.length, byte (min c.lost 255)])
      (s.setChild n { c with mirror := t })

/-- The row of `coreDomEvent`. -/
def execDomEvent (mb : Fin 8) (s : State) : Out := runOp mb 0x0B02 coreDomEvent s

/-- R208 `dom.forget`. -/
def coreDomForget (r : Req) (s : State) : CmdRes :=
  let n := tChip r.target
  if (s.child n).joined then .refuse .wrongState []
  else
    let s := s.setChild n {}
    .commit [] { s with devices := s.devices.map fun e =>
      (e.1, if e.2.child == some n then { e.2 with child := none } else e.2) }

/-- The row of `coreDomForget`: its commit is an epoch break of the root (R208, R278). -/
def execDomForget (mb : Fin 8) (s : State) : Out :=
  match runOp mb 0x0B03 coreDomForget s with
  | .next t => .next (if justCommitted mb s t then epochBreak 6 t else t)
  | o => o

/-- A record of stream format, as its bytes spell it (R559). -/
def recOf (b : List Byte) : Rec :=
  let fl := u16 b 6
  { handle := u32 b 0, seq := u16 b 4, missed := bit fl 12, error := bit fl 13, last := bit fl 14
    holdover := bit fl 15, angle := u32 b 8, time32 := u32 b 12, data := slice b 16 (fl % 4096) }

/-- The load of a child's channel that a relayed `chan.open` has opened (R230), at the ceiling its specification
names: the child's clock is not known here. -/
def relayedLoad (q : List Byte) : Nat :=
  match parseSpec (q.drop 16) with
  | some p =>
    if 1 ≤ u8 q 0 && u8 q 0 ≤ 2 then
      Chan.loadAt { kind := u8 q 0, deliver := u8 q 2, opts := u8 q 3, payload := u16 q 4, sched := p } p.maxRate
    else 0
  | none => 0

/-- A relayed command has succeeded: what the root keeps of the child's channels. An open or resumed channel
counts on the upstream budget, a closed one no more (R230); after `chan.rewind` a channel's records come again
(R266); the transaction it opened (R238). -/
def relayDone (r : Req) (op : Nat) (results : List Byte) (c : Child) : Child :=
  let others := c.loads.filter fun (e : Nat × (Nat × Bool)) => e.1 != r.target
  match op with
  | 0x0501 => { c with txn := some (u32 results 0) }
  | 0x0505 => { c with txn := none }
  | 0x0401 => { c with loads := c.loads ++ [(u32 results 0, (relayedLoad r.params, true))] }
  | 0x0402 => { c with loads := others }
  | 0x0404 => { c with loads := c.loads.map fun (e : Nat × (Nat × Bool)) =>
      if e.1 == r.target then (e.1, (e.2.1, true)) else e }
  | 0x0411 => { c with heard := Tbl.setD none c.heard r.target none }
  | _ => c

/-- A child's event tells of its channels (R192, R210, R279): one halted with `BUDGET` counts no more, and an
epoch break closes all. -/
def childLoads (b : List Byte) (c : Child) : Child :=
  if 48 ≤ u8 b 0 && u8 b 0 ≤ 53 && u8 b 1 == 6 && u8 b 12 == 4 then
    { c with loads := c.loads.map fun (e : Nat × (Nat × Bool)) =>
        if e.1 == u32 b 8 then (e.1, (e.2.1, false)) else e }
  else if u8 b 0 == 106 then { c with loads := [], heard := [], txn := none }
  else c

/-- R207 to R209, R298. A joined child's frame: the answer to a relayed command, an event for its mirror, or a
record for the record stream, which joins it as it arrives (R261). A record that comes again after a flush of the
relay is discarded by its handle and sequence number. -/
def execDomainLinkFrame (chip : Fin 64) (frame : DomainFrame) (s : State) : Out :=
  let c := s.child chip
  if !c.joined then .next s
  else match frame with
  | .response mb status rflags time results =>
    if (s.relayed chip).contains mb then
      let s := if status == 0 then s.setChild chip (relayDone ((s.mb mb).req mb) (s.mb mb).op results c) else s
      .next (answer mb { status := statusOf status, cached := bit rflags 0, escalated := bit rflags 1,
                         committed := bit rflags 2, results := results.take 240
                         time32 := time % 4294967296 } s)
    else .next s
  | .event b =>
    let c := childLoads b c
    let c := if c.mirror.length < 64 then { c with mirror := c.mirror ++ [fit 16 b] }
      else { c with lost := c.lost + 1 }
    .next (raiseEvent 112 1 ([byte chip, byte (u8 b 0), byte (u8 b 1)] ++ slice b 8 5) (s.setChild chip c))
  | .record b =>
    let r := recOf b
    let again : Bool := match Tbl.getD none c.heard r.handle with
      | some n => !newer16 r.seq n
      | none => false
    if again then .next s
    else
      let s := s.setChild chip { c with heard := Tbl.setD none c.heard r.handle (some r.seq) }
      .next (State.refill { s with cci.resend := s.cci.resend ++ [r] })

/-! ### Cowslip -/

/-- The record partly sent when the record queue's output stage flushes (R87): it ends in zero bytes, and goes
again before any other. -/
def flushRecords (s : State) : State :=
  match s.cci.ring with
  | (r, b) :: t =>
    if b.length < r.size then
      let s := sendAgain 1 [r] { s with cci.ring := (r, zeros b.length) :: t }
      raiseEvent 109 1 (le 4 r.handle) (s.setFlag 0x220 12)
    else s
  | [] => s

/-- Mailboxes changed one by one. -/
def eachMb (f : Nat → Mailbox → State → State) (s : State) : State :=
  (List.range 8).foldl (fun s n => f n (s.mb n) s) s

/-- What the flush of a queue costs (R95): 0 command path, 1 response path, 2 record output stage, 3
event queue, 4 OUT data path, 5 domain-link relay, whose items in transit go again unchanged (R209): the chip at
its far end, and how many were sent. -/
def flushQueue (q far sent : Nat) (s : State) : State :=
  match q with
  | 0 =>
    sessionCut 3 (eachMb (fun n m s =>
      if m.state == .posted && m.phase == .ready then answer n (refusal .busy [] s) s else s) s)
  | 1 =>
    eachMb (fun n m s =>
      match m.state, m.phase with
      | .posted, .answered r =>
        if r.committed then answer n { r with cached := true } s else answer n (refusal .aborted [] s) s
      | _, _ => s) s
  | 2 => flushRecords s
  | 3 =>
    let n := s.cci.evq.length
    State.evqLevel ({ s with cci.evq := [] }.setFld 0x228 31 16 (min (s.fld 0x228 31 16 + n) 65535))
  | 4 =>
    eachMb (fun n m s =>
      if (s.cci.inq.any fun e => s.tick < e.1 && e.2 == n) && m.takesUnits then
        answer n (refusal .aborted [] s) { s with cci.inq := s.cci.inq.filter fun e => e.2 != n }
      else s) s
  | _ =>
    raiseEvent 116 1 ([byte far] ++ le 2 sent) s

/-- R95. A Cowslip queue finds its counts unequal: its items go, FS80 + q counts. -/
def execCowslipFlush (q : Fin 6) (far : Fin 64) (sent : Nat) (s : State) : Out :=
  .next (faultPulse (80 + q) (flushQueue q far sent s))

end Sys2Proof.Machine
end

