-- ==== Sys2Proof/Machine/Tansy.lean ====
section
/-!
DEFINITION. The poll dispatcher and the embedded host's transactions (R192 to R196, R203, R204, R214 to
R222): targets that fall due, tokens, the end of a transaction, and the commit of built records.
-/

namespace Sys2Proof.Machine

/-! ### Targets falling due -/

/-- The last tick at which a due guaranteed target may have its SYNC started (R220). -/
def Due.lateAt (d : Due) : Nat := d.dueAt + d.bound / 10

/-- A due guaranteed target can no longer be issued at a tick (R220). -/
def Due.expired (d : Due) (now : Nat) : Bool := d.hard && d.lateAt < now

/-- A due target waits no more. -/
def dropDue (slot : Nat) (d : Due) (s : State) : State :=
  s.modChan slot fun c => { c with due := c.due.filter (· != d) }

/-- A due target is missed late (R220): its event and its `MISSED` record. -/
def missLate (slot : Nat) (d : Due) (s : State) : State :=
  let c := s.chan slot
  let a := if c.sched.tb < 4 then targetStamp c.sched.tb d.target else d.target % 4294967296
  missRec slot 6 d.target (groupEvent c.grp 0x0A (le 4 (s.handle slot) ++ le 4 a) (dropDue slot d s))

/-- The due targets of a channel that can no longer be issued are missed (R220). -/
def missExpired (slot : Nat) (s : State) : State :=
  (s.chan slot).due.foldl (fun s d => if d.expired s.tick then missLate slot d s else s) s

/-- A due best-effort target gives way to the channel's next (R214); a guaranteed one keeps its bound (R220,
R234). -/
def settleDue (slot : Nat) (s : State) : State :=
  (s.chan slot).due.foldl (fun s d =>
    if d.hard then s else missRec slot 2 d.target (dropDue slot d s)) (missExpired slot s)

/-- Ticks since a time base reached a target, at its present rate. -/
def State.ticksSince (s : State) (tb target : Nat) : Nat :=
  if tb = 4 then (s.chicory.wall.ns - target * 1000) / 10
  else
    let a := s.ang tb
    ((a.pos - target) * 100000000000000000 + a.frac) / max (s.angRate tb * 65536) 1

/-- A target the clock has reached: due, or accounted for at once (R168, R221, R265, R268, R271). -/
def fallDue (slot target : Nat) (s : State) : State :=
  let c := s.chan slot
  let u := (s.port c.port).usb
  if s.journal.sealed then skipTarget slot target s
  else if c.stream && 32767 ≤ c.unacked then windowSkip slot target s
  else if c.stream && s.journal.level == 2 then skipTarget slot target s
  else if c.stream && s.journal.level == 1 then missRec slot 5 target s
  else if (s.group c.grp).engine != 0 || u.st != 8 || !u.enumerated || (s.dev c.dev).unaddr || u.surgeAt.isSome then
    missRec slot 3 target s
  else
    let d : Due := { target := target, dueAt := s.tick - s.ticksSince c.sched.tb target, bound := c.lateBound
                     hard := c.guaranteed }
    s.setChan slot { c with due := c.due ++ [d] }

/-- A channel's next target is reached (R191, R217): an `OPENING` channel becomes `ACTIVE` with it,
unless its port is suspended or resuming (R163): then the target passes. -/
def atTarget (slot : Nat) (s : State) : State :=
  let c := s.chan slot
  let t := c.next
  let s := s.modChan slot fun c => { c with next := c.sched.nextFrom (t + 1) }
  if c.st == 0 && s.portHeld c.port then s
  else
    let s := if c.st == 0 then loopStop c.port 3 (s.modChan slot fun c => { c with st := 1 }) else s
    fallDue slot t (settleDue slot s)

/-- Tansy serves the channel's calendar: it is `OPENING` or `ACTIVE`, its group is neither held by
warden mode nor without power (R191, R199, R437, R456). -/
def State.tansyServes (s : State) (slot : Nat) : Bool :=
  let c := s.chan slot
  c.periodic && c.st ≤ 1 && !c.byTxn && !c.pausing && (s.group c.grp).engine != 4 &&
    (s.dom (3 + c.grp)).st == 0

/-- Where the apply point of the pending transaction comes no later than a channel's next target, it applies
first: a target equal to it belongs to the new schedule (R242). -/
def applyFirst (slot : Nat) (s : State) : State :=
  match s.pendingTxn with
  | none => s
  | some t =>
    match s.reachTick t.applyTb t.applyAt, s.reachTick (s.chan slot).sched.tb (s.chan slot).next with
    | some a, some b => if a ≤ b then atApply t s else s
    | _, _ => s

/-- R217. The next target of a channel. -/
def execTargetDue (slot : Fin 4096) (s : State) : Out :=
  let s := applyFirst slot s
  if !s.tansyServes slot then .next s
  else match s.reach (s.chan slot).sched.tb (s.chan slot).next with
  | none => .next s
  | some s => .next (atTarget slot s)

/-- R220. A due guaranteed target whose bound passes. -/
def execLateMiss (slot : Fin 4096) (s : State) : Out :=
  match (s.chan slot).due.find? (·.hard) with
  | none => .next s
  | some d => .next (missLate slot d (s.waitUntil (d.lateAt + 1)))

/-- R214. An undispatched best-effort target meets the channel's next one. -/
def execBestEffortReplaced (slot : Fin 4096) (s : State) : Out :=
  let c := s.chan slot
  if !s.tansyServes slot || c.due.all (·.hard) then .next s
  else match s.reach c.sched.tb c.next with
  | none => .next s
  | some s => .next (atTarget slot s)

/-! ### Tokens -/

/-- A port's bus takes a token now (R167, R218): idle, its device enumerated, no resume or surge
running, the group engine up, the journal granting reservations (R271). -/
def State.busFree (s : State) (p : Nat) : Bool :=
  let u := (s.port p).usb
  !u.transparent && u.st == 8 && u.enumerated && u.resuming == 0 && u.surgeAt.isNone &&
    (s.onWire p).isNone && s.groupUp (p / 8) && !s.journal.sealed

/-- The earliest target, the lower slot among equals (R218). -/
def earliest : List (Nat × Due) → Option (Nat × Due)
  | [] => none
  | e :: t =>
    match earliest t with
    | none => some e
    | some m => if m.2.dueAt < e.2.dueAt then some m else some e

/-- Both halves of a channel's double buffer hold a record still being built (R194). -/
def Chan.noHalf (c : Chan) : Bool := 2 ≤ (c.built.filter fun r => !r.missed && !r.error && !r.last).length

/-- The embedded host has a transfer to make for a channel without targets (R195, R203, R268). -/
def State.wantsBus (s : State) (c : Chan) : Bool :=
  let room := !c.stream || (s.journal.level == 0 && c.unacked < 32767)
  let d := Tbl.getD {} c.ring c.ringNext
  !(s.dev c.dev).unaddr && match c.kind with
  | 3 => (c.st == 1 || c.st == 4) && room && (match c.ctrl with
      | some r => r.phase == 0
      | none => false)
  | 4 => c.st == 1 && room && (if c.ringed then d.status ≤ 1 else !c.noHalf)
  | 5 => c.st == 1 && room && (if c.ringed then d.status == 1 else c.unsent.isSome)
  | _ => false

/-- The token of a due target starts (R123, R194, R218), unless the target can only be missed. -/
def issueDue (p slot : Nat) (d : Due) (s : State) : State :=
  let c := s.chan slot
  let tb := c.sched.tb
  let s := dropDue slot d s
  if c.stream && s.journal.level == 2 then skipTarget slot d.target s
  else if c.stream && s.journal.level == 1 then missRec slot 5 d.target s
  else if c.kind == 1 && c.noHalf then missRec slot 1 d.target s
  else s.setWire p (some { slot := slot, angle := s.angStamp tb, time32 := s.time32,
                           holdover := s.holdover tb, stamp := d.target })

/-- A transfer without a target starts. -/
def issueFree (p slot : Nat) (s : State) : State :=
  let s := s.modChan slot fun c => { c with
    ctrl := c.ctrl.map fun r => { r with phase := 1 }
    ring := if c.kind == 4 && c.ringed then
        Tbl.modD {} c.ring c.ringNext fun (d : RingDesc) => { d with status := 1 }
      else c.ring }
  s.setWire p (some { slot := slot, time32 := s.time32 })

/-- A transaction of a duration in ns can end before the port's next SOF (R219). -/
def State.beforeSof (s : State) (p ns : Nat) : Bool :=
  let u := (s.port p).usb
  10 * s.tick + ns ≤ 10 * (u.sofAt + ((s.tick - u.sofAt) / u.sofTicks + 1) * u.sofTicks)

/-- Duration of one packet of a channel's endpoint (R224). -/
def Chan.packetNs (c : Chan) : Nat :=
  txnNs c.bus (max c.mps 1 + (if c.bus = 3 && c.speed < 3 then 4 else 0))

/-- The due targets of a port's channels, of one class. -/
def State.dueOn (s : State) (p : Nat) (hard : Bool) : List (Nat × Due) :=
  (s.portSlots p).flatMap fun n => ((s.chan n).due.filter fun d => d.hard == hard).map fun d => (n, d)

/-- R218. The first idle moment of a port's bus: the due token of highest priority; one without guarantee only if
its transaction ends before the next SOF (R219). Among the embedded host's own transfers the manual gives no
order: the choice is a free value. -/
def execTokenIssue (p : Port) (s : State) : Out :=
  if !s.busFree p then .next s
  else
    let s := (s.portSlots p).foldl (fun s n => missExpired n s) s
    let soft := (s.dueOn p false).filter fun e => s.beforeSof p (s.chan e.1).txTime
    match (earliest (s.dueOn p true)).or (earliest soft) with
    | some (n, d) => .next (issueDue p n d s)
    | none =>
      let l := (s.portSlots p).filter fun n => s.wantsBus (s.chan n) && s.beforeSof p (s.chan n).packetNs
      match l[s.free.toNat % max l.length 1]? with
      | some n => .next (issueFree p n s.drawn)
      | none => .next s

/-- R219. The next start of (micro)frame on a port's bus; while a transaction is on the wire it waits for its
end. -/
def execSof (p : Port) (s : State) : Out :=
  let u := (s.port p).usb
  if u.transparent || u.st != 8 || !s.groupUp (p / 8) then .next s
  else
    let s := s.waitUntil (u.sofAt + u.sofTicks)
    if (s.onWire p).isSome then .next (s.modUsb p fun u => { u with sofPend := true })
    else .next (sofNow p s)

/-! ### The end of a transaction -/

/-- A record with the stamps of its token (R123). -/
def tokenRec (w : OnWire) : Rec :=
  { angle := w.angle, time32 := w.time32, holdover := w.holdover, stamp := w.stamp }

/-- A built record waits for its commit, in the order of the targets (R221); while the journal is sealed the record of a target gets no
reservation (R271). -/
def pushBuilt (slot : Nat) (r : Rec) (s : State) : State :=
  if s.journal.sealed && (s.chan slot).periodic then skipTarget slot r.stamp s
  else s.modChan slot fun c => { c with built := if c.periodic then insertBuilt r c.built else c.built ++ [r] }

/-- The record of an OUT transaction, with `REPORT_OUT` (R186). -/
def pushOut (slot : Nat) (w : OnWire) (s : State) : State :=
  if bit (s.chan slot).opts 1 then pushBuilt slot (tokenRec w) s else s

/-- The sequence number the next built record will take. -/
def Chan.nextBuilt (c : Chan) : Nat := (c.nextSeq + c.built.length) % 65536

/-- The present ring descriptor completes (R195), and the ring moves on. -/
def ringDone (slot status len : Nat) (data : List Byte) (s : State) : State :=
  s.modChan slot fun c =>
    let d := Tbl.getD {} c.ring c.ringNext
    let d : RingDesc := { d with status := status, len := len, seq := c.nextBuilt, time32 := s.time32, data := data }
    { c with ring := Tbl.setD {} c.ring c.ringNext d, ringNext := (c.ringNext + 1) % max c.ringDesc 1 }

/-- Bulk IN data arrives (R194, R195): a record at once, or a descriptor ended by a full buffer or a
short packet. -/
def bulkIn (slot : Nat) (w : OnWire) (data : List Byte) (s : State) : State :=
  let c := s.chan slot
  if !c.ringed then pushBuilt slot { tokenRec w with data := data.take c.payload } s
  else
    let d := Tbl.getD {} c.ring c.ringNext
    let all := (d.data ++ data).take 2048
    if all.length == 2048 || data.length < c.mps then
      pushBuilt slot { tokenRec w with data := all, stamp := c.ringNext }
        (ringDone slot (if all.length == 2048 then 2 else 4) all.length all s)
    else s.setChan slot { c with ring := Tbl.setD {} c.ring c.ringNext { d with status := 1, data := all } }

/-- What is left of written data after a transaction of at most `m` bytes (R195, R291): the data that follows,
then the zero-length packet where `FLAGS` asks for one. -/
def unsentAfter (m : Nat) (u : List Byte × Bool) : Option (List Byte × Bool) :=
  if !(u.1.drop m).isEmpty || (u.2 && !u.1.isEmpty) then some (u.1.drop m, u.2) else none

/-- Bulk OUT data has been taken by the device (R195, R291); a transfer that asks for it ends with a
zero-length packet. A descriptor is done with the record of its last transaction. -/
def bulkOut (slot : Nat) (w : OnWire) (s : State) : State :=
  let c := s.chan slot
  let m := max c.mps 1
  if c.ringed then
    let d := Tbl.getD {} c.ring c.ringNext
    let rest := d.data.drop m
    let more := !rest.isEmpty || (d.zlp && !d.data.isEmpty)
    pushOut slot w (if more then
      s.setChan slot { c with ring := Tbl.setD {} c.ring c.ringNext { d with data := rest } }
    else ringDone slot 2 d.len [] s)
  else
    match c.unsent with
    | none => s
    | some u => pushOut slot w (s.setChan slot { c with unsent := unsentAfter m u })

/-- The device has answered a proxied control request (R203): an IN data stage becomes a record, and
the command completes with it; any other completes at once. -/
def ctrlAck (slot : Nat) (w : OnWire) (data : List Byte) (s : State) : State :=
  let c := s.chan slot
  match c.ctrl with
  | none => s
  | some r =>
    let n := u16 r.setup 6
    if 128 ≤ u8 r.setup 0 && n != 0 then
      pushBuilt slot { tokenRec w with data := data.take n }
        (s.setChan slot { c with ctrl := some { r with phase := 2 } })
    else
      completeWhere (fun w => w == .ctrl slot) .ok ([0, 0] ++ le 2 0 ++ le 2 r.out.length)
        (s.setChan slot { c with ctrl := none })

/-- A transaction ended without data (R192, R193): a record with `ERROR`, and the bulk OUT data it
carried is given up. -/
def errorEnd (slot : Nat) (w : OnWire) (s : State) : State :=
  let c := s.chan slot
  let s := if 4 ≤ c.kind && c.ringed then ringDone slot 3 0 [] s else s
  let s := if c.kind == 5 then s.modChan slot fun c => { c with unsent := none } else s
  pushBuilt slot { tokenRec w with error := true } s

/-- Packets a transaction of a channel carries: at least one, the data cut at the endpoint's packet size. -/
def Chan.packets (c : Chan) (len : Nat) : Nat := max 1 ((len + max c.mps 1 - 1) / max c.mps 1)

/-- Data received is written to the half of the double buffer, or the ring buffer, that takes it (R194, R195). -/
def landData (slot len : Nat) (s : State) : State :=
  let c := s.chan slot
  if c.ringed then storeMem slot 1 (2048 * c.ringNext + (Tbl.getD {} c.ring c.ringNext).data.length) len s
  else (storeMem slot 0 (if c.half then c.payload else 0) (min len c.payload) s).modChan slot fun c =>
    { c with half := !c.half }

/-- The packets of an acknowledged transaction: the data toggle turns over with each (R192), and data received
lands in the channel's buffer. -/
def landPackets (slot : Nat) (o : TxnOutcome) (s : State) : State :=
  match o with
  | .ack data =>
    let s := s.modChan slot fun c => { c with
      toggle := c.toggle != (c.packets (if c.kind == 2 then c.outVal.length else data.length) % 2 == 1) }
    let k := (s.chan slot).kind
    if k == 1 || k == 3 || k == 4 then landData slot data.length s else s
  | _ => s

/-- What a transaction's end brings its channel (R192, R193, R195, R203, R221). A STALL yields a record with
`ERROR` and halts the channel, a `CONTROL` channel's too, whose command answers with that record's number. -/
def endOn (slot : Nat) (w : OnWire) (o : TxnOutcome) (s : State) : State :=
  let c := s.chan slot
  match o with
  | .ack data =>
    match c.kind with
    | 1 => pushBuilt slot { tokenRec w with data := data.take c.payload } s
    | 2 => pushOut slot w (s.setChan slot { c with unsent := none })
    | 3 => ctrlAck slot w data s
    | 4 => bulkIn slot w data s
    | _ => bulkOut slot w s
  | .nak =>
    if c.periodic then
      pushBuilt slot { tokenRec w with missed := true }
        (if s.journal.sealed then s else s.setChan slot { c with nMissed := Tbl.modD 0 c.nMissed 0 (· + 1) })
    else s.setChan slot { c with ctrl := c.ctrl.map fun r => { r with phase := 0 } }
  | .stall =>
    let s := s.setChan slot { c with ctrl := c.ctrl.map fun r => { r with phase := 2, stalled := true } }
    haltChan slot 2 (errorEnd slot w s)
  | .error => errorEnd slot w s
  | .overrun => errorEnd slot w s

/-- R193. The transaction on a port's bus ends. -/
def execTransactionEnd (p : Port) (outcome : TxnOutcome) (s : State) : Out :=
  match s.onWire p with
  | none => .next s
  | some w =>
    .next (afterBus p (afterWire w.slot (endOn w.slot w outcome (landPackets w.slot outcome (s.setWire p none)))))

/-! ### Commits -/

/-- A built record has passed the order of R196: its ring descriptor learns its number or is free
again, a control request is answered, the last record ends the channel. -/
def afterCommit (slot : Nat) (r : Rec) (was : Chan) (s : State) : State :=
  let c := s.chan slot
  let done := c.nextSeq != was.nextSeq
  let s := if was.kind == 4 && was.ringed && !r.missed && !r.error && !r.last then
      let ring := if done then
          Tbl.modD {} c.ring r.stamp fun (d : RingDesc) => { d with seq := was.nextSeq }
        else Tbl.erase c.ring r.stamp
      s.setChan slot { c with ring := ring }
    else s
  let s := match c.ctrl with
    | some q =>
      if was.kind == 3 && q.phase == 2 && !r.last then
        let n := if done then was.nextSeq else s.free.toNat % 65536
        let s := if done then s else s.drawn
        afterWire slot (completeWhere (fun w => w == .ctrl slot) .ok
          ([byte (b2n q.stalled), 0] ++ le 2 n ++ le 2 r.data.length) (s.modChan slot fun c => { c with ctrl := none }))
      else s
    | none => s
  settleLast slot s

/-- The next datum of a `CAN_RX` or `CAPTURE` channel's source (R134, R378), and the state without it. -/
def sourceHead (slot : Nat) (s : State) : Option (Rec × State) :=
  let c := s.chan slot
  if c.st != 1 then none
  else if c.kind == 7 then
    let x := Tbl.getD {} s.chicory.pcaps c.dev
    match x.queue with
    | [] => none
    | (wall, ang, hold) :: t =>
      some ({ angle := ang, time32 := wall / 1000 % 4294967296, holdover := hold, data := le 8 wall },
        { s with chicory.pcaps := Tbl.setD {} s.chicory.pcaps c.dev { x with queue := t } })
  else if c.kind == 6 then
    let x := s.can c.dev
    let q := if c.ep == 0 then x.rxq0 else x.rxq1
    match q with
    | [] => none
    | r :: t => some (r, s.setCan c.dev (if c.ep == 0 then { x with rxq0 := t } else { x with rxq1 := t }))
  else none

/-- A `CAN_RX` or `CAPTURE` channel takes no datum of its source: the journal has no place for it, or, with `STREAM`,
the record area is under pressure (R268; DEDUCED, log 56: the taking of a datum is its transfer). -/
def State.sourceWaits (s : State) (slot : Nat) (r : Rec) : Bool :=
  s.noPlace slot r != none || ((s.chan slot).stream && s.journal.level != 0)

/-- R196. The oldest record a channel has built commits, or the oldest datum of its source. It waits while an
earlier target has still to yield its record (R221); where it finds no place, a record without a target, and a
datum, wait. -/
def execRecordCommit (slot : Fin 4096) (s : State) : Out :=
  let c := s.chan slot
  match c.built with
  | r :: rest =>
    if (if c.periodic then !r.last && s.earlier slot r.stamp else s.noPlace slot r != none) then .next s
    else .next (afterCommit slot r c (commitRec slot r r.stamp (s.setChan slot { c with built := rest })))
  | [] =>
    match sourceHead slot s with
    | none => .next s
    | some (r, t) => if s.sourceWaits slot r then .next s else .next (commitRec slot r 0 t)

/-- R204. `CTRL_TMO` of a proxied control request. -/
def execCtrlTmoExpiry (slot : Fin 4096) (s : State) : Out :=
  match (s.chan slot).ctrl with
  | none => .next s
  | some r =>
    if r.phase == 2 then .next s
    else
      let s := s.waitUntil r.deadline
      let p := (s.chan slot).port
      let s := match s.onWire p with
        | some w => if w.slot == slot then afterBus p (s.setWire p none) else s
        | none => s
      .next (ctrlEnd slot 2 s)

end Sys2Proof.Machine
end

