-- ==== Sys2Proof/Machine/Journal.lean ====
section
/-!
DEFINITION. The upstream link (R157, R158, R231, R275, R300), the journal's levels, checkpoints and seal
(R268 to R273), and the restarts of the management pair and of a group engine (R23, R24, R99 to R101,
R273, R274, R426).
-/

namespace Sys2Proof.Machine

/-! ### The upstream link -/

/-- An upstream bus reset, or a detach (R158, R275): the hub and Caside functions return to their default
states, the session is interrupted; a bus reset samples `OC_MODE` (R157). -/
def upstreamCut (detach : Bool) (s : State) : State :=
  let s := sessionCut 2 (hubDefault (if detach then s else sampleOc s))
  { s with cci.upstreamResets := s.cci.upstreamResets + 1
           hub.upSpeed := if detach then 0 else s.hub.upSpeed }

/-- R275. The upstream host resets the bus, or the link detaches. -/
def execUpstreamReset (detach : Bool) (s : State) : Out :=
  if !s.usbHost || !s.boot.up then .next s else .next (upstreamCut detach s)

/-- The newest admitted channel that takes from the upstream budget and is not halted for it (R231). -/
def State.newestStream (s : State) : Option Nat :=
  (s.chanSet.foldl (fun (m : Option (Nat × Nat)) e =>
    if e.2.stream && e.2.st != 4 && s.chanLoad e.2 != 0 && !(e.2.st == 3 && e.2.cause == 4) then
      match m with
      | some (_, o) => if o < e.2.ord then some (e.1, e.2.ord) else m
      | none => some (e.1, e.2.ord)
    else m) none).map (·.1)

/-- Handles of the relayed channels that count on the budget (R230). -/
def State.relayedHandles (s : State) : List Nat :=
  s.domain.children.flatMap fun (e : Nat × Child) => (e.2.loads.filter fun x => x.2.2).map (·.1)

/-- The budget of a relayed channel is withdrawn (R192): it counts no more, and its own chip halts it. -/
def withdraw (h : Nat) (s : State) : State :=
  { s with domain.children := s.domain.children.map fun (e : Nat × Child) =>
      (e.1, { e.2 with loads := e.2.loads.map fun (x : Nat × (Nat × Bool)) =>
        if x.1 == h then (x.1, (x.2.1, false)) else x }) }

/-- `STREAM` channels halt with `BUDGET`, newest admission first, until the load fits (R231): the chip's own,
then, what the manual does not order, those relayed from children (log 56). -/
def fitBudget : Nat → State → State
  | 0, s => s
  | n + 1, s =>
    if s.upBudget * 950 < s.loadOf (s.chanSet.map (·.2)) then
      match s.newestStream with
      | some k => fitBudget n (haltChan k 4 s)
      | none =>
        match s.relayedHandles.getLast? with
        | some h => fitBudget n (withdraw h s)
        | none => s
    else s

/-- R157, R231. The upstream link attaches at a speed. -/
def execUpstreamAttach (highSpeed : Bool) (s : State) : Out :=
  if !s.usbHost || !s.boot.up || s.hub.upSpeed != 0 then .next s
  else
    let s := match s.hub.detachedUntil with
      | some t => s.waitUntil t
      | none => s
    let s := { s with hub.upSpeed := if highSpeed then 3 else 2, hub.detachedUntil := none }
    .next (fitBudget (s.chanSet.length + s.relayedHandles.length) (sampleOc s))

/-- R300 `link.status`. -/
def coreLinkStatus (_ : Req) (s : State) : CmdRes :=
  let kind := if s.straps.hostsel then 1 else if s.domain.chipNum != 0 then 2 else 0
  .query ([byte kind, byte s.hub.upSpeed, 0, 0] ++ le 4 s.upBudget ++
    le 4 ((s.loadOf (s.chanSet.map (·.2)) + 999) / 1000) ++ le 4 s.cci.upstreamResets ++ le 4 s.cci.crcMismatches)

/-- The row of `coreLinkStatus`. -/
def execLinkStatus (mb : Fin 8) (s : State) : Out := runOp mb 0x0D01 coreLinkStatus s

/-- R300 `link.budget`. -/
def coreLinkBudget (r : Req) (s : State) : CmdRes :=
  let b := u32 r.params 0
  if s.budgetDefault < b then .refuse .badParam []
  else if b * 1000 < s.loadOf (s.chanSet.map (·.2)) then .refuse .noResource []
  else .commit [] { s with sched.budget := some b }

/-- The row of `coreLinkBudget`. -/
def execLinkBudget (mb : Fin 8) (s : State) : Out := runOp mb 0x0D02 coreLinkBudget s

/-- R300 `link.detach`. -/
def coreLinkDetach (r : Req) (s : State) : CmdRes :=
  let ms := u16 r.params 0
  if ms < 10 || 1000 < ms then .refuse .badParam []
  else if s.straps.hostsel then .refuse .notPermitted []
  else
    let s := upstreamCut true s
    .commit [] { s with hub.detachedUntil := some (s.tick + ticksMs ms) }

/-- The row of `coreLinkDetach`. -/
def execLinkDetach (mb : Fin 8) (s : State) : Out := runOp mb 0x0D03 coreLinkDetach s

/-! ### Levels, checkpoints, the seal -/

/-- R268 to R270. The record area's free bytes call for another level. -/
def execJournalLevel (s : State) : Out :=
  let l := s.journal.levelNow
  if l == s.journal.level then .next s else .next (changeLevel l s)

/-- The state area's checkpoint, now (R273). -/
def checkpointNow (s : State) : State :=
  { s with journal := { s.journal with logged := 0, checkpointAt := s.tick,
                                       checkpoints := s.journal.checkpoints + 1 } }

/-- R273. A checkpoint falls due: 1 s after the last, or at 1,000 command-log entries. -/
def execCheckpoint (s : State) : Out :=
  if !s.mgmtUp || s.journal.sealed then .next s
  else if 1000 ≤ s.journal.logged then .next (checkpointNow s)
  else .next (checkpointNow (s.waitUntil (s.journal.checkpointAt + ticksS 1)))

/-- The journal is sealed (R271): due targets that have no token are passed; the keeper holds the
newest committed `CSEQ`. -/
def sealNow (s : State) : State :=
  if s.journal.sealed then s
  else
    let s := { s with journal.sealed := true, keeper.sealCseq := s.cci.cseqHi, keeper.sealValid := true }
    s.openSlots.foldl (fun s n =>
      (s.chan n).due.foldl (fun s d => skipTarget n d.target s) (s.modChan n fun c => { c with due := [] })) s

/-- R271. `PFW_N` has been low for 2 µs. -/
def execSeal (s : State) : Out := .next (sealNow s)

/-- R272. `PFW_N` has been high for 10 ms with every supply in range. A seal that goes before a reset, or
that of the safe state, stays. -/
def execUnseal (s : State) : Out :=
  if !s.journal.sealed || s.warden.safe || s.boot.resetReq.isSome then .next s
  else
    let s := { s with journal.sealed := false, keeper.sealValid := false }
    .next (s.openSlots.foldl (fun s n => settlePassed n s) s)

/-! ### Management restarts -/

/-- The management pair stops for a restart (R23): `why` is 1 lockstep mismatch, 2 watchdog expiry or a
restart that failed, 3 abort escalation. While warden mode or the safe state holds it, none runs (R437). -/
def startMgmt (why : Nat) (s : State) : State :=
  if s.warden.mode || s.warden.safe then s
  else { s with mgmtDown := some s.tick, mgmtWhy := why, hrs.mgmtRestarts := satInc s.hrs.mgmtRestarts 255 }

/-- A fault that stops the management pair (R23, R426): FS54 or FS55 stands until its restart ends. -/
def mgmtFault (why : Nat) (s : State) : State :=
  let n := if why == 1 then 54 else 55
  let s := startMgmt why (faultHold n s)
  if s.mgmtDown.isNone then faultGone n s else s

/-- The restarted firmware answers a mailbox left `POSTED` (R100, R101): `sys.abort` in MB7, which an escalation
named, with its results; a committed command whose result is still to come, and a relayed one, are answered when
it comes. -/
def restartMb (res : List Byte) (n : Nat) (m : Mailbox) (s : State) : State :=
  if m.state != .posted then s
  else match m.phase with
  | .ready =>
    if n == 7 && m.op == 4 && s.mgmtWhy == 3 then
      answer n { results := res, escalated := true, time32 := s.time32 } s
    else answer n { refusal .aborted [] s with escalated := true } s
  | .answered r =>
    if r.committed then answer n { r with cached := true, escalated := true } s
    else answer n { refusal .aborted [] s with escalated := true } s
  | .waiting _ => s.setMb n { m with escalated := true }

/-- The management restart ends (R101, R273): the journal is replayed, aborts are resolved (R100) and the
mailboxes are answered. -/
def mgmtRestarted (s : State) : State :=
  let x := abortMask (if s.mgmtWhy == 3 then s.abortAsked else 0) s
  let s := resolveAborts x.2
  let s := (List.range 8).foldl (fun s n => restartMb x.1 n (s.mb n) s) s
  faultGone 55 (faultGone 54 (sessionCut 1 { s with mgmtDown := none }))

/-- R23, R273. A restart of the management pair: the one under way ends, or, where none is, the fault of
`cause` (0 lockstep mismatch, 1 watchdog expiry, 2 abort escalation) brings one about and it ends. An image
on trial does not come back: its failure counts (R495). -/
def execManagementRestart (cause : Fin 3) (s : State) : Out :=
  if !s.boot.up || s.warden.safe || s.warden.mode then .next s
  else
    let s := if s.mgmtDown.isNone then mgmtFault (cause.val + 1) s else s
    if s.mgmtDown.isNone || s.boot.trial then .next s else .next (mgmtRestarted s)

/-- R426. A management restart has not completed within 20 ms: FS106, and a further restart. -/
def execManagementRestartTimeout (s : State) : Out :=
  match s.mgmtDown with
  | none => .next s
  | some t => .next (startMgmt 2 (faultPulse 106 (s.waitUntil (t + ticksMs 20))))

/-- R100. An abort has not been resolved within 1 ms of its request: `ESC` of every mailbox it names, and
a management restart. Where one is already under way, that one answers the abort (DEDUCED, log 24). For an abort
that names a command of a lost child the time runs from the rejoin (R208). -/
def execAbortEscalation (s : State) : Out :=
  let m := s.mb 7
  let cmd := m.state == .posted && m.phase == .ready && m.op == 4 && !s.abortHeld s.abortAsked
  let reqs := maskOf ((bitList 8 s.cci.abortReq).filter fun n => !s.abortWaits n)
  if s.warden.mode || s.warden.safe || !s.boot.up || (s.mgmtDown.isSome && s.mgmtWhy == 3)
      || (reqs == 0 && !cmd) then .next s
  else
    let since := if reqs == 0 then m.since
      else if cmd then min m.since s.cci.abortSince else s.cci.abortSince
    let mask := reqs ||| (if cmd then s.abortAsked else 0)
    let s := s.waitUntil (since + ticksMs 1)
    let s := s.setFld 0x10C 15 8 (s.fld 0x10C 15 8 ||| mask)
    .next (if s.mgmtDown.isSome then { s with mgmtWhy := 3 } else mgmtFault 3 s)

/-! ### Group restarts -/

/-- A group engine's restart begins (R24, R274): transactions on the wires of its ports are over, records
partly built are released, and their targets yield `MISSED` records. -/
def startGroup (g : Nat) (s : State) : State :=
  if (s.group g).engine != 0 then s
  else
    let s := s.setGroup g { s.group g with engine := 1, restartAt := s.tick }
    let s := (List.range 8).foldl (fun s i => wireDrop (8 * g + i) s) s
    groupEvent g 8 [2] { s with hrs.grpRestarts := satInc s.hrs.grpRestarts 255 }

/-- A watchdog expiry of a group engine (R426). -/
def groupFault (g : Nat) (s : State) : State := startGroup g (faultPulse (48 + g) s)

/-- The group engine runs again (R274). -/
def groupRestarted (g : Nat) (s : State) : State :=
  let s := s.setGroup g { s.group g with engine := 0 }
  let s := groupEvent g 8 [byte (b2n (s.group g).stopped)] s
  if (s.src (48 + g)).pair == 2 then faultGone (48 + g) s else s

/-- R24, R274. A group engine's restart: the one under way, or that of a held engine, ends; where the engine
runs, a watchdog expiry brings one about and it ends. -/
def execGroupRestart (g : Fin 6) (s : State) : Out :=
  if s.nGroups ≤ g.val || s.warden.safe || !s.boot.up || (s.dom (3 + g)).st != 0 then .next s
  else
    let e := (s.group g).engine
    if e == 1 || e == 2 then .next (groupRestarted g s)
    else if e == 0 then
      let s := groupFault g s
      if (s.group g).engine == 1 then .next (groupRestarted g s) else .next s
    else .next s

/-- R426. A group restart has not completed within 15 ms: FS107, and the engine is held in reset. -/
def execGroupRestartTimeout (g : Fin 6) (s : State) : Out :=
  let x := s.group g
  if x.engine != 1 then .next s
  else
    let s := s.waitUntil (x.restartAt + ticksMs 15)
    let s := groupEvent g 8 [3] (s.setGroup g { s.group g with engine := 2 })
    .next (faultHold (48 + g) (faultPulse 107 s))

end Sys2Proof.Machine
end

