-- ==== Sys2Proof/Machine/PowerOps.lean ====
section
/-!
DEFINITION. The shared operations of port power (chapter 10): loads and budget, requests and grants,
stagger slots (R330, R332), shedding (R334), the master gates (R326, R328), and the enables of the
fusing window (R338, R339).
-/

namespace Sys2Proof.Machine

/-! ### Samples -/

/-- A current sample (R309, R542): 12 bits at 5 mA, so 10,235 mA at most. DESIGN CHOICE (log 59): the conversion cuts
off what lies below one step. -/
def senseMa (mA : Nat) : Nat := min (mA / 5) 2047 * 5

/-- A sample of VO (R309): 12 bits at 6 mV, 24,570 mV at most; cut off alike. -/
def senseVo (mv : Nat) : Nat := min (mv / 6) 4095 * 6

/-- In the fallback that follows exhausted hard resets a port sends nothing until CC detach (R349). -/
def PortPd.silent (d : PortPd) : Bool := d.contract == 1 && d.fallbackReason == 2

/-! ### Loads and budget -/

/-- Declared millivolts of a rail: 0 `RAIL_LO`, 1 `RAIL_HI` (R306). -/
def State.railMv (s : State) (r : Nat) : Nat :=
  if r = 0 then 5000 else match s.fld 0x3C0C 1 0 with
  | 0 => 9000
  | 1 => 15000
  | _ => 20000

/-- Granted load on a rail and on the feeds, 0.1 W (R329). -/
def State.railLoad (s : State) (r : Nat) : Nat :=
  s.ports.foldl (fun n e => if e.2.pw.grantRail == r + 1 then n + e.2.pw.grant else n) 0
def State.feedLoad (s : State) : Nat := s.ports.foldl (fun n e => n + e.2.pw.grant) 0

/-- A rail's limit, 0.1 W. -/
def State.railLim (s : State) (r : Nat) : Nat :=
  if r = 0 then s.fld 0x3C10 15 0 else s.fld 0x3C10 31 16

/-- The feed budget (R305): the limit of the carrying feed, 0 with no feed present. -/
def State.feedBudget (s : State) : Nat :=
  if !(s.feed 0).present && !(s.feed 1).present then 0
  else if s.clover.carrying then s.fld 0x3C14 31 16 else s.fld 0x3C14 15 0

/-- A new grant fits its rail and the feed budget, the port's present grant apart (R307, R330). -/
def State.fits (s : State) (p r w : Nat) : Bool :=
  let g := (s.port p).pw
  let own := if g.grantRail == r + 1 then g.grant else 0
  (s.rail r).inBand && s.railLoad r - own + w ≤ s.railLim r && s.feedLoad - g.grant + w ≤ s.feedBudget

/-- Priority class of a port (R333). -/
def State.prio (s : State) (p : Nat) : Nat := s.fld (fuseBase p + 8) 18 16

/-! ### Stagger slots -/

/-- Ticks of the stagger grid (R332). -/
def State.slotTicks (s : State) : Nat := max (s.fld 0x3C08 7 0 * 10000) 10000

/-- A ramp's inrush power on a rail, in mW: limit × rail voltage. -/
def State.inrushMw (s : State) (p r : Nat) : Nat := 50 * s.fld (fuseBase p + 4) 6 0 * s.railMv r / 1000

/-- Booked ramps of other ports that occupy a rail at a tick (R332): inrush limit × voltage each. -/
def State.occupied (s : State) (p r t : Nat) : Nat :=
  s.ports.foldl (fun n e => match e.2.pw.booked with
    | some (b, k) =>
      if e.1 != p && k == r && b ≤ t && t < b + ticksMs (s.fld (fuseBase e.1 + 4) 14 8) then
        n + s.inrushMw e.1 r
      else n
    | none => n) 0

/-- A slot is free for a port's ramp on a rail in band (R307, R332). -/
def State.slotFree (s : State) (p r t : Nat) : Bool :=
  (s.rail r).inBand && !(s.ports.any fun e => e.1 != p && (match e.2.pw.booked with
    | some (b, _) => b == t
    | none => false)) &&
    100 * s.railLoad r + s.occupied p r t + s.inrushMw p r ≤ 100 * s.railLim r

/-- The first free slot at or after a tick. -/
def findSlot (s : State) (p r : Nat) : Nat → Nat → Option Nat
  | 0, _ => none
  | n + 1, t => if s.slotFree p r t then some t else findSlot s p r n (t + s.slotTicks)

/-- The first grid point at or after a tick. -/
def State.gridFrom (s : State) (t : Nat) : Nat := (t + s.slotTicks - 1) / s.slotTicks * s.slotTicks

/-- Book the first free slot at or after a tick (R332); none where no slot can serve. -/
def book (p r t : Nat) (s : State) : Option State :=
  (findSlot s p r 10000 (s.gridFrom t)).map fun b => s.modPw p fun w => { w with booked := some (b, r) }

/-! ### Requests and grants -/

/-- `ATTACH_HELD` (R171): why power is withheld. -/
def attachHeld (p reason : Nat) (s : State) : State :=
  raiseEvent p 7 [byte reason, byte (s.port p).pw.replugs] s

/-- A port asks for its first grant (R20 step 3, R330): 2.5 W on `RAIL_LO`; told while it waits. -/
def requestGrant (p : Nat) (s : State) : State :=
  let s' := askGrant p s
  if s.fits p 0 25 then s' else attachHeld p 1 s'

/-- Power may be asked for: CC attached, not held, not removed by the host, no cool-down running. -/
def State.mayPower (s : State) (p : Nat) : Bool :=
  let x := s.port p
  x.usb.ccAtt && !x.pw.held && !x.usb.hostOff && x.pw.coolUntil.isNone && s.flag (fuseBase p) 0

/-- The order of R20 resumes at the moisture check. -/
def resumeCheck (p : Nat) (s : State) : State :=
  if s.mayPower p then s.modPd p fun d => { d with check := true } else s

/-- A port released by an `INRUSH` item waits for the item's target first (R247). -/
def State.inrushAhead (s : State) (p : Nat) : Bool :=
  match Tbl.getD none s.sched.inrush p with
  | some (tb, t) => s.live tb < t
  | none => false

/-- Clover's own order of waiting ports (R330). -/
def State.firstWaiting (s : State) (p : Nat) : Bool :=
  match (s.port p).pw.waiting with
  | none => false
  | some r => s.ports.all fun e => match e.2.pw.waiting with
    | none => true
    | some q =>
      e.1 == p || s.inrushAhead e.1 || s.prio p < s.prio e.1 || (s.prio p == s.prio e.1 && (r < q || (r == q && p < e.1)))

/-- Clover takes grant decisions: enabled, management running (R336, R339). -/
def State.cloverRuns (s : State) : Bool :=
  s.flag 0x3C04 0 && s.mgmtDown.isNone && !s.warden.mode && (s.dom 2).st == 0 && s.canCommit

/-- A grant of step 3 of R20 with its stagger slot (R329, R330, R332), its own journal entry (R257). -/
def grantPort (p : Nat) (s : State) : State :=
  let t := s.modPw p fun w => { w with grant := 25, grantRail := 1, waiting := none }
  match book p 0 s.tick t with
  | some t => { t with journal.logged := t.journal.logged + 1 }
  | none => s

/-! ### Shedding -/

/-- Shed one class (R334). -/
def shedClass (c : Nat) (s : State) : State :=
  let ports := (s.ports.filter fun e => s.prio e.1 == c && e.2.pw.grant != 0).map (·.1)
  ports.foldl (fun s p =>
    let w := (s.port p).pw.grant
    let s := (powerOff p 0 3 2 false s).modPw p fun x => { x with shed := true }
    let s := { s with clover.shedLoad := s.clover.shedLoad + w }
    if (s.port p).usb.ccAtt then attachHeld p 1 s else s) s

/-- Shed classes 7 down to 1 until the load fits (R334). -/
def shedDown : Nat → List Nat → State → List Nat × State
  | 0, l, s => (l, s)
  | c + 1, l, s =>
    if c + 1 == 0 || s.feedLoad ≤ s.feedBudget then (l, s)
    else
      let any := s.ports.any fun e => s.prio e.1 == c + 1 && e.2.pw.grant != 0
      shedDown c (if any then (c + 1) :: l else l) (shedClass (c + 1) s)

/-- The feed budget covers the load and everything shed (R335). -/
def State.covers (s : State) : Bool := s.feedLoad + s.clover.shedLoad ≤ s.feedBudget

/-- Keep `OVER` (R334) and `coverSince` (R335) after a change of feeds or limits. -/
def coverCheck (s : State) : State :=
  let s := { s with clover.overV := s.clover.overV && s.feedBudget < s.feedLoad }
  if s.clover.shed.isEmpty || !s.covers then { s with clover.coverSince := none }
  else match s.clover.coverSince with
  | some _ => s
  | none => { s with clover.coverSince := some s.tick }

/-! ### Feeds -/

/-- The carrying feed after a change (R305): the present feed of higher voltage, at 10 mV; at equal
voltages the one that was carrying, or `FEEDA` where neither was. -/
def pickFeed (before : Bool) (was : Bool) (a b : Feed) : Bool :=
  if a.present && b.present then
    if a.mv / 10 == b.mv / 10 then before && was else a.mv / 10 < b.mv / 10
  else b.present

/-- The feeds after one of them changed. -/
def feedsSettle (old : State) (s : State) : State :=
  let was := (old.feed 0).present || (old.feed 1).present
  let c := pickFeed was old.clover.carrying (s.feed 0) (s.feed 1)
  let on (f : Nat) (x : Feed) : Feed := { x with conducting := x.present && !x.overV && (f == 1) == c }
  coverCheck (((s.setFeed 0 (on 0 (s.feed 0))).setFeed 1 (on 1 (s.feed 1))) |>
    fun t => { t with clover.carrying := c })

/-! ### Master gates and enables -/

/-- A trip is demanded on a port that is `STUCK_ON` (R326): its group's master gate and every other gate go off,
except in the safety group; nothing more where the master gate is off already. -/
def gmgStuckAt (p : Nat) (s : State) : State :=
  if s.safetyGroup (p / 8) || !s.clover.gmgOn.contains (p / 8) then s
  else
    let s := groupGatesOff (p / 8) 3 (fun q => q == p) ((gmgOff (p / 8) s).setFlag 0x3C00 (8 + p / 8))
    raiseEvent p 0x11 ([1, 0] ++ le 2 (s.port p).pw.voMv ++ [1]) s

/-- R326 on a group: on the first of its ports that is stuck. -/
def gmgStuckOff (g : Nat) (s : State) : State :=
  match (List.range 8).find? fun i => (s.port (8 * g + i)).usb.st == 4 with
  | none => s
  | some i => gmgStuckAt (8 * g + i) s

/-- Power removed from a group returns (R326, R434): the master gate is enhanced and its ports ask
again. -/
def groupReturn (g : Nat) (s : State) : State :=
  (List.range 8).foldl (fun s i =>
    let p := 8 * g + i
    if (s.port p).pw.groupOff then
      let s := s.modPw p fun w => { w with groupOff := false }
      if (s.port p).usb.st == 0 && s.mayPower p then requestGrant p s else s
    else s) (gmgOn g s)

/-- The whole curve keeps the limits of R317. -/
def State.curveOk (s : State) (p : Nat) : Bool :=
  (List.range 8).all fun k =>
    let b := s.breakpoint p k
    25 ≤ b.1 && b.1 ≤ 12775 && 10 ≤ b.2 && b.2 ≤ 6000000 &&
      (k == 0 || ((s.breakpoint p (k - 1)).1 < b.1 && b.2 ≤ (s.breakpoint p (k - 1)).2))

/-- `FUSEnn_CTRL.ENABLE` cleared (R338): gates off, the grant released, `OFF` with cause 2; a latch or
a cool-down stands. -/
def fuseOff (p : Nat) (s : State) : State :=
  let st := (s.port p).usb.st
  let s := s.clrFlag (fuseBase p) 0
  if st == 2 || st == 3 || st == 4 then releaseGrant p (gatesOff p s) else powerOff p 0 2 2 false s

/-- `FUSEnn_CTRL.ENABLE` set (R339). -/
def fuseOn (p : Nat) (s : State) : State :=
  let s := s.setFlag (fuseBase p) 0
  if (s.port p).usb.st == 0 then resumeCheck p s else s

/-- Power removed by a command or by the upstream host (R159, R293): to `OFF` with cause 2, but for a
cool-down, which runs on (R324), and a latch, which stays. -/
def commandOff (p : Nat) (s : State) : State :=
  let st := (s.port p).usb.st
  let s := s.modPd p fun d => { d with cycling := false }
  if 2 ≤ st && st ≤ 4 then releaseGrant p s
  else if st == 0 then (gatesOff p (releaseGrant p s)).modPd p fun d => { d with check := false }
  else powerOff p 0 2 2 false s

end Sys2Proof.Machine
end

