-- ==== Sys2Proof/Machine/Power.lean ====
section
/-!
DEFINITION. The meanings of the `pwr.*` commands (R293), of the hub-class power requests (R159), and
of the power events of ports, feeds and rails (chapter 10).
-/

namespace Sys2Proof.Machine

/-! ### `pwr.*` -/

/-- R293 `pwr.on`. -/
def corePwrOn (r : Req) (s : State) : CmdRes :=
  let p := tIndex r.target
  if !(s.port p).pw.held then .commit [] s
  else
    let s := s.modPw p fun w => { w with held := false }
    .commit [] (if (s.port p).usb.st == 0 then resumeCheck p s else s)

/-- The row of `corePwrOn`. -/
def execPwrOn (mb : Fin 8) (s : State) : Out := runOp mb 0x0601 corePwrOn s

/-- R293 `pwr.off`. -/
def corePwrOff (r : Req) (s : State) : CmdRes :=
  let p := tIndex r.target
  if s.safetyPort p then .refuse .notPermitted []
  else .commit [] ((commandOff p s).modPw p fun w => { w with held := true })

/-- The row of `corePwrOff`. -/
def execPwrOff (mb : Fin 8) (s : State) : Out := runOp mb 0x0602 corePwrOff s

/-- R323 `pwr.clear`. -/
def corePwrClear (r : Req) (s : State) : CmdRes :=
  let p := tIndex r.target
  let x := s.port p
  let f := s.src p
  if !(x.usb.st == 3 || x.usb.st == 4) || (x.pw.path == 0 && 1000 < x.pw.voMv) ||
      ((f.st == 2 || f.st == 3) && (s.srcCfg p).2.1 == 2) then .refuse .wrongState []
  else
    let s := s.modPw p fun w => { w with latch := 0, safeLatch := false, ladder := 0 }
    let s := setPortState p 0 0 s
    let s := if x.usb.st == 4 then raiseEvent p 0x11 ([0, 0] ++ le 2 x.pw.voMv ++ [0]) s else s
    let s := portInput p s
    let s := if x.usb.st == 4 && !s.clover.gmgOn.contains (p / 8) &&
        s.flag 0x3C00 (8 + p / 8) then groupReturn (p / 8) s else s
    .commit [] (resumeCheck p s)

/-- The row of `corePwrClear`. -/
def execPwrClear (mb : Fin 8) (s : State) : Out := runOp mb 0x0603 corePwrClear s

/-- The ranges of `pwr.curve` (R293, R317, R318). -/
def curveBad (r : Req) : Bool :=
  let p := r.params
  let fast := r.e8 5 0
  let i (k : Nat) := u16 p (8 + 8 * k)
  let t (k : Nat) := u32 p (12 + 8 * k)
  u8 p 0 < 2 || 70 < u8 p 0 || u8 p 1 == 0 || 100 < u8 p 1 || u16 p 2 == 0 || 600 < u16 p 2 ||
    u8 p 4 == 0 || 15 < u8 p 4 || (fast != 0 && (fast < 40 || 120 < fast)) ||
    (List.range 8).any fun k =>
      i k % 25 != 0 || i k < 25 || 12775 < i k || t k < 10 || 6000000 < t k ||
        (k != 0 && (i k ≤ i (k - 1) || t (k - 1) < t k))

/-- R317 `pwr.curve`. -/
def corePwrCurve (r : Req) (s : State) : CmdRes :=
  let p := tIndex r.target
  let b := fuseBase p
  let q := r.params
  let fast := if r.e8 5 0 == 0 then 100 else r.e8 5 0
  if curveBad r then .refuse .badParam []
  else if s.hrs.lock0.getLsbD 2 then .refuse .locked []
  else
    let s := s.setReg (b + 4) (u8 q 0 + u8 q 1 * 256 + fast * 65536 + u8 q 4 * 2 ^ 24)
    let s := s.setFld (b + 8) 9 0 (u16 q 2)
    .commit [] ((List.range 8).foldl (fun s k =>
      s.setReg (b + 0x1C + 4 * k) (u16 q (8 + 8 * k) / 25 + u32 q (12 + 8 * k) * 512)) s)

/-- The row of `corePwrCurve`. -/
def execPwrCurve (mb : Fin 8) (s : State) : Out := runOp mb 0x0604 corePwrCurve s

/-- Some contract uses `RAIL_HI`. -/
def State.hiInUse (s : State) : Bool :=
  s.ports.any fun e => 2 ≤ e.2.pw.path || e.2.pd.pos == 2 || e.2.pd.newPos == 2

/-- R306 `pwr.rails`. -/
def corePwrRails (r : Req) (s : State) : CmdRes :=
  let q := r.params
  let v := u8 q 0
  let code := if v == 9 then 0 else if v == 15 then 1 else 2
  if !(v == 9 || v == 15 || v == 20) then .refuse .badParam []
  else if s.hrs.lock0.getLsbD 3 then .refuse .locked []
  else if code != s.fld 0x3C0C 1 0 && s.hiInUse then .refuse .wrongState []
  else
    let s := (s.setFld 0x3C0C 1 0 code).setReg 0x3C10 (u16 q 2 + u16 q 4 * 65536)
    let s := s.setReg 0x3C14 (u16 q 6 + u16 q 6 * 65536)
    .commit [] (coverCheck { s with clover.lastFeed := b2n s.clover.carrying })

/-- The row of `corePwrRails`. -/
def execPwrRails (mb : Fin 8) (s : State) : Out := runOp mb 0x0605 corePwrRails s

/-- R333 `pwr.priority`. -/
def corePwrPriority (r : Req) (s : State) : CmdRes :=
  let p := tIndex r.target
  let c := u8 r.params 0
  if 7 < c then .refuse .badParam []
  else if s.hrs.lock0.getLsbD 3 then .refuse .locked []
  else if c == 0 && !s.isSafetyPort p then .refuse .notPermitted []
  else .commit [] (s.setFld (fuseBase p + 8) 18 16 c)

/-- The row of `corePwrPriority`. -/
def execPwrPriority (mb : Fin 8) (s : State) : Out := runOp mb 0x0606 corePwrPriority s

/-- R332 `pwr.stagger`. -/
def corePwrStagger (r : Req) (s : State) : CmdRes :=
  let v := u16 r.params 0
  if v < 5 || 200 < v then .refuse .badParam []
  else .commit [] (s.setFld 0x3C08 7 0 v)

/-- The row of `corePwrStagger`. -/
def execPwrStagger (mb : Fin 8) (s : State) : Out := runOp mb 0x0607 corePwrStagger s

/-- Seconds of cool-down left, rounded up. -/
def coolLeft (w : PortPower) (tick : Nat) : Nat :=
  match w.coolUntil with
  | some t => (t - tick + 99999999) / 100000000
  | none => 0

/-- R293 `pwr.status`. -/
def corePwrStatus (r : Req) (s : State) : CmdRes :=
  if tScope r.target == 0 then
    .query (le 2 ((s.feed 0).mv / 10) ++ le 2 ((s.feed 1).mv / 10) ++ le 2 (s.railLoad 0) ++
      le 2 (s.railLoad 1) ++ le 2 s.feedLoad ++ le 2 (s.feedBudget - s.feedLoad))
  else
    let p := tIndex r.target
    let x := s.port p
    let w := x.pw
    let rail := if w.path == 0 then 0 else if w.path == 1 then 1 else if w.path == 2 then 2 else w.toward
    .query ([byte x.usb.st, byte rail] ++ le 2 (unsigned 16 w.mA) ++ le 2 w.voMv ++ le 2 w.grant ++
      [byte w.ladder, byte (s.prio p)] ++ le 2 (coolLeft w s.tick) ++ [byte (b2n w.held)])

/-- The row of `corePwrStatus`. -/
def execPwrStatus (mb : Fin 8) (s : State) : Out := runOp mb 0x0608 corePwrStatus s

/-! ### Hub-class power requests -/

/-- R159. `ClearPortFeature(PORT_POWER)`; ignored on the embedded port (R155). -/
def execClearPortFeaturePortPower (h : HubPort) (s : State) : Out :=
  match s.hubPortOf h with
  | some p =>
    if s.safetyPort p then .next s
    else .next ((commandOff p s).modUsb p fun u => { u with hostOff := true })
  | none => .next s

/-- R159. `SetPortFeature(PORT_POWER)` on a port the host switched off. -/
def execSetPortFeaturePortPower (h : HubPort) (s : State) : Out :=
  match s.hubPortOf h with
  | some p =>
    if (s.port p).usb.hostOff then
      let s := s.modUsb p fun u => { u with hostOff := false }
      .next (if (s.port p).usb.st == 0 then resumeCheck p s else s)
    else .next s
  | none => .next s

/-! ### Grant, ramp, power-good -/

/-- Clover grants a port that is the first of those waiting, where its grant fits (R330). -/
def grantFirst (p : Nat) (s : State) : State :=
  if s.cloverRuns && s.firstWaiting p && s.fits p 0 25 then
    grantPort p { s with sched.inrush := Tbl.setD none s.sched.inrush p none }
  else s

/-- R330. Clover grants the first of the waiting ports and books its slot; a port an `INRUSH` item released, not
before the item's target (R247). -/
def execBudgetGrant (p : Port) (s : State) : Out :=
  match (s.port p).pw.waiting, Tbl.getD none s.sched.inrush p with
  | none, _ => .next s
  | some _, none => .next (grantFirst p s)
  | some _, some (tb, t) =>
    match s.reach tb t with
    | none => .next s
    | some s => .next (grantFirst p s)

/-- R311, R315. The booked slot opens: the gate ramps at 5 V, or another slot is booked while VO
stands; for a change of rail the voltage transition begins. -/
def execStaggerSlotOpen (p : Port) (voMv : Nat) (s : State) : Out :=
  let x := s.port p
  let voMv := senseVo voMv
  let l := fuseBase p + 4
  match x.pw.booked with
  | none => .next s
  | some (b, r) =>
    if x.pw.grant == 0 || !s.flag (fuseBase p) 0 then .next s
    else if x.pw.path == 1 || x.pw.path == 2 then
      if x.pd.await == 4 && x.pd.newPos == r + 1 && x.pw.path != x.pd.newPos then
        let s := s.waitUntil b
        .next (s.modPw p fun w => { w with
          path := 3, toward := r + 1, limiting := true, rampAt := s.tick
          rampInrush := s.fld l 6 0, rampTimer := s.fld l 14 8 })
      else .next s
    else if x.pw.path != 0 || r != 0 || !(x.usb.st == 0 || x.usb.st == 2 || x.usb.st == 6) then .next s
    else
      let s := s.waitUntil b
      if 800 ≤ voMv then
        .next ((book p 0 (s.tick + 1) (s.modPw p fun w => { w with voMv := voMv, booked := none })).getD s)
      else
        let s := (gmgOn (p / 8) s).modPw p fun w => { w with
          path := 1, toward := 0, limiting := true, rampAt := s.tick, voMv := voMv
          rampInrush := s.fld l 6 0, rampTimer := s.fld l 14 8, coolUntil := none }
        .next (setPortState p 5 0 s)

/-- R312, R315. The third qualifying sample of a ramp or a transition; the drop is measured (R327). -/
def execPowerGood (p : Port) (gateMv voMv railMv dropMv : Nat) (s : State) : Out :=
  let x := s.port p
  let voMv := senseVo voMv
  if !(x.usb.st == 5 || x.pw.path == 3) || gateMv < voMv + 7000 || voMv * 100 < railMv * 93 then .next s
  else
    let s := s.modPw p fun w => { w with
      pgood := true, limiting := false, voMv := voMv, drop := dropMv
      path := if w.path == 3 then w.toward else 1, toward := 0
      goodSince := match w.goodSince with | some t => some t | none => some s.tick }
    let s := if x.usb.st == 5 then setPortState p 6 0 s else s
    .next (if s.fld (fuseBase p + 0x18) 9 0 < dropMv then
      raiseEvent p 0x12 ([0, 0] ++ le 2 dropMv ++ le 2 (unsigned 16 x.pw.mA)) (s.setFlag (fuseBase p) 12)
    else s)

/-- R313. Twice the inrush limit, or the inrush timer before power-good. -/
def execInrushFail (p : Port) (mA : Nat) (s : State) : Out :=
  let x := s.port p
  if !(x.usb.st == 5 || x.pw.path == 3) then .next s
  else if 100 * x.pw.rampInrush ≤ mA then .next (trip p 1 (senseMa mA) s)
  else .next (trip p 1 (senseMa mA) (s.waitUntil (x.pw.rampAt + ticksMs x.pw.rampTimer)))

/-- R314. Power-good's criteria have failed for 10 ms while the rail is in band; during a voltage transition power-good
stands while VO is at least 93 % of `RAIL_LO` (R315). -/
def execPgLost (p : Port) (voMv : Nat) (s : State) : Out :=
  let w := (s.port p).pw
  let voMv := senseVo voMv
  let r := if w.path == 2 then 1 else 0
  if w.pgood && (s.rail r).inBand && (w.path != 3 || 100 * voMv < 93 * s.railMv 0) then
    .next (trip p 4 w.mA.natAbs (s.modPw p fun w => { w with voMv := voMv }))
  else .next s

/-! ### The breaker -/

/-- Samples until some accumulator reaches its trip time at a current; none below every breakpoint
(R316). -/
def State.samplesToTrip (s : State) (p i : Nat) : Option Nat :=
  (List.range 8).foldl (fun m k =>
    let b := s.breakpoint p k
    if b.1 ≤ i then
      let n := (8 * b.2 - Tbl.getD 0 (s.port p).pw.acc k + 7) / 8
      some (match m with | some x => min x n | none => n)
    else m) none

/-- R316. The load draws `mA`, as the samples read it (R309), until an accumulator reaches its trip time. -/
def execItTrip (p : Port) (mA : Nat) (s : State) : Out :=
  let x := s.port p
  let mA := senseMa mA
  if !x.pw.pgood && x.usb.st != 4 then .next s
  else match s.samplesToTrip p mA with
  | none => .next s
  | some n =>
    let s := (s.modPw p fun w => { w with mA := mA }).elapse (1000 * n)
    .next (if x.usb.st == 4 then gmgStuckAt p s else trip p 2 mA s)

/-- R318. |I| reaches the fast-trip threshold. -/
def execFastTrip (p : Port) (mA : Nat) (s : State) : Out :=
  let x := s.port p
  if mA < 100 * s.fld (fuseBase p + 4) 22 16 then .next s
  else if x.usb.st == 4 then .next (gmgStuckAt p s)
  else if x.pw.pgood then .next (trip p 3 (senseMa mA) s)
  else .next s

/-- R320, R322, R324. The cool-down timer expires: the order of R20 resumes at the budget grant, or at
the moisture check when the last dry reading is older than 1 s. -/
def execCooldownExpiry (p : Port) (s : State) : Out :=
  match (s.port p).pw.coolUntil with
  | none => .next s
  | some t =>
    let s := (s.waitUntil t).modPw p fun w => { w with coolUntil := none }
    let x := s.port p
    if !s.mayPower p then
      .next (if x.usb.st == 2 then setPortState p 0 (if x.pw.held || x.usb.hostOff then 2 else 0) s else s)
    else if s.warden.mode && s.safetyPort p && x.pw.grant != 0 then
      .next ((book p 0 s.tick s).getD (s.modPw p fun w => { w with coolUntil := some t }))
    else if !(x.usb.st == 0 || x.usb.st == 2) then .next s
    else
      let dry : Bool := match x.pw.dryAt with
        | some d => decide (s.tick - d ≤ ticksS 1)
        | none => false
      let fit := s.fits p 0 25
      let s := if x.usb.st == 2 && !(dry && fit) then setPortState p 0 3 s else s
      .next (if dry then requestGrant p s else resumeCheck p s)

/-- R321. 600 s of power-good without a trip. -/
def execLadderReset (p : Port) (s : State) : Out :=
  match (s.port p).pw.goodSince with
  | none => .next s
  | some t => .next ((s.waitUntil (t + ticksS 600)).modPw p fun w => { w with ladder := 0 })

/-! ### Pass-FET health -/

/-- R325. VO above 1.0 V for 5 ms with both gates off. A cool-down runs on (R322). -/
def execStuckOn (p : Port) (voMv : Nat) (s : State) : Out :=
  let x := s.port p
  let voMv := senseVo voMv
  if s.nPorts ≤ p.val || x.pw.path != 0 || voMv ≤ 1000 || x.usb.st == 4 || x.pd.sink then .next s
  else
    let s := (powerOff p 4 0 2 false s).modPw p fun w => { w with latch := 2, voMv := voMv }
    let s := overCurrent p (raiseEvent p 0x11 ([1, 0] ++ le 2 voMv ++ [0]) s)
    .next (faultHold p s)

/-- R326. A trip is demanded on a stuck port of a group. -/
def execGmgStuck (g : Fin 6) (s : State) : Out := .next (gmgStuckOff g s)

/-- R327. The periodic drop check with at least 500 mA. -/
def execFetWarn (p : Port) (dropMv mA : Nat) (s : State) : Out :=
  let x := s.port p
  let mA := senseMa mA
  if x.usb.st < 6 || mA < 500 then .next s
  else
    let s := s.modPw p fun w => { w with drop := dropMv, mA := mA }
    if s.fld (fuseBase p + 0x18) 9 0 < dropMv then
      .next (raiseEvent p 0x12 ([0, 0] ++ le 2 dropMv ++ le 2 mA) (s.setFlag (fuseBase p) 12))
    else .next s

/-! ### Feeds -/

/-- R303. The cathode stands 10 mV above a feed's anode. -/
def execFeedReverseOff (f : Fin 2) (s : State) : Out :=
  .next (s.setFeed f { s.feed f with conducting := false })

/-- The 1 s after an over-voltage are over (R304): the feed's FET may conduct again. -/
def ovEnd (f : Nat) (s : State) : State := feedsSettle s (s.setFeed f { s.feed f with overV := false })

/-- R304, R305. A feed's anode settles at a voltage: present within 18 to 60 V, lost below 17 V or
above 62 V. After an over-voltage its FET stays off until the anode has stayed within 18 to 60 V for 1 s. -/
def execFeedPresenceChange (f : Fin 2) (mv : Nat) (s : State) : Out :=
  let x := s.feed f
  let within := 18000 ≤ mv && mv ≤ 60000
  let now := if within then true else if mv < 17000 || 62000 < mv then false else x.present
  let t := feedsSettle s (s.setFeed f { x with present := now, mv := mv })
  let t := if now == x.present then t
    else
      raiseEvent (60 + f) 1 ([byte (b2n now), byte (b2n (now && t.clover.carrying == (f.val == 1)))] ++
        le 2 (mv / 10)) { t with clover.lastFeed := f }
  .next (if x.overV && within then ovEnd f (t.elapse (ticksS 1)) else t)

/-- R304. A feed above 62 V. -/
def execFeedOv (f : Fin 2) (mv : Nat) (s : State) : Out :=
  if mv ≤ 62000 || (s.feed f).overV then .next s
  else
    let s := s.setFeed f { s.feed f with overV := true, conducting := false, mv := mv }
    .next (raiseEvent (60 + f) 2 ([0, 0] ++ le 2 (mv / 10)) (faultPulse (60 + f) s))

/-! ### Rails -/

/-- A voltage lies within 10 % of a rail's declared voltage (R306). -/
def State.bandOk (s : State) (r mv : Nat) : Bool := 9 * s.railMv r ≤ 10 * mv && 10 * mv ≤ 11 * s.railMv r

/-- Every source port with a contract offers anew (R345), but one whose hard resets are exhausted (R349). -/
def reofferAll (s : State) : State :=
  { s with ports := s.ports.map fun e =>
      if e.2.pd.contract != 0 && !e.2.pd.silent && !e.2.pd.sink then
        (e.1, { e.2 with pd.reoffer := true, pd.sendAt := s.tick }) else e }

/-- R306. A rail has stayed out of band for 1 ms. -/
def execRailOutOfBand (r : Fin 2) (mv : Nat) (s : State) : Out :=
  if s.bandOk r mv || !(s.rail r).inBand then .next s
  else
    let s := s.setRail r { s.rail r with inBand := false, mv := mv, since := s.tick }
    let s := raiseEvent (62 + r) 1 ([0, 0] ++ le 2 mv) (faultPulse (62 + r) s)
    .next (if r.val == 1 then reofferAll s else s)

/-- R306, R345. A rail is back in band; on `RAIL_HI` the ports with a contract offer again. -/
def execRailInBand (r : Fin 2) (mv : Nat) (s : State) : Out :=
  if !s.bandOk r mv || (s.rail r).inBand then .next s
  else
    let s := s.setRail r { s.rail r with inBand := true, mv := mv, since := s.tick }
    let s := raiseEvent (62 + r) 1 ([1, 0] ++ le 2 mv) s
    .next (if r.val == 1 then reofferAll s else s)

/-- A port stands on a rail. -/
def onRail (x : PortSt) (r : Nat) : Bool :=
  (x.pw.path == r + 1 || (x.pw.path == 3 && x.pw.toward == r + 1)) && 5 ≤ x.usb.st

/-- R307. A rail out of band for 100 ms: power leaves every port on it, cause 3. -/
def execRailPowerRemoval (r : Fin 2) (s : State) : Out :=
  let x := s.rail r
  if x.inBand || x.removed then .next s
  else
    let s := s.waitUntil (x.since + ticksMs 100)
    let ports := (s.ports.filter fun e => onRail e.2 r).map (·.1)
    .next (ports.foldl (fun s p => (powerOff p 0 3 2 false s).modPw p fun w => { w with railLost := r + 1 })
      (s.setRail r { s.rail r with removed := true }))

/-- R307. A rail back in band for 1 s: its ports ask for power again. -/
def execRailRestore (r : Fin 2) (s : State) : Out :=
  let x := s.rail r
  if !x.inBand || !x.removed then .next s
  else
    let s := s.waitUntil (x.since + ticksS 1)
    let ports := (s.ports.filter fun e => e.2.pw.railLost == r.val + 1).map (·.1)
    .next (ports.foldl (fun s p =>
      let s := s.modPw p fun w => { w with railLost := 0 }
      if (s.port p).usb.st == 0 && s.mayPower p then requestGrant p s else s)
      (s.setRail r { s.rail r with removed := false }))

/-! ### Shedding -/

/-- R334. The feed budget lies below the load: whole classes are shed. -/
def execShed (s : State) : Out :=
  if s.feedLoad ≤ s.feedBudget then .next s
  else
    let (l, s) := shedDown 7 [] s
    let s := { s with clover.overV := !(s.feedLoad ≤ s.feedBudget) }
    if l.isEmpty then .next s
    else
      let s := { s with
        clover.shed := l.foldl (fun t c => addSorted c t) s.clover.shed, journal.logged := s.journal.logged + 1 }
      let s := s.incFld 0x3C20 31 16
      .next (coverCheck (raiseEvent (60 + s.clover.lastFeed) 3
        ([byte (maskOf l), 0] ++ le 2 s.feedBudget) s))

/-- R335. The budget has covered every shed class for `RESTORE` seconds. -/
def execShedRestore (s : State) : Out :=
  if s.clover.shed.isEmpty || !s.covers then .next s
  else
    let t0 := s.clover.coverSince.getD s.tick
    let s := s.waitUntil (t0 + ticksS (s.fld 0x3C08 23 16))
    let mask := maskOf s.clover.shed
    let ports := (s.ports.filter fun e => e.2.pw.shed).map (·.1)
    let s := { s with clover.shed := [], clover.shedLoad := 0, clover.overV := false, clover.coverSince := none }
    let s := ports.foldl (fun s p =>
      let s := s.modPw p fun w => { w with shed := false }
      if (s.port p).usb.st == 0 && s.mayPower p then requestGrant p s else s) s
    .next (raiseEvent (60 + s.clover.lastFeed) 3 ([0, byte mask] ++ le 2 s.feedBudget) s)

end Sys2Proof.Machine
end

