-- ==== Sys2Proof/Machine/Integ.lean ====
section
/-!
DEFINITION. Memory integrity (chapter 13): regions and page strengths, correction and uncorrectable
errors (R404 to R406), the scrub (R407), rotation and retirement (R409 to R414), region settings and
changes of strength (R415 to R419), injection (R421), the log and the events (R422 to R424).
-/

namespace Sys2Proof.Machine

/-! ### Regions -/

/-- Default mode (1 `LAZY`) and retention: the journal, the TCMs and the external regions retain (R396,
R415, R456). -/
def rgnMode0 (r : Nat) : Nat := b2n (r ≤ 0x0B || r = 0x11)
def rgnRetain0 (r : Nat) : Nat := b2n (0x0E ≤ r && r != 0x13)

/-- Mode and retention of a region. -/
def State.rgnMode (s : State) (r : Nat) : Nat := (s.region r).mode.getD (rgnMode0 r)
def State.rgnRetain (s : State) (r : Nat) : Nat := (s.region r).retain.getD (rgnRetain0 r)

/-- 0 uniform, 1 `MIXED`, 2 restrengthening (R296). -/
def State.rgnState (s : State) (r : Nat) : Nat :=
  if s.integ.rsActive && s.integ.rsRegion == r then 2 else b2n (s.region r).mixed

/-- The first page at or after one that does not stand at a strength. -/
def nextOff (t from_ : Nat) : List (Nat × Nat) → Option Nat
  | [] => none
  | [(f, u)] => if u == t then none else some (max f from_)
  | (f, u) :: (g, v) :: l => if u != t && from_ < g then some (max f from_) else nextOff t from_ ((g, v) :: l)

/-- Event and fault sources of a region's memory (R423, R424): event, corrected, uncorrectable. -/
def memEv (r : Nat) : Nat := if r ≤ 0x0D then 64 else if r = 0x0E then 67 else if r = 0x0F then 65 else 66
def memFs (r : Nat) : Nat := if r ≤ 0x0E then 64 else if r = 0x0F then 66 else 68
def ueFs (r : Nat) : Nat := if r = 0x0E then 70 else if r = 0x12 then 75 else memFs r + 1

/-! ### Notes, log and events -/

/-- What Teasel notes of a page. -/
def State.note (s : State) (r p : Nat) : PageNote :=
  (s.integ.notes.find? fun n => n.region == r && n.page == p).getD { region := r, page := p }

/-- Write a page's note at its place, or after the others; a note that says nothing goes. -/
def State.setNote (s : State) (n : PageNote) : State :=
  let same := fun (m : PageNote) => m.region == n.region && m.page == n.page
  let l := s.integ.notes
  let l := if l.any same then l.map fun m => if same m then n else m else l ++ [n]
  { s with integ.notes := l.filter fun m => m.stale || m.poisoned || m.visits != 0 }

/-- A log entry (R422): the newest 256 stay. -/
def logInteg (e : LogEnt) (s : State) : State :=
  let l := s.integ.log ++ [{ e with time32 := s.time32 }]
  if 256 < l.length then { s with integ.log := l.tail, integ.lost := satInc s.integ.lost 65535 }
  else { s with integ.log := l }

/-- A page or bank meets a retirement condition (R412, R413). -/
def addDue (r p : Nat) (s : State) : State :=
  if s.integ.due.contains (r, p) then s else { s with integ.due := s.integ.due ++ [(r, p)] }

/-- The page's own retirement, or its bank's. -/
def retireOf (r p : Nat) (s : State) : State :=
  if isSram r then addDue 0x100 (bankOf r p) s else if isExt r then addDue r p s else s

/-- An event with code 0x01 or 0x03 of which at most one a second is posted (R401, R423): the table holds
the tick after the last post and what came since. -/
def oncePerSecond (tbl : Tbl (Nat × Nat)) (ev now : Nat) : Option Nat × Tbl (Nat × Nat) :=
  let e := Tbl.getD (0, 0) tbl ev
  let n := min (e.2 + 1) 4294967295
  if e.1 == 0 || e.1 + ticksS 1 ≤ now + 1 then (some n, Tbl.setD (0, 0) tbl ev (now + 1, 0))
  else (none, Tbl.setD (0, 0) tbl ev (e.1, n))

/-- Corrections of a bank in the last 24 h, with one more (R412). -/
def bankCorrected (b : Nat) (s : State) : State :=
  let l := (s.tick :: (Tbl.getD [] s.integ.bankCorr b).filter fun t => s.tick < t + ticksS 86400).take 64
  let s := { s with integ.bankCorr := Tbl.setD [] s.integ.bankCorr b l }
  if 64 ≤ l.length then addDue 0x100 b s else s

/-- One correction (R404, R413, R422 to R424). `core` 7 is the warden, whose TCM has no source of its own
for corrections. -/
def correctPage (g : PageRef) (n req core : Nat) (s : State) : State :=
  let r := g.region
  let t := s.pageT r g.page
  let s := s.setRegion r { s.region r with corr := ((s.region r).corr + 1) % 4294967296 }
  let s := logInteg { kind := 1, region := r, t := t, bits := n, page := g.page, offset := g.offset,
                      req := req, core := core } s
  let (post, tbl) := oncePerSecond s.integ.corrEv (memEv r) s.tick
  let s := { s with integ.corrEv := tbl }
  let s := match post with
    | some k => raiseEvent (memEv r) 1 (le 4 k ++ [byte r] ++ le 3 g.page) s
    | none => s
  let s := if req = 0 || s.integ.revisit.contains (r, g.page) then s
    else { s with integ.revisit := s.integ.revisit ++ [(r, g.page)] }
  let s := if isSram r then bankCorrected (bankOf r g.page) s
    else if isExt r && t ≤ 2 * n then addDue r g.page s else s
  if core == 7 then s else faultPulse (memFs r) s

/-- An uncorrectable error is counted, logged and told (R405, R422 to R425); its outcome follows. -/
def uncorrectable (g : PageRef) (req core : Nat) (s : State) : State :=
  let r := g.region
  let s := s.setRegion r { s.region r with ue := satInc (s.region r).ue 65535 }
  let s := logInteg { kind := 2, region := r, t := s.pageT r g.page, bits := 0xFF, page := g.page,
                      offset := g.offset, req := req, core := core } s
  raiseEvent (memEv r) 2 ([byte req, byte r, 0, 0] ++ le 4 g.page) (s.setFlag 0x5000 11)

/-- A page is poisoned (R406) and its retirement falls due. -/
def poison (r p : Nat) (s : State) : State :=
  retireOf r p (s.setNote { s.note r p with poisoned := true, stale := false })

/-- Every page the damaged descriptors of a page of `META` describe is poisoned (R405). -/
def descriptorsLost (g : PageRef) (s : State) : State := g.described.foldl (fun s e => poison e.1 e.2 s) s

/-- The journal is damaged beyond repair: an epoch break with cause 3 (R405). -/
def journalLost (s : State) : State := epochBreak 3 (faultPulse 70 s)

/-- The outcome of an uncorrectable error for a requester (R405). -/
def ueOutcome (g : PageRef) (who : Requester) (s : State) : State :=
  let halt (s : State) : State := match s.owner g.region g.page g.offset with
    | some n => haltChan n 1 s
    | none => s
  let core (c : Nat) (s : State) : State :=
    if c == 7 then faultPulse 71 s
    else
      let s := faultPulse (ueFs g.region) s
      if c ≤ 5 then startGroup c s else mgmtFault 3 s
  if g.region == 0x0E then journalLost s
  else if g.region == 0x12 then
    descriptorsLost g (faultPulse 75 s)
  else if g.region == 0x11 then
    let s := faultPulse 69 s
    match s.owner 0x11 g.page 0 with
    | some n => s.modChan n fun c => { c with history := c.historyOutside g.page }
    | none => s
  else match who with
  | .fetch c => core c.val s
  | .coreData c => core c.val s
  | .dataMover => halt (faultPulse (ueFs g.region) s)
  | .journal => halt (faultPulse (ueFs g.region) s)
  | .queue events => flushQueue (if events then 3 else 2) 0 0 (faultPulse (ueFs g.region) s)

/-- `REQ` and `CORE` of a requester (R422). -/
def reqCode : Requester → Nat × Nat
  | .fetch c => (1, c.val)
  | .coreData c => (2, c.val)
  | .dataMover => (3, 0xFF)
  | .journal => (4, 0xFF)
  | .queue _ => (6, 0xFF)

/-- The page exists, and its memory runs. -/
def State.pageOk (s : State) (g : PageRef) : Bool :=
  g.region < 0x13 && g.page < s.regionPages g.region && !s.warden.safe

/-- R399, R402, R404 to R406. A read finds a parity error in a page with so many bits in error; a line whose valid bit
is 0 reads as zeros without an access to memory, and every read of a poisoned page is uncorrectable. -/
def execParityError (page : PageRef) (errors : Nat) (who : Requester) (s : State) : Out :=
  let n := s.note page.region page.page
  if !s.pageOk page ||
      (!n.poisoned && (errors = 0 || !s.lineValid page.region page.page page.offset)) then .next s
  else
    let (req, core) := reqCode who
    if n.stale || n.poisoned || s.pageT page.region page.page < errors then
      .next (ueOutcome page who (uncorrectable page req core s))
    else .next (correctPage page errors req core s)

/-! ### Stale pages and the scrub -/

/-- Stale pages of transfer SRAM, or of external memory, oldest first. -/
def State.staleOf (s : State) (ext : Bool) : List PageNote :=
  s.integ.notes.filter fun n => n.stale && isExt n.region == ext

/-- Depth of a stale queue (R401). -/
def State.staleDepth (s : State) (ext : Bool) : Nat :=
  if ext then min 64 (s.fld 0x5008 5 0 * 25) else min 256 (s.fld 0x5008 5 0 * 125)

/-- A write to a page is handled as `LAZY`: its region is, and its domain is ON and has not begun to leave it, from
which on the drain of R403 handles writes as `EAGER`. -/
def State.lazyNow (s : State) (r p : Nat) : Bool :=
  let d := s.dom (s.pageDom r p)
  s.rgnMode r != 0 && d.st == 0 && d.entry.isNone

/-- R399 to R401, R403. A write to a page of a `LAZY` region: it makes its line valid and the page stale, or finds the queue
full and is handled as `EAGER`. -/
def execStaleOvf (page : PageRef) (s : State) : Out :=
  let r := page.region
  let n := s.note r page.page
  let ok := s.pageOk page && s.lazyNow r page.page
  let s := if ok then writeLine r page.page (page.offset / 64 % 64) s else s
  if !ok || n.stale then .next s
  else if (s.staleOf (isExt r)).length < s.staleDepth (isExt r) then
    .next (s.setNote { n with stale := true })
  else
    let s := logInteg { kind := 8, region := r, t := s.pageT r page.page, page := page.page } s
    let (post, tbl) := oncePerSecond s.integ.staleEv (memEv r) s.tick
    let s := { s with integ.staleEv := tbl }.setFlag 0x5000 12
    let s := match post with
      | some k => raiseEvent (memEv r) 3 (le 4 k) s
      | none => s
    .next (faultPulse 72 s)

/-- R400. The oldest stale page of its memory has its code recomputed. -/
def execStaleRecompute (page : PageRef) (s : State) : Out :=
  match (s.staleOf (isExt page.region)).head? with
  | some n =>
    if n.region == page.region && n.page == page.page && !s.warden.safe then .next (s.setNote { n with stale := false })
    else .next s
  | none => .next s

/-- Every stale page of a region is recomputed (R403, R415). -/
def drainRegion (r : Nat) (s : State) : State :=
  (s.integ.notes.filter fun n => n.region == r && n.stale).foldl
    (fun s n => s.setNote { n with stale := false }) s

/-- The memory of a region, as Teasel walks it (R407): 0 transfer SRAM, 1 TCMs, 2 external. -/
def memOf (r : Nat) : Nat := if isExt r then 2 else if r = 0x0F then 1 else 0

/-- A page's place in the walk of its memory. -/
def State.walkPos (s : State) (r p : Nat) : Nat :=
  if isSram r then r * 128 + p
  else if r ≤ 0x10 then p
  else if r = 0x11 then s.regionPages 0x10 + p
  else s.regionPages 0x10 + s.regionPages 0x11 + p

/-- Pages the walk of a memory passes over: the 2,048 of the regions of transfer SRAM and the 128 of `B16`, which no
region's address names (DEDUCED, log 57). -/
def State.walkSize (s : State) (m : Nat) : Nat :=
  if m = 0 then 2176 else if m = 1 then 1280 else s.regionPages 0x10 + s.regionPages 0x11 + s.regionPages 0x12

/-- Ticks between two steps of a walk (R407); a memory whose region changes its strength steps at the rate of the
change (R416). -/
def State.walkStep (s : State) (m : Nat) : Nat :=
  let rate := if s.integ.rsActive && memOf s.integ.rsRegion == m then s.integ.rsRate
    else if m = 0 then s.fld 0x5004 15 0 else if m = 1 then 1280 else s.fld 0x5004 31 16
  ticksS 1 / max rate 1

/-- A step of a memory's walk falls due, and is taken. -/
def walkTo (m next : Nat) (s : State) : State :=
  let s := s.waitUntil ((Tbl.getD (0, 0) s.integ.walk m).2 + s.walkStep m)
  { s with integ.walk := Tbl.setD (0, 0) s.integ.walk m (next, s.tick) }

/-- The walk's next page of a memory: past `B16` it begins again. -/
def State.walkNext (s : State) (m : Nat) : Nat :=
  let n := (Tbl.getD (0, 0) s.integ.walk m).1
  if (if m = 0 then 2048 else s.walkSize m) ≤ n then 0 else n

/-- The page is the one Teasel visits next in its memory (R407, R416): a page corrected since its last visit first,
oldest first, then the walk; while a region of the memory changes its strength, every eighth step. -/
def State.visitDue (s : State) (r p : Nat) : Bool :=
  let m := memOf r
  (!(s.integ.rsActive && memOf s.integ.rsRegion == m) || s.integ.rsStep == 7) &&
    (m == 1 || (s.staleOf (m == 2)).isEmpty) &&
    match s.integ.revisit.find? fun e => memOf e.1 == m with
    | some e => e == (r, p)
    | none => s.walkPos r p == s.walkNext m

/-- A visit begins, at its time: the page's turn is past. -/
def visitPage (r p : Nat) (s : State) : State :=
  let m := memOf r
  let back := s.integ.revisit.contains (r, p)
  let s := walkTo m (if back then s.walkNext m else s.walkNext m + 1) s
  { s with integ := { s.integ with
    rsStep := if s.integ.rsActive && memOf s.integ.rsRegion == m then 0 else s.integ.rsStep
    revisit := s.integ.revisit.filter (· != (r, p)) } }

/-- R407, R408. The scrubber visits the next page and finds so many bits in error; it reads valid lines only. A stale
page comes before every other, and its code is recomputed. -/
def execScrubVisit (page : PageRef) (errors : Nat) (s : State) : Out :=
  let r := page.region
  if !s.pageOk page || !s.flag 0x5000 0 then .next s
  else
    let n := s.note r page.page
    if n.stale then .next (s.setNote { n with stale := false })
    else if !s.visitDue r page.page then .next s
    else
      let s := visitPage r page.page s
      if n.poisoned then .next s
      else if errors = 0 || !s.anyLine r page.page then .next (s.setNote { n with visits := 0 })
      else if s.pageT r page.page < errors then
        let s := descriptorsLost page (poison r page.page (uncorrectable page 0 0xFF s))
        .next (if r == 0x0E then journalLost s else faultPulse (ueFs r) s)
      else
        let s := s.setNote { n with visits := n.visits + 1 }
        let s := if 3 ≤ n.visits + 1 then retireOf r page.page s else s
        .next (correctPage page errors 0 0xFF s)

/-! ### Region settings -/

/-- R296 `integ.status`. -/
def coreIntegStatus (r : Req) (s : State) : CmdRes :=
  let n := u8 r.params 0
  if 0x14 ≤ n then .refuse .badParam []
  else
    let x := s.region n
    .query ([byte (s.rgnState n), byte (s.rgnT n), byte (s.rgnMode n), byte (s.rgnRetain n)] ++
      le 4 (s.regionPages n) ++ le 4 (s.atTarget n) ++ le 4 x.corr ++ le 4 x.ue ++ le 4 x.retired)

/-- The row of `coreIntegStatus`. -/
def execIntegStatus (mb : Fin 8) (s : State) : Out := runOp mb 0x0901 coreIntegStatus s

/-- Why a region's mode and retention may not take these values (R415, R418), if so. -/
def State.regionBar (s : State) (n mode retain : Nat) : Option Status :=
  if 0x14 ≤ n || 1 < mode || 1 < retain || (0x10 ≤ n && retain == 0) then some .badParam
  else if n ∈ [0x0E, 0x0F, 0x12, 0x13] || (n = 0x10 && mode = 1) then some .notPermitted
  else if s.rgnState n == 1 then some .mixed
  else none

/-- A region takes a mode and a retention; on the way to `EAGER` its stale pages are recomputed (R415). -/
def setRegionMode (n mode retain : Nat) (s : State) : State :=
  let s := if mode = 0 then drainRegion n s else s
  s.setRegion n { s.region n with mode := some mode, retain := some retain }

/-- R296, R415 `integ.region`. -/
def coreIntegRegion (r : Req) (s : State) : CmdRes :=
  let n := u8 r.params 0
  match s.regionBar n (u8 r.params 1) (u8 r.params 2) with
  | some st => .refuse st []
  | none => .commit [] (setRegionMode n (u8 r.params 1) (u8 r.params 2) s)

/-- The row of `coreIntegRegion`. -/
def execIntegRegion (mb : Fin 8) (s : State) : Out := runOp mb 0x0902 coreIntegRegion s

/-- A region reads uniform again where its pages agree (R416, R418). -/
def settleRuns (n : Nat) (s : State) : State :=
  let x := s.region n
  match x.runs with
  | [(_, t)] => s.setRegion n { x with t := some t, runs := [], mixed := false }
  | _ => s

/-- The last page stands at the new strength (R416). -/
def rsDone (s : State) : State :=
  let n := s.integ.rsRegion
  let s := settleRuns n { s with integ.rsActive := false, integ.rsRegion := 0x1F }
  raiseEvent 68 2 [byte n, byte s.integ.rsT] s

/-- A running change of strength ends early (R418) with a reason; the region is `MIXED` where its pages
differ. -/
def rsEnd (reason : Nat) (s : State) : State :=
  if !s.integ.rsActive then s
  else
    let n := s.integ.rsRegion
    let s := { s with integ.rsActive := false, integ.rsRegion := 0x1F }
    let s := settleRuns n (s.setRegion n { s.region n with mixed := true })
    let s := logInteg { kind := 7, region := n, t := s.integ.rsT, page := s.integ.rsNext - 1, req := 5 } s
    raiseEvent 68 3 ([byte n, byte reason, 0, 0] ++ le 4 s.integ.rsDone) s

/-- R296, R416 `integ.restrength`. -/
def coreIntegRestrength (r : Req) (s : State) : CmdRes :=
  let n := u8 r.params 0
  let t := u8 r.params 1
  let rate := if u16 r.params 2 = 0 then 1000 else u16 r.params 2
  if 0x14 ≤ n || 32 < t || t % 4 != 0 then .refuse .badParam []
  else if n ∈ [0x0E, 0x0F, 0x12, 0x13] then .refuse .notPermitted []
  else if s.integ.rsActive then .refuse .busy []
  else
    let runs := s.rgnRuns n
    let todo := s.regionPages n - runCount t (s.regionPages n) runs
    let s := s.setRegion n { s.region n with t := some t, runs := runs, mixed := false }
    let s := { s with integ := { s.integ with
      rsActive := true, rsRegion := n, rsT := t, rsRate := rate, rsDone := 0, rsTotal := todo, rsNext := 0, rsStep := 0 } }
    let s := raiseEvent 68 1 ([byte n, byte t, 0, 0] ++ le 4 todo) s
    .commit (le 4 todo ++ le 4 ((8 * todo + 7 * rate - 1) / (7 * rate))) (if todo = 0 then rsDone s else s)

/-- The row of `coreIntegRestrength`. -/
def execIntegRestrength (mb : Fin 8) (s : State) : Out := runOp mb 0x0903 coreIntegRestrength s

/-- One page of a change of strength (R416): decoded at its own strength, with so many bits in error, and encoded
at the new one. -/
def restrengthPage (n p errors offset : Nat) (s : State) : State :=
  let g : PageRef := { region := n, page := p, offset := offset }
  let x := s.note n p
  let s := if errors = 0 || x.poisoned then s
    else if x.stale || s.pageT n p < errors then
      faultPulse (ueFs n) (poison n p (uncorrectable g 5 0xFF s))
    else correctPage g errors 5 0xFF s
  let s := s.setNote { s.note n p with stale := false }
  let s := s.setRegion n { s.region n with runs := tagPages p 1 s.integ.rsT (s.region n).runs }
  { s with integ.rsDone := s.integ.rsDone + 1, integ.rsNext := p + 1, integ.rsStep := s.integ.rsStep + 1 }

/-- R416. The next page of the change under way, at the rate asked for; every eighth step scrubs instead, and after
the last page the change is done. -/
def execRestrengthStep (errors offset : Nat) (s : State) : Out :=
  let n := s.integ.rsRegion
  if !s.integ.rsActive || !s.flag 0x5000 0 || s.warden.mode || s.warden.safe || s.integ.rsStep == 7 then .next s
  else match nextOff s.integ.rsT s.integ.rsNext (s.region n).runs with
  | none => .next (rsDone s)
  | some p =>
    if s.regionPages n ≤ p then .next (rsDone s)
    else
      let s := restrengthPage n p errors offset (walkTo (memOf n) (s.walkNext (memOf n)) s)
      .next (if s.integ.rsDone = s.integ.rsTotal then rsDone s else s)

/-- R418. A change of strength ends early: `ENABLE` is 0, or warden mode runs. -/
def execRsEnded (s : State) : Out :=
  if s.warden.safe then .next s
  else if s.warden.mode then .next (rsEnd 2 s)
  else if !s.flag 0x5000 0 then .next (rsEnd 3 s)
  else .next s

/-- R296, R407 `integ.scrub`. -/
def coreIntegScrub (r : Req) (s : State) : CmdRes :=
  let m := u8 r.params 0
  let rate := u16 r.params 2
  if 1 < m || rate = 0 then .refuse .badParam []
  else .commit [] (if m = 0 then s.setFld 0x5004 15 0 rate else s.setFld 0x5004 31 16 rate)

/-- The row of `coreIntegScrub`. -/
def execIntegScrub (mb : Fin 8) (s : State) : Out := runOp mb 0x0904 coreIntegScrub s

/-- The 16 bytes of a log entry (R422). -/
def LogEnt.bytes (e : LogEnt) : List Byte :=
  [byte e.kind, byte e.region, byte e.t, byte e.bits] ++ le 4 e.page ++ le 2 e.offset ++
    [byte e.req, byte e.core] ++ le 4 e.time32

/-- R296 `integ.log`. -/
def coreIntegLog (r : Req) (s : State) : CmdRes :=
  let l := (s.integ.log.drop (u8 r.params 0)).take 14
  .query (byte l.length :: zeros 15 ++ (l.map LogEnt.bytes).flatten)

/-- The row of `coreIntegLog`. -/
def execIntegLog (mb : Fin 8) (s : State) : Out := runOp mb 0x0905 coreIntegLog s

/-! ### Rotation -/

/-- A rotation of a bank begins (R409), out or back; `B16` is ON for it. -/
def startRotation (bank phase : Nat) (s : State) : State :=
  let s := if phase = 1 then s.setDom 0x20 { s.dom 0x20 with st := 0 } else s
  { s with integ.rotPhase := phase, integ.rotBank := bank }

/-- R296, R409, R410, R412 `integ.rotate`. -/
def coreIntegRotate (r : Req) (s : State) : CmdRes :=
  let b := u8 r.params 0
  let back := u8 r.params 1
  let i := s.integ
  if 15 < b || 1 < back then .refuse .badParam []
  else if back = 1 && i.rotRetired && i.rotBank == b then .refuse .notPermitted []
  else if back = 1 && i.rotPhase == 0 then .refuse .wrongState []
  else if back = 0 then
    if i.rotPhase != 0 then .refuse .busy []
    else .commitWait .rotate (startRotation b 1 s)
  else if i.rotBank != b || i.rotPhase != 2 || i.rotBist || s.test.bist != 0 then .refuse .busy []
  else .commitWait .rotate (startRotation b 3 s)

/-- The row of `coreIntegRotate`. -/
def execIntegRotate (mb : Fin 8) (s : State) : Out := runOp mb 0x0906 coreIntegRotate s

/-- The bank in `B16` stays there for good (R412, R414). -/
def retireBank (s : State) : State :=
  let b := s.integ.rotBank
  let r := if 14 ≤ b then 0x0E else b
  let s := { s with
    integ := { s.integ with rotRetired := true, rotRetire := false, due := s.integ.due.filter (· != (0x100, b)),
                            toNor := s.integ.toNor ++ [(0x100, b)] }
    keeper.b16Retired := true }
  let s := logInteg { kind := 6, region := r, t := s.rgnT r, page := b } s
  raiseEvent 69 3 [byte b] s

/-- A `test.bist` ends (R507, R508): its result stands in `test.result`, EV122 tells, and its command is
answered. -/
def bistFinish (what : Nat) (s : State) : State :=
  let t := s.test
  let s := { s with test := { t with bist := 0, bistPaused := [] } }
  let s := raiseEvent 122 1 [byte what, byte t.bistResult] s
  completeWhere (fun w => w == .bist) .ok ([byte t.bistResult, 0, 0, 0] ++ le 4 t.bistSig) s

/-- R409. The copy completes and the addresses are remapped in one cycle; `B16` takes the domain settings of the bank
it holds (R457). -/
def execRotationCopyDone (s : State) : Out :=
  let b := s.integ.rotBank
  let r := if 14 ≤ b then 0x0E else b
  if s.warden.safe then .next s
  else if s.integ.rotPhase == 1 then
    let s := { s with integ.rotPhase := 2, keeper.b16Bank := b, keeper.b16Retired := s.integ.rotRetire }
    let s := [0, 4, 8].foldl (fun s o => s.setReg (0x6300 + o) (s.reg (0x6100 + 16 * (0x10 + b) + o))) s
    let s := logInteg { kind := 4, region := r, t := s.rgnT r, page := b } s
    let s := raiseEvent 69 1 [byte b, 1] s
    let s := if s.integ.rotRetire then retireBank s else s
    .next (completeWhere (fun w => w == .rotate) .ok [] s)
  else if s.integ.rotPhase == 3 then
    let s := { s with integ.rotPhase := 0, integ.rotBank := 0x1F, integ.rotBist := false,
                      keeper.b16Bank := 0x1F, keeper.b16Retired := false }
    let s := s.setDom 0x20 { s.dom 0x20 with st := 2 }
    let s := logInteg { kind := 5, region := r, t := s.rgnT r, page := b } s
    let s := raiseEvent 69 1 [byte b, 0] s
    let s := completeWhere (fun w => w == .rotate) .ok [] s
    .next (if s.test.bist == 2 then bistFinish (0x80 + b) s else s)
  else .next s

/-! ### Retirement -/

/-- R412. A bank that meets a retirement condition is rotated out for good, or stays where `B16` holds a
retired bank. -/
def execBankRetired (bank : Fin 17) (s : State) : Out :=
  let b := bank.val
  let i := s.integ
  if !i.due.contains (0x100, b) || s.warden.safe then .next s
  else if i.rotRetired then
    let s := { s with integ.due := i.due.filter (· != (0x100, b)) }
    .next (raiseEvent 69 6 [byte b] (faultPulse 73 s))
  else if i.rotPhase == 0 then
    .next (startRotation b 1 { s with integ.rotRetire := true })
  else if i.rotBank == b && i.rotPhase == 2 then
    .next (retireBank s)
  else if i.rotBank == b && i.rotPhase == 1 then .next { s with integ.rotRetire := true }
  else .next s

/-- Spare frames left (R414). -/
def State.sparesLeft (s : State) : Nat := s.regionPages 0x13 - s.integ.spareUsed

/-- R413, R414. An external page that meets a retirement condition is copied into a spare frame. -/
def execPageRetired (page : PageRef) (s : State) : Out :=
  let k := (page.region, page.page)
  if !s.integ.due.contains k || s.warden.safe || !isExt page.region then .next s
  else
    let s := { s with integ.due := s.integ.due.filter (· != k) }
    if s.sparesLeft = 0 then
      .next (raiseEvent 69 5 ([byte page.region, 0, 0, 0] ++ le 4 page.page) (faultPulse 74 s))
    else
      let x := s.region page.region
      let s := s.setRegion page.region { x with retired := satInc x.retired 65535 }
      let s := s.setNote { s.note page.region page.page with visits := 0 }
      let s := { s with integ.spareUsed := s.integ.spareUsed + 1, integ.toNor := s.integ.toNor ++ [k] }
      let s := logInteg { kind := 3, region := page.region, t := s.pageT page.region page.page,
                          page := page.page } s
      let s := raiseEvent 69 2 ([byte page.region, 0, 0, 0] ++ le 4 page.page) s
      if 10 * s.sparesLeft ≤ s.regionPages 0x13 && !s.integ.spareLow then
        .next (raiseEvent 69 4 (zeros 4 ++ le 4 s.sparesLeft)
          ({ s with integ.spareLow := true }.setFlag 0x5000 13))
      else .next s

/-- R414. What has been retired is recorded in NOR. -/
def execRetirementListWrite (s : State) : Out :=
  .next { s with boot.retireList := s.boot.retireList ++ s.integ.toNor, integ.toNor := [] }

/-! ### Injection -/

/-- R296, R421 `integ.inject`. -/
def coreIntegInject (r : Req) (s : State) : CmdRes :=
  let n := u8 r.params 0
  let page := u32 r.params 4
  let off := u16 r.params 8
  if 0x14 ≤ n || s.regionPages n ≤ page || (if n = 0x0F then 1024 else 4096) ≤ off then .refuse .badParam []
  else if s.rgnState n == 1 then .refuse .mixed []
  else
    let s := (s.setFld 0x5044 23 0 page).setReg 0x5048 (off + 65536 * u8 r.params 10)
    .commit [] ((((s.setFld 0x5040 12 8 n).setFld 0x5040 21 16 1).clrFlag 0x5040 24).setFlag 0x5040 0)

/-- The row of `coreIntegInject`. -/
def execIntegInject (mb : Fin 8) (s : State) : Out := runOp mb 0x0907 coreIntegInject s

/-- R421. A write to a byte of the range of an armed injection takes the flip. -/
def execInjectionFired (page : PageRef) (byteOff : Nat) (s : State) : Out :=
  let o := s.fld 0x5048 11 0
  if s.flag 0x5040 0 && s.fld 0x5040 12 8 == page.region && s.fld 0x5044 23 0 == page.page &&
      o ≤ byteOff && byteOff < o + max (s.fld 0x5040 21 16) 1 && !s.warden.safe then
    .next (writeLine page.region page.page (byteOff / 64 % 64) ((s.clrFlag 0x5040 0).setFlag 0x5040 1))
  else .next s

end Sys2Proof.Machine
end

