-- ==== Sys2Proof/Machine/Faults.lean ====
section
/-!
DEFINITION. The fault collector's commands and events (R426 to R436, R453, R511): counting, wire faults,
forces and clears, the built-in actions, the self-check, and the clock monitor.
-/

namespace Sys2Proof.Machine

/-! ### Clearing -/

/-- Some source of a group still stands reacted as `GROUP_SAFE`. -/
def State.groupSafeHeld (s : State) (g : Nat) : Bool :=
  s.campion.srcs.any fun e => (e.2.st == 2 || e.2.st == 3) && e.2.reactedAs == 3 && srcGroup e.1 == g

/-- R434. A source goes to `CLEAR`; power its `GROUP_SAFE` removed returns where nothing else holds it. -/
def clearSrc (n : Nat) (s : State) : State :=
  let f := s.src n
  let s := s.setSrc n { f with st := 0, subs := [], downgraded := false, reactedAs := 0 }
  let s := raiseEvent 80 4 [byte n] s
  let g := srcGroup n
  if f.st == 2 && f.reactedAs == 3 && !s.groupSafeHeld g && (s.group g).engine != 4 then groupReturn g s else s

/-! ### Built-in actions -/

/-- The built-in action of an event that a force or a wire brings about (R426, R428): what the source's block
does besides the count. The sources left out act on a condition of their own block. What a flush of the relay so brought
about sends again is a free value. -/
def builtIn (n : Nat) (s : State) : State :=
  if s.warden.safe && n != 95 then s
  else if 48 ≤ n && n ≤ 53 then startGroup (n - 48) s
  else if n == 54 then startMgmt 1 s
  else if n == 55 || n == 106 then startMgmt 2 s
  else if n == 70 then epochBreak 3 s
  else if 80 ≤ n && n ≤ 84 then flushQueue (n - 80) 0 0 s
  else if n == 85 then flushQueue 5 (s.free.toNat % 64) (s.free.toNat / 64 % 65536) s.drawn
  else if n == 95 then { s with boot.resetReq := some (6, s.tick + ticksMs 1) }
  else if n == 105 then
    { s with keeper := { s.keeper with ltnCount := satInc s.keeper.ltnCount 65535, ltnWall := s.chicory.wall.ns } }
  else s

/-- R427. A wire fault: one event on the source, one on FS59, the source's bit and the event. -/
def wireFault (n pat : Nat) (s : State) : State :=
  if !s.srcRaised n || s.srcMasked n then s
  else
    let s := countEvent n pat s
    let s := (s.setFlag (0xC30 + 4 * (n / 32)) (n % 32)).setFlag 0xC00 12
    let s := raiseEvent 80 3 [byte n, byte pat] s
    builtIn n (if n == 59 then s else faultPulse 59 s)

/-- R427. A source's pair changes to fault for 2 samples. The sources that stand at fault for their own
restart do so. -/
def execFaultEvent (src : Source) (persists : Bool) (s : State) : Out :=
  let n := src.val
  if !s.srcRaised n || s.srcMasked n || (s.src n).input != 1 then .next s
  else if n == 54 then .next (mgmtFault 1 s)
  else if n == 55 then .next (mgmtFault 2 s)
  else if 48 ≤ n && n ≤ 53 then .next (groupFault (n - 48) s)
  else .next (builtIn n (if persists then faultHold n s else faultPulse n s))

/-- R427. A 0b00 or 0b11 pattern for 2 samples. -/
def execWireFault (src : Source) (high : Bool) (s : State) : Out :=
  let i := (s.src src.val).input
  if i == 0 || i == 3 then .next s else .next (wireFault src.val (if high then 3 else 0) s)

/-- R430. A source's cause goes. A latched port, a held engine and a restart under way keep their own source
at fault; the short of a `STUCK_ON` port may go (R323). -/
def execCauseGone (src : Source) (s : State) : Out :=
  let n := src.val
  let f := s.src n
  let own : Bool := if n < 48 then (s.port n).pw.latch != 0 && !(s.port n).pw.safeLatch
    else if n ≤ 53 then (s.group (n - 48)).engine == 2
    else if n == 54 || n == 55 then s.mgmtDown.isSome
    else false
  let s := if n < 48 && (s.port n).usb.st == 4 then s.modPw n fun w => { w with voMv := 0 } else s
  if f.pair == 1 then .next s
  else if own then .next (if f.pair == 2 then s else s.setSrc n { f with pair := 2 })
  else .next (faultGone n s)

/-- R436. A self-check mismatch: FS58 and the safe state. -/
def execSelfCheckFail (s : State) : Out := .next (faultPulse 58 { s with campion.selfOk := false })

/-- R426, R483. The clock monitor finds a fault: FS95, the safe state, and a chip reset 1 ms later. -/
def execClock (s : State) : Out :=
  if (s.src 95).input != 1 then .next s else .next (builtIn 95 (faultPulse 95 s))

/-- R429, R430. A sub-window of a source ends. -/
def execSubWindowEnd (src : Source) (s : State) : Out :=
  let n := src.val
  let s := s.waitUntil ((s.subWindow n + 1) * max ((s.srcCfg n).2.2 * 6250) 1)
  let f := s.src n
  if f.st == 1 && s.srcCount n == 0 then .next (s.setSrc n { f with st := 0, subs := [] }) else .next s

/-! ### Commands -/

/-- Eight bytes of `fault.status` for one source (R297). -/
def srcEntry (s : State) (n : Nat) : List Byte :=
  let c := s.srcCfg n
  [byte (s.srcState n), byte c.2.1, byte c.1, byte (min (s.srcCount n) 255)] ++ le 4 (s.src n).total

/-- R297 `fault.status`. -/
def coreFaultStatus (r : Req) (s : State) : CmdRes :=
  let n := u8 r.params 0
  if 127 < n || n % 16 != 0 then .refuse .badParam []
  else .query (byte n :: zeros 15 ++ ((List.range 16).map fun k => srcEntry s (n + k)).flatten)

/-- The row of `coreFaultStatus`. -/
def execFaultStatus (mb : Fin 8) (s : State) : Out := runOp mb 0x0A01 coreFaultStatus s

/-- A class applies to a source (R432). -/
def classFits (n cls : Nat) : Bool := cls ≤ 5 && (cls != 2 || n < 48) && (cls != 3 || n < 54)

/-- A source takes a threshold, a class and a window (R432); its count goes to 0. -/
def setSrcCfg (n : Nat) (c : Nat × Nat × Nat) (s : State) : State :=
  let f := s.src n
  s.setSrc n { f with cfg := if c = srcDefault n then none else some c, subs := [],
                      st := if f.st == 1 then 0 else f.st }

/-- R297, R432 `fault.config`. -/
def coreFaultConfig (r : Req) (s : State) : CmdRes :=
  let n := u8 r.params 0
  let c := (u8 r.params 1, u8 r.params 2, u32 r.params 4)
  if 127 < n || c.1 = 0 || !classFits n c.2.1 || c.2.2 = 0 || 86400000 < c.2.2 then .refuse .badParam []
  else if s.hrs.lock0.getLsbD 6 then .refuse .locked []
  else if srcFixed n then .refuse .notPermitted []
  else .commit [] (setSrcCfg n c s)

/-- The row of `coreFaultConfig`. -/
def execFaultConfig (mb : Fin 8) (s : State) : Out := runOp mb 0x0A02 coreFaultConfig s

/-- R297, R434 `fault.clear`. -/
def coreFaultClear (r : Req) (s : State) : CmdRes :=
  let n := u8 r.params 0
  if 127 < n then .refuse .badParam []
  else if (s.src n).st == 3 then .refuse .wrongState []
  else .commit [] (clearSrc n s)

/-- The row of `coreFaultClear`. -/
def execFaultClear (mb : Fin 8) (s : State) : Out := runOp mb 0x0A03 coreFaultClear s

/-- The wires of a source are released (R428). -/
def releaseSrc (n : Nat) (s : State) : State :=
  let f := { s.src n with forced := 0 }
  s.setSrc n { f with st := if f.st == 3 && !f.present then 2 else f.st }

/-- R428. A force of a source's wires: 0 release, 1 one event, which then releases, 2 holds 0b00, 3 holds 0b11. -/
def forceSrc (n pat : Nat) (s : State) : State :=
  let f := s.src n
  match pat with
  | 0 => releaseSrc n s
  | 1 =>
    if f.forced != 0 then releaseSrc n s
    else if f.input != 1 || !s.srcRaised n || s.srcMasked n then s
    else builtIn n (faultPulse n s)
  | _ =>
    if f.forced == pat then s
    else
      let s := s.setSrc n { f with forced := pat }
      if f.input == 0 || f.input == 3 then s
      else
        let s := wireFault n (if pat == 2 then 0 else 3) s
        s.setSrc n { s.src n with pair := f.pair }

/-- R297, R428, R511 `fault.force`. -/
def coreFaultForce (r : Req) (s : State) : CmdRes :=
  let n := u8 r.params 0
  if 127 < n || 3 < u8 r.params 1 then .refuse .badParam []
  else if s.safetyValid && srcFixed n then .refuse .notPermitted []
  else .commit [] (forceSrc n (u8 r.params 1) s)

/-- The row of `coreFaultForce`. -/
def execFaultForce (mb : Fin 8) (s : State) : Out := runOp mb 0x0A04 coreFaultForce s

end Sys2Proof.Machine
end

