-- ==== Sys2Proof/Machine/Doms.lean ====
section
/-!
DEFINITION. Power domains, the core supply, the keeper and wake (chapter 15): entry stage by stage, abort
points and wakes (R455 to R466), pads (R467), `VCORE` over PMBus (R469 to R471), keeper items and the wake
inputs (R473 to R477), and the epoch breaks of lost supplies (R278).
-/

namespace Sys2Proof.Machine

/-! ### The domains -/

/-- The states the table of R455 lists for a domain. -/
def domLists (d t : Nat) : Bool :=
  t = 0 || (2 ≤ d && !(t = 2 && (d = 0x1E || d = 0x1F)))

/-- The bank a bank domain answers for: `B16` takes the one it holds (R457). -/
def State.domBank (s : State) (d : Nat) : Nat := if d = 0x20 then s.integ.rotBank else d - 0x10

/-- The region of a bank. -/
def bankRegion (b : Nat) : Nat := if 14 ≤ b then 0x0E else b

/-- A bank holds allocated pages. The buffer pool is taken from its first bank upwards; `B12` to `B15` hold
the queues, the tables and the journal (R396). -/
def State.bankUsed (s : State) (b : Nat) : Bool :=
  12 ≤ b || (s.memRuns 0).any fun e => e.1 < 8192 * (b + 1) && 8192 * b < e.1 + e.2

/-- The bank domain is where its bank's contents are: a bank rotated out lies in `B16` (R409, R457). -/
def State.bankHere (s : State) (d : Nat) : Bool :=
  d = 0x20 || !(s.integ.rotPhase == 2 && s.integ.rotBank == s.domBank d)

/-- The domain may leave ON for a state (R455, last column); `mb` carries the request. -/
def State.mayLeave (s : State) (mb : Option Nat) (d t : Nat) : Bool :=
  if d = 2 then (List.range 8).all fun n => mb == some n || (s.mb n).state != .posted
  else if isGrp d then
    let g := d - 3
    !s.safetyGroup g && !(s.chanSet.any fun e => e.2.grp == g && e.2.st ≤ 1) &&
      (1 < g || (List.range 8).all fun i => !s.flag (0x1200 + 16 * (8 * g + i)) 0)
  else if d = 9 then
    !(s.integ.rsActive && 0x10 ≤ s.integ.rsRegion) &&
      (t != 2 || !(s.chanSet.any fun e => e.2.toHistory || e.2.ringed))
  else if d ≤ 0x0B then
    (List.range 24).all fun i =>
      let p := (d - 0x0A) * 24 + i
      s.nPorts ≤ p || ((s.port p).usb.st == 0 && !s.safetyPort p)
  else
    let b := s.domBank d
    !s.bankHere d || (!(s.integ.rsActive && s.integ.rsRegion == bankRegion b) &&
      (!s.bankUsed b || (t = 1 && s.rgnRetain (bankRegion b) == 1)))

/-- The preparation of R458, before the clocks are asked to stop. -/
def prepareDom (d : Nat) (s : State) : State :=
  if d = 2 then checkpointNow s
  else if isGrp d then
    (List.range 8).foldl (fun s i =>
      let p := 8 * (d - 3) + i
      let u := (s.port p).usb
      if u.st == 8 && !u.transparent then
        (setPortState p 9 0 (wireDrop p s)).modUsb p fun u => { u with domSusp := true }
      else s) s
  else if d = 9 then drainRegion 0x10 (drainRegion 0x11 s)
  else if 0x10 ≤ d && s.bankHere d then drainRegion (bankRegion (s.domBank d)) s
  else s

/-- Entry begins (R459), asked for by a command (0) or the idle timer (1); from RET the supply alone is
lowered. -/
def startEntry (d t why : Nat) (s : State) : State :=
  let x := s.dom d
  if x.st = 1 then s.setDom d { x with entry := some (t, why), ap := 3 }
  else
    let s := prepareDom d s
    s.setDom d { s.dom d with entry := some (t, why), ap := 0 }

/-! ### The core supply -/

/-- The next value that waited is written. -/
def vcoreGo (s : State) : State :=
  match s.power.vcoreNext with
  | some m =>
    let s := { s with power.vcoreNext := none }
    if s.power.vcoreMv == m then s else { s with power.vcorePend := some (m, 1), power.vcoreAt := s.tick }
  | none => s

/-- The registers of a port on a port die return to their reset values, and its blocks run again as after a
start (R456). -/
def portDieReset (p : Nat) (s : State) : State :=
  let mine (o : Nat) : Bool := (o / 16 == (0x2000 + 16 * p) / 16) || (o / 0x40 == fuseBase p / 0x40 && o < 0x3C00) ||
    o == psyncReg p
  let s := { s with hrs.regs := s.hrs.regs.filter fun e => !mine e.1 }
  s.setFlag (fuseBase p) 0 |>.setFlag (portBase p) 0

/-- A region is re-initialised at the strength and mode the station profile names, or at the defaults (R420). -/
def reinitRegion (r : Nat) (s : State) : State :=
  let named (op : Nat) : Option ProfEntry := s.entries.reverse.find? fun e => e.op == op && u8 e.params 0 == r
  s.setRegion r { s.region r with
    mixed := false, runs := [], t := (named 0x0903).map fun e => u8 e.params 1
    mode := (named 0x0902).map fun e => u8 e.params 1, retain := (named 0x0902).map fun e => u8 e.params 2 }

/-- What a domain loses in OFF, made good as it returns (R399, R420, R456, R458). -/
def domReset (d old : Nat) (s : State) : State :=
  if d = 0x0A || d = 0x0B then
    ((List.range 24).filter fun i => (d - 0x0A) * 24 + i < s.nPorts).foldl
      (fun s i => portDieReset ((d - 0x0A) * 24 + i) s) s
  else if old != 2 then s
  else if d = 9 then
    let s := { s with integ.notes := s.integ.notes.filter fun n => !isExt n.region }
    [0x10, 0x11, 0x12].foldl (fun s r => reinitRegion r s) s
  else if 0x10 ≤ d && s.bankHere d then
    let b := s.domBank d
    let s := if b < 14 then clearLines b 0 128 s else clearLines 0x0E (128 * (b - 14)) 128 s
    { s with integ.notes := s.integ.notes.filter fun n => bankOf n.region n.page != b || !isSram n.region }
  else s

/-- No group's domain is ON or waking (R469). -/
def State.groupsDown (s : State) : Bool :=
  (List.range 6).all fun g => s.nGroups ≤ g || ((s.dom (3 + g)).st != 0 && (s.dom (3 + g)).wake.isNone)

/-- R459. The power controller takes a domain that is on its way out one stage further: clocks stopped (AP1),
isolated (AP2), moved to its retention supply (AP3), lowered. In warden mode one short of AP3 is abandoned (R465). -/
def execDomainEntry (d : Fin 33) (s : State) : Out :=
  let x := s.dom d
  match x.entry with
  | none => .next s
  | some (t, why) =>
    if s.warden.safe then .next s
    else if x.ap < 3 && s.warden.mode then .next (abandonEntry d 8 s)
    else if x.ap < 3 then
      let s := s.setDom d { x with ap := x.ap + 1 }
      .next (if x.ap = 1 then padHold d true s else s)
    else
      let s := s.setDom d { x with st := t, entry := none, entries := (x.entries + 1) % 4294967296 }
      let s := s.incFld (domBase d + 12) 31 16
      let s := raiseEvent (domEv d) 1 [byte d, byte x.st, byte t, byte why] s
      let s := completeWhere (fun w => w == .domain d t) .ok [] s
      let s := if isGrp d && x.wakeAfter.isNone && s.groupsDown then vcoreAsk 720 s else s
      .next (match x.wakeAfter with
        | some (src, at_) => beginWake d src at_ s
        | none => s)

/-- R460, R461. A wake source acts on a domain. -/
def execDomainWake (d : Fin 33) (src : Fin 16) (s : State) : Out :=
  if !domainExists s.variant d || !s.boot.up || !s.wakeEnabled d src then .next s else .next (domWake d src s)

/-- R460. A waking domain reaches ON after its domain reset; a sleep request that waited runs if the domain is
still idle (R462). -/
def execWakeComplete (d : Fin 33) (s : State) : Out :=
  let x := s.dom d
  match x.wake with
  | none => .next s
  | some (src, t0) =>
    if s.warden.safe || (isGrp d && s.power.vcoreMv < 800) then .next s
    else
      let s := s.setDom d { x with st := 0, ap := 0, wake := none, deferred := none, idleAt := s.tick
                                   wakeUs := (s.tick - t0) / 100 }
      let s := domReset d x.st s
      let s := if s.variant = .svh48 then padHold d false s else s
      let s := raiseEvent (domEv d) 1 [byte d, byte x.st, 0, byte (if src == 24 then 3 else 2)] s
      let s := unprepareDom d s
      let s := completeWhere (fun w => w == .domain d 0) .ok [] s
      let s := if d = 2 && s.cci.abortReq != 0 then resolveAborts s else s
      .next (match x.deferred with
        | some t => if s.mayLeave none d t then startEntry d t 1 s else s
        | none => s)

/-- The idle timer of a domain runs (R463, R465). -/
def State.idleRuns (s : State) (d : Nat) : Bool :=
  domainExists s.variant d && s.flag 0x6000 0 && s.flag (domBase d) 0 && !s.warden.mode && !s.warden.safe

/-- R463. A domain's idle timer expires. -/
def execIdleTimerExpiry (d : Fin 33) (s : State) : Out :=
  let t := s.fld (domBase d) 3 2
  let x := s.dom d
  if !s.idleRuns d || (x.st != 0 && x.wake.isNone) || x.entry.isSome then .next s
  else
    let s := s.waitUntil ((s.dom d).idleAt + ticksUs (s.fld (domBase d + 4) 25 0))
    if (s.dom d).wake.isSome then .next (s.setDom d { s.dom d with deferred := some t })
    else if domLists d t && s.mayLeave none d t then .next (startEntry d t 1 s)
    else .next (s.setDom d { s.dom d with idleAt := s.tick })

/-- R465. Warden mode: every entry not yet at AP3 is abandoned, and the safety group, its port dies and `B12`
to `B15` wake. -/
def wardenDoms (s : State) : State :=
  let s := (List.range 33).foldl (fun s d => if (s.dom d).ap < 3 then abandonEntry d 8 s else s) s
  let g := s.fld 0x30C 2 0
  let dies := (List.range 2).filter fun k => (List.range 48).any fun p => p / 24 == k && s.safetyPort p
  ((3 + g) :: (dies.map (· + 0x0A)) ++ [0x1C, 0x1D, 0x1E, 0x1F]).foldl (fun s d =>
    if (s.dom d).st != 0 || (s.dom d).entry.isSome then domWake d 24 s else s) s

/-! ### PMBus -/

/-- R470. The regulator acknowledges a `VOUT_COMMAND`. -/
def execVcoreAck (s : State) : Out :=
  match s.power.vcorePend with
  | none => .next s
  | some (mv, k) =>
    let s := { s with power.vcorePend := none, power.vcoreMv := mv }
    .next (vcoreGo (raiseEvent 102 1 ([0, 0] ++ le 2 mv ++ [byte k]) s))

/-- The commands that wait for a domain are answered as where it is absent (R460, R499). -/
def absentAnswers (d : Nat) (s : State) : State :=
  (List.range 8).foldl (fun s n =>
    let m := s.mb n
    if m.state == .posted && m.phase == .ready && (s.needDoms m.op (m.req n)).contains d then
      answer n (refusal .wrongState [] s) s
    else s) s

/-- Wakes of groups fail with the regulator (R460). -/
def wakesFail (s : State) : State :=
  ((List.range 6).map (· + 3)).foldl (fun s d =>
    if (s.dom d).wake.isSome then
      let s := s.setDom d { s.dom d with wake := none, wflags := (s.dom d).wflags ||| 8 }
      absentAnswers d (completeWhere (fun w => w == .domain d 0) .wrongState [] (raiseEvent 97 3 [byte d] s))
    else s) s

/-- R470. No acknowledgement in 2 ms: the value is written once more, then FS94. -/
def execVcoreAckTimeout (statusWord : BitVec 16) (s : State) : Out :=
  match s.power.vcorePend with
  | none => .next s
  | some (mv, 1) =>
    let s := s.waitUntil (s.power.vcoreAt + ticksMs 2)
    .next ({ s with power.vcorePend := some (mv, 2), power.vcoreAt := s.tick }.incFld 0x6008 23 16)
  | some (mv, _) =>
    let s := s.waitUntil (s.power.vcoreAt + ticksMs 2)
    let s := { s with power.vcorePend := none, power.pmsw := statusWord.toNat }.setFlag 0x6000 12
    let s := raiseEvent 102 2 ([0, 0] ++ le 2 mv ++ le 2 statusWord.toNat) s
    .next (faultPulse 94 (vcoreGo (if mv == 800 then wakesFail s else s)))

/-- R471. `PM_ALERT_N` falls. -/
def execPmAlert (statusWord : BitVec 16) (s : State) : Out :=
  let w := statusWord.toNat
  let bad := bit w 15 || bit w 5 || bit w 4 || bit w 3
  let s := raiseEvent 102 3 (zeros 4 ++ le 2 w ++ [byte (b2n bad)]) { s with power.pmsw := w }
  .next (if bad then faultPulse 94 s else s)

/-! ### Commands -/

/-- R298, R457 `dom.pstate`. -/
def coreDomPstate (r : Req) (s : State) : CmdRes :=
  let d := tIndex r.target
  let t := u8 r.params 0
  let x := s.dom d
  if 2 < t then .refuse .badParam []
  else if !domLists d t || (d = 0x20 && s.integ.rotPhase == 0) then .refuse .notPermitted []
  else if t = 0 then
    if x.st = 0 && x.entry.isNone then .commit [] s
    else
      let s := domWake d 9 s
      if (s.dom d).st = 0 && (s.dom d).entry.isNone then .commit [] s else .commitWait (.domain d 0) s
  else if x.st == 2 && t = 1 then .refuse .wrongState []
  else if x.entry.isNone && x.wake.isNone && x.st == t then .commit [] s
  else if x.entry.isNone && x.wake.isNone && !s.mayLeave (some r.mb) d t then .refuse .wrongState []
  else if x.entry.isSome || x.wake.isSome then .refuse .busy []
  else
    let s := startEntry d t 0 s
    if d = 2 then .commit [] s else .commitWait (.domain d t) s

/-- The row of `coreDomPstate`. -/
def execDomPstate (mb : Fin 8) (s : State) : Out := runOp mb 0x0B10 coreDomPstate s

/-- R298, R463 `dom.pcfg`. -/
def coreDomPcfg (r : Req) (s : State) : CmdRes :=
  let d := tIndex r.target
  let us := u32 r.params 0
  let t := u8 r.params 4
  let m := u32 r.params 8
  if (us != 0 && (us < 100 || 60000000 < us)) || t = 0 || 2 < t || 64 ≤ m then .refuse .badParam []
  else if !domLists d t then .refuse .notPermitted []
  else
    let b := domBase d
    let s := (s.setFld b 3 2 t).setFld (b + 8) 5 0 m
    let s := if us = 0 then s.clrFlag b 0 else (s.setFld (b + 4) 25 0 us).setFlag b 0
    .commit [] (s.setDom d { s.dom d with idleAt := s.tick })

/-- The row of `coreDomPcfg`. -/
def execDomPcfg (mb : Fin 8) (s : State) : Out := runOp mb 0x0B11 coreDomPcfg s

/-- The last-wake record (R466). -/
def Domain.lastWake (x : Domain) : List Byte :=
  [byte x.lastSrc, byte x.wflags, byte x.fromSt, byte x.toWas] ++ le 4 x.wakeTime ++ le 4 x.wakeUs ++ le 4 x.entries

/-- R298 `dom.status`. -/
def coreDomStatus (r : Req) (s : State) : CmdRes :=
  let d := tIndex r.target
  let b := domBase d
  .query ([byte (s.dom d).st, 0, 0, 0] ++ le 4 (if s.flag b 0 then s.fld (b + 4) 25 0 else 0) ++
    le 4 (s.fld (b + 8) 5 0) ++ zeros 4 ++ (s.dom d).lastWake)

/-- The row of `coreDomStatus`. -/
def execDomStatus (mb : Fin 8) (s : State) : Out := runOp mb 0x0B12 coreDomStatus s

/-- R298 `dom.keeper`. -/
def coreDomKeeper (_ : Req) (s : State) : CmdRes :=
  let k := s.keeper
  .query (le 4 k.epoch ++ le 4 k.ltnCount ++ le 8 k.ltnWall ++ le 8 s.rtcNow ++ le 4 k.sealCseq ++
    [byte (b2n k.sealValid + 2 * b2n k.retLow)])

/-- The row of `coreDomKeeper`. -/
def execDomKeeper (mb : Fin 8) (s : State) : Out := runOp mb 0x0B13 coreDomKeeper s

/-! ### The keeper -/

/-- R475. An edge on a wake input whose new level has held: latched where its polarity is armed, and a wake
source. -/
def execWakeInput (i : Fin 4) (rising : Bool) (s : State) : Out :=
  let k := s.keeper
  let pol := bits k.wakeCfg (5 + 2 * i) (4 + 2 * i)
  if !bit k.wakeCfg i || !(pol == 2 || (pol == 0) == rising) then .next s
  else
    let s := { s with keeper := { k with wakeSeen := k.wakeSeen ||| 2 ^ i.val, wakeLast := i,
                                         wakeTime := s.rtcNow % 4294967296 } }
    if !s.boot.up then .next { s with keeper.wakeOff := s.keeper.wakeOff ||| 2 ^ i.val }
    else .next (wakeAll i (raiseEvent 101 1 ([byte i, 0, 0, 0] ++ le 4 (s.rtcNow % 4294967296)) s))

/-- R474. Every 60 s the pair of wall time and RTC count is written into the keeper. -/
def execWallPairWrite (s : State) : Out :=
  if s.warden.safe || !s.boot.up then .next s
  else
    let s := s.waitUntil (s.keeper.pairAt + ticksS 60)
    .next { s with keeper := { s.keeper with wallNs := s.chicory.wall.ns, wallRtc := s.rtcNow, pairAt := s.tick
                                             wallValid := s.chicory.wall.valid } }

/-- R474. Once every 24 h the wall time goes to its record in NOR. -/
def execNorWallWrite (s : State) : Out :=
  if s.warden.safe || !s.boot.up || !s.chicory.wall.valid then .next s
  else
    let s := s.waitUntil (s.boot.norWallAt + ticksS 86400)
    .next { s with boot.norWall := s.chicory.wall.ns, boot.norWallAt := s.tick }

/-- R461, R478. The wall clock reaches `PD_ALARM`. -/
def execPalarmDue (s : State) : Out :=
  let a := s.reg 0x6014 + 4294967296 * s.reg 0x6018
  if a = 0 || s.power.alarmDone || s.warden.safe then .next s
  else
    let s := s.waitUntil (s.tick + s.chicory.wall.ticksTo a)
    .next (wakeAll 5 { s with power.alarmDone := true })

/-- R278, R477. The retention supply falls below its minimum. -/
def execRetLow (s : State) : Out :=
  let s := raiseEvent 101 2 [] { s with keeper.retLow := true }
  .next (if s.boot.up && !s.warden.safe then epochBreak 4 s else s)

/-- R278, R477. `VBAK` leaves its range while the hub runs. -/
def execVbakLoss (s : State) : Out :=
  if s.keeper.vbakLow then .next s
  else
    let s := raiseEvent 101 3 [1] { s with keeper.vbakLow := true }
    .next (if s.boot.up && !s.warden.safe then epochBreak 4 s else s)

/-- R477. `VBAK` is back at 1.8 V or above. -/
def execVbakRestored (s : State) : Out :=
  if s.keeper.vbakLow then .next (raiseEvent 101 3 [0] { s with keeper.vbakLow := false }) else .next s

end Sys2Proof.Machine
end

