-- ==== Sys2Proof/Machine/Firmware.lean ====
section
/-!
DEFINITION. Image slots and the station profile's storage (R299, R491 to R497): what an image's header says,
the verification of R494, and the `fw.*` and `prof.*` commands.
-/

namespace Sys2Proof.Machine

/-! ### Images -/

/-- A slot by number: false A, true B. -/
def Boot.slot (b : Boot) (n : Bool) : Slot := if n then b.slotB else b.slotA
def Boot.setSlot (b : Boot) (n : Bool) (x : Slot) : Boot := if n then { b with slotB := x } else { b with slotA := x }

/-- Fields of an image header (R493). -/
def Slot.minor (x : Slot) : Nat := u8 x.bytes 3
def Slot.version (x : Slot) : Nat := u32 x.bytes 4
def Slot.rollback (x : Slot) : Nat := u16 x.bytes 8
def Slot.bodyLen (x : Slot) : Nat := u32 x.bytes 12

/-- `MAGIC`, `FW_LINE` and `VARIANTS` fit the part (R493, R494). -/
def imageFits (v : Variant) (b : List Byte) : Bool :=
  u16 b 0 == 0xB1E3 && u8 b 2 == 3 && bit (u16 b 10) (if v = .svh48 then 0 else 1)

/-- The outcome of verifying an image (R299, R494): 0 valid, 1 bad signature, hash or header, 2 below the
rollback index, 3 incomplete. A slot that holds the image the part came with, whose bytes the manual does not
print, counts as one of rollback index 0. -/
def imageOutcome (v : Variant) (thermo : Nat) (x : Slot) : Nat :=
  if (x.st == 4 || x.st == 5) && x.bytes.isEmpty then (if x.rollback < thermo then 2 else 0)
  else if x.st ≤ 2 || x.bytes.length < 256 || x.bytes.length < 256 + x.bodyLen then 3
  else if !imageFits v x.bytes || x.bodyLen == 0 || 1834752 < x.bodyLen ||
      !Config.signatureOk (slice x.bytes 0 112) ||
      Config.sha256 (slice x.bytes 256 x.bodyLen) != slice x.bytes 16 32 then 1
  else if x.rollback < thermo then 2
  else 0

/-- A slot's image is valid on this part now. -/
def State.imageValid (s : State) (n : Bool) : Bool :=
  imageOutcome s.variant s.boot.otpThermo (s.boot.slot n) == 0

/-! ### `fw.*` -/

/-- The slot a command names, or none for a number that is no slot. -/
def slotArg (r : Req) : Option Bool :=
  match u8 r.params 0 with
  | 0 => some false
  | 1 => some true
  | _ => none

/-- `LK_FWUPD` and `LK_PROFILE` (R51). -/
def State.fwLocked (s : State) : Bool := s.hrs.lock0.getLsbD 9
def State.profLocked (s : State) : Bool := s.hrs.lock0.getLsbD 8

/-- A pending activation of a slot is cancelled. -/
def dropActivation (n : Bool) (s : State) : State :=
  match s.boot.pendingAct with
  | some (k, _) => if k == n then { s with boot.pendingAct := none } else s
  | none => s

/-- Sixteen bytes of `fw.info` for a slot (R299). -/
def slotInfo (x : Slot) : List Byte :=
  le 4 x.version ++ [byte x.st, byte x.failures] ++ le 2 x.rollback ++ le 4 x.bytes.length ++ le 4 (crc32 x.bytes)

/-- R299 `fw.info`. -/
def coreFwInfo (_ : Req) (s : State) : CmdRes :=
  let tail := match s.boot.pendingAct with
    | some (_, m, t) => [byte m, 0, 0] ++ le 8 (if m == 2 then t else 0)
    | none => [0xFF, 0, 0] ++ zeros 8
  .query (slotInfo s.boot.slotA ++ slotInfo s.boot.slotB ++ [byte s.boot.otpThermo] ++ tail)

/-- The row of `coreFwInfo`. -/
def execFwInfo (mb : Fin 8) (s : State) : Out := runOp mb 0x0C01 coreFwInfo s

/-- R299, R496 `fw.begin`. The estimate of the erase time is the implementation's own: a free value. -/
def coreFwBegin (r : Req) (s : State) : CmdRes :=
  let size := u32 r.params 4
  match slotArg r with
  | none => .refuse .badParam []
  | some n =>
    if size == 0 || 1835008 < size then .refuse .badParam []
    else if s.fwLocked then .refuse .locked []
    else if s.boot.running == n || (s.boot.slot n).st == 5 || (s.boot.slot n).st == 1 then .refuse .wrongState []
    else
      let s := dropActivation n s
      .commit (le 4 s.free.toNat) { s.drawn with boot := s.boot.setSlot n { st := 1, size := size } }

/-- The row of `coreFwBegin`. -/
def execFwBegin (mb : Fin 8) (s : State) : Out := runOp mb 0x0C02 coreFwBegin s

/-- R299, R496 `fw.write`. -/
def coreFwWrite (r : Req) (s : State) : CmdRes :=
  match slotArg r with
  | none => .refuse .badParam []
  | some n =>
    let x := s.boot.slot n
    let b := x.bytes ++ r.data
    if !r.hasData || u32 r.params 4 != x.bytes.length || (x.st == 2 && x.size < b.length) then .refuse .badParam []
    else if s.fwLocked then .refuse .locked []
    else if x.st == 1 then .refuse .busy []
    else if x.st != 2 then .refuse .wrongState []
    else
      .commit (le 4 b.length)
        { s with boot := s.boot.setSlot n { x with bytes := b, st := if b.length == x.size then 3 else 2 } }

/-- The row of `coreFwWrite`. -/
def execFwWrite (mb : Fin 8) (s : State) : Out := runOp mb 0x0C03 coreFwWrite s

/-- R299, R494 `fw.verify`: a staged image found valid is `verified`. -/
def coreFwVerify (r : Req) (s : State) : CmdRes :=
  match slotArg r with
  | none => .refuse .badParam []
  | some n =>
    let x := s.boot.slot n
    let o := imageOutcome s.variant s.boot.otpThermo x
    let s := { s with boot := s.boot.setSlot n { x with st := if o == 0 && x.st == 3 then 4 else x.st } }
    .commit [byte o] (raiseEvent 120 2 [byte (b2n n), byte o] s)

/-- The row of `coreFwVerify`. -/
def execFwVerify (mb : Fin 8) (s : State) : Out := runOp mb 0x0C04 coreFwVerify s

/-- R299, R497 `fw.activate`. With mode 1 the chip reset begins 5 ms after `DONE`: `MAILBOX_RESPONSE` asks
for it. -/
def coreFwActivate (r : Req) (s : State) : CmdRes :=
  let m := u8 r.params 1
  let t := u64 r.params 8
  match slotArg r with
  | none => .refuse .badParam []
  | some n =>
    if 2 < m then .refuse .badParam []
    else if s.fwLocked then .refuse .locked []
    else if (s.boot.slot n).st != 4 || (m == 2 && !s.chicory.wall.valid) then .refuse .wrongState []
    else
      let s := { s with boot.pendingAct := some (n, m, t) }
      if m == 2 then .commit [] (raiseEvent 120 3 ([byte (b2n n), 0, 0, 0] ++ le 4 t) s)
      else .commit [] s

/-- The row of `coreFwActivate`. -/
def execFwActivate (mb : Fin 8) (s : State) : Out := runOp mb 0x0C05 coreFwActivate s

/-- R299 `fw.cancel`. -/
def coreFwCancel (r : Req) (s : State) : CmdRes :=
  match slotArg r with
  | none => .refuse .badParam []
  | some n =>
    if s.fwLocked then .refuse .locked []
    else
      let s := dropActivation n s
      .commit [] (if (s.boot.slot n).st == 2 then { s with boot := s.boot.setSlot n {} } else s)

/-- The row of `coreFwCancel`. -/
def execFwCancel (mb : Fin 8) (s : State) : Out := runOp mb 0x0C06 coreFwCancel s

/-- R299, R525. A slot erase ends: the slot is staging. The safe state abandons an erase under way. -/
def execEraseEnd (slotB : Bool) (s : State) : Out :=
  let x := s.boot.slot slotB
  if x.st != 1 || s.boot.dark || s.warden.safe then .next s
  else .next (raiseEvent 120 1 [byte (b2n slotB)] { s with boot := s.boot.setSlot slotB { x with st := 2 } })

/-! ### `prof.*` -/

/-- The active profile in NOR: one written since the start, else the one of the start (R299). -/
def Boot.norProfile (b : Boot) : List Byte := b.nextProfile.getD b.profile

/-- R299 `prof.read`. -/
def coreProfRead (r : Req) (s : State) : CmdRes :=
  let p := s.boot.norProfile
  let o := u32 r.params 0
  if p.length < o then .refuse .badParam []
  else .query (le 4 p.length ++ le 4 (u32 p 8) ++ zeros 8 ++ slice p o 224)

/-- The row of `coreProfRead`. -/
def execProfRead (mb : Fin 8) (s : State) : Out := runOp mb 0x0C11 coreProfRead s

/-- R299, R489 `prof.write`: kept beside the active profile, which it replaces at the next chip-level
start. -/
def coreProfWrite (r : Req) (s : State) : CmdRes :=
  let n := u32 r.params 0
  let c := u32 r.params 4
  let d := r.data
  if !r.hasData || n < 16 || 65536 < n || d.length != n || u32 d 8 != c || crc32 (d.drop 16) != c then .refuse .badParam []
  else if s.profLocked then .refuse .locked []
  else .commit [] (raiseEvent 121 1 (le 4 c) { s with boot.nextProfile := some d })

/-- The row of `coreProfWrite`. -/
def execProfWrite (mb : Fin 8) (s : State) : Out := runOp mb 0x0C12 coreProfWrite s

end Sys2Proof.Machine
end

