-- ==== Sys2Proof/Machine/Sched.lean ====
section
/-!
DEFINITION. The meanings of the `sched.*` commands (R236 to R245, R292) and of the rows of a schedule
transaction.
-/

namespace Sys2Proof.Machine

/-- The chip's present transaction: `OPEN` or `PENDING` (R238). -/
def State.presentTxn (s : State) : Option SchedTxn := s.sched.txns.find? fun t => t.st ≤ 1

/-- The present transaction, if it has this number. -/
def State.namedTxn (s : State) (n : Nat) : Option SchedTxn := s.presentTxn.filter fun t => t.txn == n

/-- R236, R238 `sched.begin`. -/
def coreSchedBegin (_ : Req) (s : State) : CmdRes :=
  if s.presentTxn.isSome then .refuse .busy []
  else
    let n := s.sched.nextTxn
    let next := if n == 4294967295 then 1 else n + 1
    .commit (le 4 n) { s with sched.txns := { txn := n, lastUse := s.tick } :: s.sched.txns.filter (·.txn != n)
                              sched.nextTxn := next }

/-- The row of `coreSchedBegin`. -/
def execSchedBegin (mb : Fin 8) (s : State) : Out := runOp mb 0x0501 coreSchedBegin s

/-- The transaction was named: its idle time starts again (R237). -/
def touchTxn (t : SchedTxn) (s : State) : State := s.setTxn { t with lastUse := s.tick }

/-- A refusal of a command that names a transaction, which restarts the idle time of that one (R237). -/
def refuseTxn (n : Nat) (st : Status) (res : List Byte) (s : State) : CmdRes :=
  match s.namedTxn n with
  | none => .refuse st res
  | some t => .noted st res (touchTxn t s)

/-- An item joins the transaction (R238, R239). -/
def addItem (txn : Nat) (i : Item) (s : State) : CmdRes :=
  match s.namedTxn txn with
  | none => .refuse .wrongState []
  | some t =>
    if t.st != 0 then .refuse .wrongState []
    else if 64 ≤ t.items.length then refuseTxn txn .badParam [] s
    else .commit [byte t.items.length] (s.setTxn { t with items := t.items ++ [i], lastUse := s.tick })

/-- The item an add spells (R239), or why it is refused. -/
def parseItem (s : State) (r : Req) : Except Status Item :=
  let b := r.params.drop 8
  let i : Item := { code := u8 r.params 4, target := r.target, body := b }
  match u8 r.params 4 with
  | 1 =>
    if tScope r.target != 3 then .error .badParam
    else match openParse s r.target b with
    | .error .wrongState => .ok { i with spec := (parseSpec (b.drop 16)).getD {} }
    | .error e => .error e
    | .ok c => .ok { i with spec := c.sched }
  | 2 =>
    match parseSpec b with
    | some p => if tScope r.target == 2 && tIndex r.target < s.nPorts && p.cls == 0 then .ok { i with spec := p } else .error .badParam
    | none => .error .badParam
  | 3 =>
    if tScope r.target == 2 && tIndex r.target < s.nPorts && b.length == 16 && u8 b 0 ≤ 4 && allZero b 1 8 then
      .ok i else .error .badParam
  | 4 =>
    if tScope r.target == 4 && tIndex r.target < 2 && b.length == 16 && u8 b 0 < 32 && u8 b 1 ≤ 4 && allZero b 2 8 then .ok i
    else .error .badParam
  | 5 =>
    if !b.isEmpty then .error .badParam
    else match s.slotOf r.target with
    | none => .error .staleHandle
    | some n =>
      if n == 0 then .error .notPermitted else if (s.chan n).st == 4 then .error .wrongState
      else .ok { i with handle := r.target }
  | _ => .error .badParam

/-- R239 `sched.add`. -/
def coreSchedAdd (r : Req) (s : State) : CmdRes :=
  match parseItem s r with
  | .error e => refuseTxn (u32 r.params 0) e [] s
  | .ok i => addItem (u32 r.params 0) i s

/-- The row of `coreSchedAdd`. -/
def execSchedAdd (mb : Fin 8) (s : State) : Out := runOp mb 0x0502 coreSchedAdd s

/-- R239 `sched.change`. -/
def coreSchedChange (r : Req) (s : State) : CmdRes :=
  let txn := u32 r.params 0
  match parseSpec (r.params.drop 8) with
  | none => refuseTxn txn .badParam [] s
  | some p =>
    match s.slotOf r.target with
    | none => refuseTxn txn .staleHandle [] s
    | some n =>
      let c := s.chan n
      if !c.periodic || c.sched.tb != p.tb then refuseTxn txn .badParam [] s
      else if c.st == 4 then refuseTxn txn .wrongState [] s
      else addItem (u32 r.params 0)
        { code := 6, target := r.target, body := r.params.drop 8, spec := p, handle := r.target } s

/-- The row of `coreSchedChange`. -/
def execSchedChange (mb : Fin 8) (s : State) : Out := runOp mb 0x0503 coreSchedChange s

/-! ### Commit -/

/-- The apply point (R240), none where `AT` names one less than 1 ms ahead, an angle clock advancing at its present
rate estimate. -/
def resolveApply (s : State) (mode tb at_ : Nat) : Option Nat :=
  if tb == 4 then
    if mode == 0 then some ((s.chicory.wall.ns + 1000000 + 999999) / 1000000 * 1000)
    else if at_ * 1000 < s.chicory.wall.ns + 1000000 then none else some at_
  else
    let a := s.ang tb
    let inMs := s.angRate tb * 65536 * 100000
    let soon (t : Nat) : Bool := t ≤ a.pos ||
      (!s.angHolds tb && (t - a.pos) * 100000000000000000 < inMs + a.frac)
    if mode == 1 then (if soon at_ then none else some at_)
    else
      let c := a.cycle + 1
      let far := (List.range 1024).find? fun k => !soon ((c + k) * 65536)
      some ((c + far.getD 0) * 65536)

/-- The results of `sched.commit` (R240). -/
def commitResult (t : SchedTxn) (at_ idx code : Nat) : List Byte :=
  le 4 t.txn ++ le 8 at_ ++ le 2 t.items.length ++ [byte idx, byte code]

/-- The new channels of a transaction's items, each with a key of its own beside the slots (R241), or the first
refusal of their parameters. -/
def newChans (s : State) : Nat → List Item → Except Status (List (Nat × Chan))
  | _, [] => .ok []
  | k, i :: l =>
    match newChans s (k + 1) l, (if i.code == 1 then openParse s i.target i.body else .ok {}) with
    | _, .error e => .error e
    | .error e, _ => .error e
    | .ok t, .ok c => .ok (if i.code == 1 then (4096 + k, c) :: t else t)

/-- The set that would stand after the apply point, with the block times and the bounds that its new guaranteed
schedules are admitted at (R226, R241). -/
def admitSet (l : List (Nat × Chan)) : List (Nat × Chan) :=
  l.map fun e =>
    if e.2.guaranteed && e.2.counts && e.2.blockTime == 0 then
      (e.1, admitted ((l.filter fun x => x.1 != e.1).map (·.2)) e.2)
    else e

/-- The entry of an item's channel in that set, if it has one: a new channel, or one that the item changes and
nothing closes. -/
def itemChan (s : State) (set : List (Nat × Chan)) (k : Nat) (i : Item) : Option (Nat × Chan) :=
  match i.code with
  | 1 => set.find? fun e => e.1 == 4096 + k
  | 6 => set.find? fun e => s.slotOf i.target == some e.1 && e.2.st != 4
  | _ => none

/-- The check an item fails against the whole set (R228, R241), 0 where it passes. -/
def itemCheck (s : State) (syncs : Nat → Nat) (set : List (Nat × Chan)) (k : Nat) (i : Item) : Nat :=
  match i.code with
  | 2 =>
    let p := tIndex i.target
    let used := (set.filter fun e => e.2.onBus && e.2.port == p && e.2.guaranteed && e.2.st != 4).length
    if 64 < used + syncs p then 1 else 0
  | 4 => if (Tbl.getD {} (s.can (tIndex i.target)).bufs (u8 i.body 0)).st == 3 then 0 else 9
  | _ =>
    match itemChan s set k i with
    | some e => admission s ((set.filter fun x => x.1 != e.1).map (·.2)) e.2 (syncs e.2.port) (i.code == 1)
    | none => 0

/-- Admission of a transaction over the whole set of channels as it would stand after the apply point (R241): its
items as admitted, or the first that fails and its check (log 56). -/
def admitItems (s : State) (t : SchedTxn) : Except (Nat × Nat ⊕ Status) (List Item) :=
  match newChans s 0 t.items with
  | .error e => .error (.inr e)
  | .ok new =>
    let set := admitSet (new ++ s.setAfter t)
    let l := (List.range t.items.length).zip t.items
    match l.find? fun e => itemCheck s (fun p => s.syncsAfter t p) set e.1 e.2 != 0 with
    | some e => .error (.inl (e.1, itemCheck s (fun p => s.syncsAfter t p) set e.1 e.2))
    | none => .ok (l.map fun e => match itemChan s set e.1 e.2 with
        | some x => { e.2 with lateBound := x.2.lateBound, blockTime := x.2.blockTime }
        | none => e.2)

/-- The new channel of an admitted item takes its slot and is `OPENING` (R241). -/
def placeItem (i : Item) (s : State) : Item × State :=
  if i.code == 1 then
    match openParse s i.target i.body with
    | .ok c =>
      match openCommit { c with byTxn := true, lateBound := i.lateBound, blockTime := i.blockTime } s with
      | some (n, s) => ({ i with handle := s.handle n }, s)
      | none => (i, s)
    | .error _ => (i, s)
  else (i, s)

/-- The items of an admitted transaction in their order (R241). -/
def placeItems (l : List Item) (s : State) : List Item × State :=
  l.foldl (fun acc i => (acc.1 ++ [(placeItem i acc.2).1], (placeItem i acc.2).2)) ([], s)

/-- R240, R241 `sched.commit`. The item that fails admission is reported as refused (R245). -/
def coreSchedCommit (r : Req) (s : State) : CmdRes :=
  let q := r.params
  let txn := u32 q 0
  if 1 < u8 q 4 || 4 < u8 q 5 then refuseTxn txn .badParam [] s
  else match s.namedTxn txn with
  | none => .refuse .wrongState []
  | some t =>
    if t.st != 0 then .refuse .wrongState []
    else match resolveApply s (u8 q 4) (u8 q 5) (u64 q 8) with
    | none => refuseTxn txn .wrongState [] s
    | some at_ =>
      let t := { t with items := t.items.map fun (i : Item) => { i with status := 0, check := 0 }, lastUse := s.tick }
      match admitItems s t with
      | .error (.inr e) => refuseTxn txn e [] s
      | .error (.inl (k, code)) =>
        .noted .noResource (commitResult t at_ k code)
          (s.setTxn { t with items := t.items.modify k fun (i : Item) => { i with status := 3, check := code } })
      | .ok items =>
        let x := placeItems items s
        .commit (commitResult t at_ 0xFF 0)
          (x.2.setTxn { t with st := 1, items := x.1, applyTb := u8 q 5, applyAt := at_ })

/-- The row of `coreSchedCommit`. -/
def execSchedCommit (mb : Fin 8) (s : State) : Out := runOp mb 0x0504 coreSchedCommit s

/-- R237, R241 `sched.cancel`. -/
def coreSchedCancel (r : Req) (s : State) : CmdRes :=
  match s.namedTxn (u32 r.params 0) with
  | none => .refuse .wrongState []
  | some t => if t.st != 0 then .refuse .wrongState [] else .commit [] (s.setTxn { t with st := 3 })

/-- The row of `coreSchedCancel`. -/
def execSchedCancel (mb : Fin 8) (s : State) : Out := runOp mb 0x0505 coreSchedCancel s

/-! ### Report -/

/-- The admission state of a port (R245). -/
def portReport (s : State) (p : Nat) : List Byte :=
  let l := (s.chanSet.filter fun e => e.2.onBus && e.2.port == p && e.2.counts).map (·.2)
  let bus := if (s.port p).usb.speed == 0 then (l.head?.map (·.bus)).getD 0 else (s.port p).usb.speed
  let gs := l.filter Chan.guaranteed
  let bt := blockTime bus l
  let least := gs.foldl (fun n c => if n == 0 then c.blockTime else min n c.blockTime) 0
  let tb := match gs with
    | c :: _ => c.sched.tb
    | [] => 0xFF
  let pl := placed gs
  let peak := if gs.isEmpty then 0
    else peakWindow (if bus == 3 then 125000 else 1000000) (unitNs tb (s.topCeiling gs)) pl.2 pl.1 + bt
  le 4 bt ++ le 4 least ++ [byte (gs.length + s.syncEntries p),
    byte (l.filter fun c => c.periodic && !c.guaranteed).length, byte tb, 0] ++ le 4 peak

/-- One item entry of a report (R245). -/
def itemEntry (k : Nat) (i : Item) : List Byte :=
  [byte k, byte i.code, byte i.status, byte i.check] ++ le 4 i.handle ++ le 4 i.lateBound ++ le 4 i.blockTime

/-- R245 `sched.report`. -/
def coreSchedReport (r : Req) (s : State) : CmdRes :=
  let txn := u32 r.params 0
  let first := u8 r.params 4
  if txn == 0 then
    if tScope r.target == 2 then .query (portReport s (tIndex r.target))
    else .query (le 4 s.upBudget ++ le 4 ((s.loadOf (s.chanSet.map (·.2)) + 999) / 1000))
  else if tScope r.target != 0 then .refuse .badParam []
  else match s.sched.txns.find? fun t => t.txn == txn with
  | none => .refuse .badParam []
  | some t =>
    let entries := ((List.range t.items.length).zip t.items).drop first |>.take 14
    let res := [byte t.st, 0, 0, 0] ++ le 8 t.applyAt ++ zeros 4 ++
      (entries.map fun e => itemEntry e.1 e.2).flatten
    if t.st == 0 then .session res (touchTxn t s) else .query res

/-- The row of `coreSchedReport`. -/
def execSchedReport (mb : Fin 8) (s : State) : Out := runOp mb 0x0506 coreSchedReport s

/-! ### Rows -/

/-- R242, R243. The apply point of the pending transaction, once its clock reaches it. -/
def execApplyPoint (s : State) : Out :=
  match s.pendingTxn with
  | none => .next s
  | some t => .next (atApply t s)

/-- R237. 60 s with no `sched.*` command naming the `OPEN` transaction. -/
def execTransactionIdleTimeout (s : State) : Out :=
  match s.presentTxn with
  | none => .next s
  | some t => if t.st != 0 then .next s else .next ((s.waitUntil (t.lastUse + ticksS 60)).setTxn { t with st := 3 })

end Sys2Proof.Machine
end

