-- ==== Sys2Proof/Machine/Caside.lean ====
section
/-!
DEFINITION. The command interface (chapter 3): doorbells and the tests at acceptance (R64, R71, R76, R286),
responses (R65, R72, R73), aborts (R99), data units and credits (R81 to R84), the event queue and the record
stream as the host reads them (R85, R86, R94, R98), the command pipe (R97), and the `sys.*` commands (R287).
-/

namespace Sys2Proof.Machine

/-- The host link works (R486 step 6), and the hub takes writes over it (R449). -/
def State.hostOn (s : State) : Bool := s.boot.up && !s.boot.dark
def State.hostWrites (s : State) : Bool := s.hostOn && !s.warden.safe

/-! ### The Caside function on USB -/

/-- An endpoint of the Caside function: its address as a descriptor gives it, its transfer type (0 control, 2 bulk,
3 interrupt), its largest packet at high and at full speed, and its `bInterval` (every microframe, or frame). -/
structure Endpoint where
  addr : Nat
  kind : Nat
  high : Nat
  full : Nat
  interval : Nat := 0
  deriving DecidableEq, Repr

/-- Class, subclass and protocol of the function's one interface (R96). -/
def casideInterface : Nat × Nat × Nat := (0xFF, 0x5E, 0x03)

/-- Its endpoints (R96): control requests, the command pipe, the data pipe, the record stream, the events. -/
def casideEndpoints : List Endpoint :=
  [{ addr := 0x00, kind := 0, high := 64, full := 64 }, { addr := 0x01, kind := 2, high := 512, full := 64 },
   { addr := 0x02, kind := 2, high := 512, full := 64 }, { addr := 0x81, kind := 2, high := 512, full := 64 },
   { addr := 0x83, kind := 3, high := 64, full := 64, interval := 1 }]

/-! ### Acceptance -/

/-- Commands loader mode accepts (R498). -/
def loaderOp (op : Nat) : Bool :=
  op == 0x0001 || op == 0x0003 || op == 0x0006 || (0x0C01 ≤ op && op ≤ 0x0C12) || op == 0x0B13

/-- Commands for a child that the root itself answers (R298). -/
def rootOp (op : Nat) : Bool := op == 0x0B02 || op == 0x0B03

/-- Session, resync, warden and link state (step 3 of R286; R26, R101, R102, R208, R498). -/
def stateRefusal (n op chip : Nat) (s : State) : Option Status :=
  if s.warden.mode && n != 7 then some .notPermitted
  else if s.boot.loader && !loaderOp op then some .wrongState
  else if !s.cci.session && op != 0x0001 && op != 0x0003 then some .wrongState
  else if s.cci.resyncPend && n != 7 then some .wrongState
  else if chip != s.domain.chipNum && !rootOp op && !(s.child chip).joined then some .wrongState
  else none

/-- `CSEQ` classification (R76, R256): none lets the command run. -/
def classify (n cseq : Nat) (s : State) : Option Phase :=
  match cached s.cci cseq with
  | some e =>
    match e.resp with
    | some r => some (.answered { r with cached := true })
    | none => some (.waiting (.cacheEntry cseq))
  | none =>
    if (List.range 8).any (fun k => k != n && (s.mb k).state == .posted && (s.mb k).cseq == cseq) ||
        !newer32 cseq s.cci.evictHi then some (.answered (refusal .duplicate [] s))
    else none

/-- An item of a transaction of this chip names another chip (R238), which has none of that number. -/
def State.otherChip (s : State) (op chip txn : Nat) : Bool :=
  (op == 0x0502 || op == 0x0503) && (s.namedTxn txn).isSome && (s.child chip).txn != some txn

/-- The tests of steps 1 to 5 of R286 on an accepted window, the data path's (R83), and the relay (R207). -/
def judge (n : Nat) (w : List Byte) (s : State) : Phase :=
  let op := u16 w 0
  let chip := tChip (u32 w 8)
  let no (st : Status) : Phase := .answered (refusal st [] s)
  if headerBad s w then no .badParam
  else if n == 7 && op / 256 != 0 && op / 256 != 0x0A then no .notPermitted
  else match stateRefusal n op chip s with
  | some st => no st
  | none =>
    match if op == 0x0001 then none else classify n (u32 w 4) s with
    | some p => p
    | none =>
      let own := chip == s.domain.chipNum || rootOp op
      if own && (match opInfo op with
        | some i => levelBad s i w
        | none => false) then no .expertRequired
      else if bit (u8 w 3) 0 && !s.flag 0x110 0 then no .busy
      else if own then .ready
      else if s.otherChip op chip (u32 w 16) then no .badParam
      else .waiting (.relay chip)

/-- The hub accepts a doorbell on an `IDLE` mailbox; on another it sets `DB_VIOL` (R64). A command restarts the
idle timers of management's domain and, where its target and length stand (R5), of those its object lies in, or
wakes them (R461, R463). -/
def accept (n : Nat) (s : State) : State :=
  let m := s.mb n
  if m.state != .idle then s.setFlag 0x110 10
  else
    let w := m.bytes 0 256
    let m : Mailbox := {
      state := .posted, win := m.win, op := u16 w 0, cseq := u32 w 4, quiet := bit (u8 w 3) 1
      data := bit (u8 w 3) 0, expert := u8 w 2 == 1, order := s.cci.nextOrder, since := s.tick }
    let s := domWake 2 8 { s with cci.nextOrder := s.cci.nextOrder + 1 }
    let p := judge n w s
    let s := s.setMb n { m with phase := p }
    let sound := match opInfo m.op with
      | some i => !shapeBad s i (m.req n)
      | none => false
    if p == .ready && sound && s.boot.rescue.isNone then
      (s.needDoms m.op (m.req n)).foldl (fun s d => domWake d 8 s) s
    else s

/-- Doorbells are accepted in ascending mailbox order (R66). -/
def ring (mask : Nat) (s : State) : State := (bitList 8 mask).foldl (fun s n => accept n s) s

/-- R64. A write to `CCI_DOORBELL`. -/
def execDoorbellRing (mask : Byte) (s : State) : Out :=
  if s.hostWrites then .next (ring mask.toNat s) else .next s

/-- A write of 1 to `CCI_DONE` bits (R65). -/
def doneWrite (mask : Nat) (s : State) : State :=
  (bitList 8 mask).foldl (fun s n =>
    let m := s.mb n
    if m.state == .done then s.setMb n { m with state := .idle } else s.setFlag 0x110 10) s

/-- R65. The host releases mailboxes. -/
def execCciDoneWrite (mask : Byte) (s : State) : Out :=
  if s.hostWrites then .next (doneWrite mask.toNat s) else .next s

/-- A write to `CCI_ABORT.REQ` (R99): resolved at once where the firmware runs that serves it. -/
def abortWrite (mask : Nat) (s : State) : State :=
  if mask == 0 then s
  else
    let since := if s.cci.abortReq == 0 then s.tick else s.cci.abortSince
    let s := domWake 2 8 { s with cci.abortReq := s.cci.abortReq ||| mask, cci.abortSince := since }
    if s.warden.mode || s.mgmtUp then resolveAborts s else s

/-- R99. The host requests aborts. -/
def execAbortReqWrite (mask : Byte) (s : State) : Out :=
  if s.hostWrites then .next (abortWrite mask.toNat s) else .next s

/-! ### Responses -/

/-- Put bytes into a window from an offset on. -/
def putWin (t : Tbl Byte) (off : Nat) : List Byte → Tbl Byte
  | [] => t
  | b :: l => putWin (Tbl.setD 0 t off b) (off + 1) l

/-- Statuses that always carry `COMMITTED` 0 (R73). -/
def neverCommitted (st : Status) : Bool :=
  st == .aborted || st == .duplicate || st == .wrongState || st == .expertRequired || st == .timeout

/-- The bytes of a response (R72). -/
def respBytes (r : Resp) (cseq credits : Nat) : List Byte :=
  let res := r.results.take 240
  le 2 r.status.code ++
    [byte (b2n r.cached + 2 * b2n r.escalated + 4 * b2n (r.committed && !neverCommitted r.status)), 0] ++
    le 4 cseq ++ le 2 res.length ++ le 2 credits ++ le 4 r.time32 ++ res

/-- A command whose `DONE` starts the 5 ms before a chip reset (R287, R299). -/
def Mailbox.asksReset (m : Mailbox) : Bool := m.op == 0x0006 || (m.op == 0x0C05 && Tbl.getD 0 m.win 17 == 1)

/-- The whole response is written, then `DONE` (R65, R72, R84, R560); one that a management restart overtook after
its commit comes from the result cache (R101). -/
def respond (n : Nat) (r : Resp) (s : State) : State :=
  let m := s.mb n
  let r := { r with escalated := r.escalated || m.escalated, cached := r.cached || (m.escalated && r.committed) }
  let s := { s with cci.inq := s.cci.inq.filter fun (e : Nat × Nat) => e.2 != n }
  let s := s.setMb n { m with state := .done, phase := .ready, win := putWin [] 0 (respBytes r m.cseq m.owed)
                              buf := [], owed := 0, committed := false, escalated := false }
  let s := if m.asksReset && r.status == .ok && r.committed && s.boot.resetReq.isNone then
      { s with boot.resetReq := some (2, s.tick + ticksMs 5) }
    else s
  if m.quiet then s else raiseEvent 104 1 ([byte n, 0] ++ le 2 r.status.code ++ le 4 m.cseq) s

/-- R65. The response of a mailbox whose command has been answered. In the safe state only that of the
`warden.enter` that brought it about still comes. -/
def execMailboxResponse (mb : Fin 8) (s : State) : Out :=
  let m := s.mb mb
  match m.state, m.phase with
  | .posted, .answered r =>
    if s.hostOn && (if s.warden.safe then m.op == 0x0A12 else s.warden.mode || s.mgmtDown.isNone) then
      .next (respond mb r s)
    else .next s
  | _, _ => .next s

/-! ### Data units -/

/-- A unit of a command joins the path: it takes a credit until it is consumed, within 20 µs and in the order of
arrival (R82, R84; log 43). -/
def unitIn (n : Nat) (s : State) : State :=
  let due := s.cci.inq.foldl (fun (d : Nat) (e : Nat × Nat) => max d e.1) (s.tick + s.free.toNat % 2001)
  let open_ := s.cci.inq.filter fun e => s.tick < e.1
  let t := { s.drawn with cci.inq := open_ ++ [(due, n)] }
  t.setMb n { s.mb n with owed := (s.mb n).owed + 1 }

/-- One data unit arrives (R82 to R84). One for a mailbox that is not `POSTED` with `DATA` 1, or whose command a
wrong index or `TIMEOUT` has ended, is an orphan. The others cost their command a credit; one that is not the
next expected ends it, and so does one after `LAST` (DEDUCED, log 43); a command already answered takes no
payload. Bits [15:10] of a tag have no effect, and a length of 0 carries no payload (DESIGN CHOICE, log 43). -/
def takeUnit (b : List Byte) (s : State) : State :=
  let tag := u32 b 0
  let n := tag % 8
  let m := s.mb n
  if b.length != 64 then s.setFlag 0x110 14
  else if s.avail == 0 then
    let s := s.setFlag 0x110 12
    raiseEvent 110 1 (le 2 (s.reg 0x110 + 2 * b2n s.dataOn)) s
  else if !s.flag 0x110 0 || m.state != .posted || !m.data || m.dead then
    creditEvent 1 (s.setFlag 0x110 13)
  else
    let t := unitIn n s
    let m := t.mb n
    if !m.takesUnits then t
    else if m.lastSeen || bits tag 31 16 != m.nextUnit then
      answer n (refusal .badParam [] t) (t.setMb n { m with dead := true, buf := [] })
    else
      t.setMb n { m with buf := m.buf ++ slice b 4 (min (bits tag 9 4) 60), nextUnit := m.nextUnit + 1
                         lastSeen := bit tag 3 }

/-- R83. A data unit over `CCI_DATAIN` or the data pipe. -/
def execDataUnit (bytes : List Byte) (s : State) : Out :=
  if s.hostWrites then .next (takeUnit bytes s) else .next s

/-- R83. `LAST` has not come within `DTIMEOUT` of the doorbell. -/
def execDtimeoutExpiry (mb : Fin 8) (s : State) : Out :=
  let m := s.mb mb
  if !m.takesUnits || m.lastSeen || s.warden.safe then .next s
  else
    let s := s.waitUntil (m.since + ticksMs (s.fld 0x118 11 0))
    .next (answer mb (refusal .timeout [] s) (s.setMb mb { s.mb mb with buf := [], dead := true }))

/-! ### The event queue and the record stream -/

/-- The words of the event queue's head (R94). -/
def State.evHead (s : State) : List Byte :=
  match s.cci.evq with
  | e :: _ => e.bytes
  | [] => List.replicate 16 0xFF

/-- The oldest events leave the queue. -/
def dropEvents (n : Nat) (s : State) : State := State.evqLevel { s with cci.evq := s.cci.evq.drop n }

/-- R94. A read of `words` words of `CCI_EVREAD`. -/
def execEventRead (words : Fin 5) (s : State) : Out :=
  if !s.hostOn then .next s
  else
    let s := { s with rdata := s.evHead.take (4 * words.val) }
    .next (if words.val == 4 then dropEvents 1 s else s)

/-- R275. An interrupt packet of up to 4 events; those of a packet without `ACK` stay. -/
def execEp3InEventPacket (n : Fin 5) (acked : Bool) (s : State) : Out :=
  if !s.hostOn || !s.usbHost || s.hub.suspended || s.hub.casideSuspended then .next s
  else
    let s := { s with rdata := ((s.cci.evq.take n.val).map Event.bytes).flatten }
    .next (if acked then dropEvents n s else s)

/-- Take bytes from the front of the ring: those taken, the records whose last byte left, the rest (R85,
R260). -/
def takeBytes : Nat → List (Rec × List Byte) → List Byte × List Rec × List (Rec × List Byte)
  | _, [] => ([], [], [])
  | n, (r, b) :: t =>
    if b.length ≤ n then
      let x := takeBytes (n - b.length) t
      (b ++ x.1, r :: x.2.1, x.2.2)
    else (b.take n, [], (r, b.drop n) :: t)

/-- The transport may start a record: `CUT` items of it, or all of it, stand in the output stage, whose 32
items it heads (R85). -/
def cutMet (cut : Nat) (e : Rec × List Byte) : Bool := cut ≤ min 32 (e.1.size / 8) || e.1.size / 8 ≤ 32

/-- The record queue as far as it is delivered: while `CCI_QCTL.ENABLE` is 1 every record that may start, else
the record on the transport (R85, R92). -/
def State.deliverable (s : State) : List (Rec × List Byte) :=
  if s.flag 0x220 0 then s.cci.ring.takeWhile (cutMet (s.fld 0x234 5 0))
  else if s.startedRec.isSome then s.cci.ring.take 1 else []

/-- Records have left the hub (R260); the ring takes more (R85). -/
def delivered (recs : List Rec) (ring : List (Rec × List Byte)) (s : State) : State :=
  (recs.foldl (fun s r => deliverRec r s) { s with cci.ring := ring }).refill

/-- R94. A read of `words` words of `CCI_RQREAD`: sixteen remove what they return; filler stands where no
record does (R86). -/
def execStreamRead (words : Fin 17) (s : State) : Out :=
  if !s.hostOn then .next s
  else
    let d := s.deliverable
    let x := takeBytes 64 d
    let s := { s with rdata := (fit 64 x.1).take (4 * words.val) }
    .next (if words.val == 16 then delivered x.2.1 (x.2.2 ++ s.cci.ring.drop d.length) s else s)

/-- The packets that carry a transfer on an endpoint (R96, R98): whole ones, then one short or of length zero. -/
def packetsOf (e : Endpoint) (highSpeed : Bool) (bytes : Nat) : List Nat :=
  let m := if highSpeed then e.high else e.full
  List.replicate (bytes / m) m ++ [bytes % m]

/-- The records of one EP1 IN transfer: whole, within 4,096 bytes (R98). -/
def transferOf : Nat → List (Rec × List Byte) → List (Rec × List Byte)
  | _, [] => []
  | n, e :: t => if e.2.length ≤ n then e :: transferOf (n - e.2.length) t else []

/-- R98. An EP1 IN transfer ends; the `ACK` of its last packet delivers its records. -/
def execEp1InTransferEnd (acked : Bool) (s : State) : Out :=
  if !s.hostOn || !s.usbHost || s.hub.suspended || s.hub.casideSuspended then .next s
  else
    let l := transferOf 4096 s.deliverable
    let s := { s with rdata := (l.map (·.2)).flatten }
    .next (if acked then delivered (l.map (·.1)) (s.cci.ring.drop l.length) s else s)

/-! ### The command pipe -/

/-- A command-pipe transfer (R97): the window and the doorbell as one action, or `DB_VIOL`. -/
def pipeCommand (b : List Byte) (s : State) : State :=
  let n := u8 b 0
  if b.length < 20 || 7 < n || !allZero b 1 4 || b.length != 20 + u16 b 16 || (s.mb n).state != .idle then
    s.setFlag 0x110 10
  else
    let m := s.mb n
    accept n (s.setMb n { m with win := putWin m.win 0 (slice b 4 256) })

/-- R97. A transfer completes on EP1 OUT. -/
def execCommandPipeTransfer (bytes : List Byte) (s : State) : Out :=
  if s.hostWrites && s.usbHost && !s.hub.suspended && !s.hub.casideSuspended then .next (pipeCommand bytes s)
  else .next s

/-! ### `sys.*` -/

/-- `HRS_RSTCAUSE` (R48), `HRS_RESTARTS` and `CCI_MBSTATE` (R68) as words. -/
def State.rstcause (s : State) : Nat :=
  s.hrs.cause + 16 * b2n s.hrs.cold + 32 * b2n s.hrs.pfwSeen + 64 * b2n s.hrs.lightning
def State.restarts (s : State) : Nat := s.hrs.mgmtRestarts + 256 * s.hrs.grpRestarts
def MbState.code : MbState → Nat
  | .idle => 0
  | .posted => 1
  | .done => 2
def State.mbstate (s : State) : Nat :=
  (List.range 8).foldl (fun w n => w + (s.mb n).state.code * 4 ^ n) 0 +
    65536 * b2n s.cci.session + 131072 * b2n s.cci.resyncPend + 262144 * b2n s.warden.mode

/-- The results `sys.hello` and `sys.resync` begin with. -/
def State.sessionBytes (s : State) : List Byte :=
  le 4 s.keeper.epoch ++ le 4 s.cci.cseqHi ++ le 4 s.cci.evictHi ++ [byte s.avail]

/-- R103, R280 `sys.hello`. -/
def coreSysHello (r : Req) (s : State) : CmdRes :=
  let new := !s.cci.session
  let s := if new then
      { s with cci.session := true, cci.cseqHi := r.cseq - 1, cci.evictHi := r.cseq - 1, cci.credits := 64
               cci.inq := [] }
    else s
  .session (s.sessionBytes ++ [byte (b2n new), 0, 0] ++ le 4 s.rstcause ++ fit 16 s.cci.closing) s

/-- The row of `coreSysHello`. -/
def execSysHello (mb : Fin 8) (s : State) : Out := runOp mb 0x0001 coreSysHello s

/-- R104 `sys.resync`. -/
def coreSysResync (_ : Req) (s : State) : CmdRes :=
  let n := s.restarts
  let s := { s with cci.resyncPend := false, hrs.mgmtRestarts := 0, hrs.grpRestarts := 0 }
  .session (s.sessionBytes ++ [0, 0, 0] ++ le 4 n ++ le 4 s.mbstate) s

/-- The row of `coreSysResync`. -/
def execSysResync (mb : Fin 8) (s : State) : Out := runOp mb 0x0002 coreSysResync s

/-- Product ID of the chip (R48), and of its Caside function on USB (R3). -/
def State.product (s : State) : Nat := if s.variant = .svh48 then 0x0480 else 0x0160
def State.casideProduct (s : State) : Nat := s.product + 1

/-- Every channel that holds a slot, the anchor channel among them. -/
def State.openChans (s : State) : List Chan := (s.chans.map (·.2)).filter fun c => c.st != 5

/-- R287 `sys.info`. -/
def coreSysInfo (_ : Req) (s : State) : CmdRes :=
  let flags := b2n s.straps.hostsel + 2 * b2n s.safetyValid + 4 * b2n s.warden.mode + 8 * b2n s.cci.session
  .query (le 2 0x3A5E ++ le 2 s.product ++
    [0xB1, 3, byte s.boot.fwMinor, byte s.nPorts, byte s.nGroups, byte s.domain.chipNum,
     byte s.domain.tier, byte s.chipsKnown] ++
    le 2 s.openChans.length ++ le 2 s.sched.quarantined.length ++
    le 2 (s.devices.filter fun e => e.2.used && !e.2.gone).length ++ le 2 (512 * s.nGroups) ++
    [byte (s.openChans.filter Chan.ringed).length, byte flags] ++ le 2 (maskOf s.cci.expert) ++
    le 4 (s.extFrames * 4096 / 1048576) ++ le 8 s.boot.otpSerial)

/-- The row of `coreSysInfo`. -/
def execSysInfo (mb : Fin 8) (s : State) : Out := runOp mb 0x0003 coreSysInfo s

/-- R99, R287 `sys.abort`. Its mask ignores bit 7. -/
def coreSysAbort (r : Req) (s : State) : CmdRes :=
  if r.mb != 7 then .refuse .notPermitted []
  else
    let x := abortMask (u8 r.params 0 % 128) s
    .session x.1 x.2

/-- The row of `coreSysAbort`. One that names a command relayed to a lost child waits for the rejoin
(R208). -/
def execSysAbort (mb : Fin 8) (s : State) : Out :=
  if mb.val == 7 && s.abortHeld s.abortAsked then .next s
  else runOp mb 0x0004 coreSysAbort s

/-- R79. The level of a group changes, with its event; closing 0x0E clears the test multiplexer's `UNLOCK`
(R503). -/
def setExpert (g : Nat) (opn : Bool) (s : State) : State :=
  if s.cci.expert.contains g == opn then s
  else
    let s := if opn then { s with cci.expert := addSorted g s.cci.expert }
      else { s with cci.expert := s.cci.expert.filter (· != g) }
    let s := if g == 0x0E && !opn then s.clrFlag 0xE00 11 else s
    raiseEvent 111 1 [byte g, byte (b2n opn)] s

/-- R79, R287 `sys.expert`. -/
def coreSysExpert (r : Req) (s : State) : CmdRes :=
  let g := u8 r.params 0
  let o := u8 r.params 1
  if g == 0 || 0x0E < g || 1 < o then .refuse .badParam [] else .commit [] (setExpert g (o == 1) s)

/-- The row of `coreSysExpert`. -/
def execSysExpert (mb : Fin 8) (s : State) : Out := runOp mb 0x0005 coreSysExpert s

/-- R287 `sys.reset`. The chip reset begins 5 ms after `DONE`: `MAILBOX_RESPONSE` asks for it. -/
def coreSysReset (r : Req) (s : State) : CmdRes :=
  if u16 r.params 0 != 0x5A5A then .refuse .badParam [] else .commit [] s

/-- The row of `coreSysReset`. -/
def execSysReset (mb : Fin 8) (s : State) : Out := runOp mb 0x0006 coreSysReset s

end Sys2Proof.Machine
end

