-- ==== Sys2Proof/Machine/PdOps.lean ====
section
/-!
DEFINITION. The shared operations of the cable negotiation (chapter 11): the offer and its encoding
(R331, R344), the ladder's resets and the fallback (R348 to R350), role swaps (R354 to R357), modes
(R360 to R363) and the judging of a moisture reading (R351).
-/

namespace Sys2Proof.Machine

/-- The four service ports (R5): P00, P08, P16, P24; on the SVH16 P00 and P08. -/
def State.servicePort (s : State) (p : Nat) : Bool := p % 8 == 0 && p < 32 && p < s.nPorts

/-- A message to the partner, with its data objects. -/
def pdSend (p : Nat) (m : PdSent) (objs : List Nat) (s : State) : State :=
  s.modPd p fun d => { d with sent := m, sentObjs := objs }

/-- What a port advertises by Rp (R342): 0 Default USB power, 1 is 1.5 A, 2 is 3.0 A. -/
def PortPd.rp (d : PortPd) : Nat :=
  if d.contract == 2 && d.rev == 3 && !d.sink then (if d.atomic then 1 else 2) else 0

/-- An atomic message sequence of the port's own begins (R342): SinkTxNG, and its first message goes out at once, or
20 ms later where the port stood at SinkTxOk. -/
def ownSequence (p : Nat) (s : State) : State :=
  let lead := if (s.port p).pd.rp == 2 then ticksMs 20 else 0
  s.modPd p fun d => { d with atomic := true, sentAt := s.tick + lead }

/-- What stands on a pin of the SBU pair (R365). -/
inductive SbuSignal where
  | highZ | moistureTest | trigger | signalReturn | canH | canL
  deriving DecidableEq, Repr

/-- The signals on `Pnn_SBU1` and `Pnn_SBU2` (R341, R365): the plug's orientation turns the pair, so that the partner has
the trigger or CANH on its own SBU1. -/
def PortPd.sbuPins (d : PortPd) : SbuSignal × SbuSignal :=
  let x : SbuSignal × SbuSignal := match d.sbu with
    | 1 => (.moistureTest, .moistureTest)
    | 2 => (.trigger, .signalReturn)
    | 3 => (.canH, .canL)
    | _ => (.highZ, .highZ)
  if d.flipped then (x.2, x.1) else x

/-! ### The offer -/

/-- Ceiling of a port's object on a rail (R331), 10 mA units. -/
def State.ceiling (s : State) (p r : Nat) : Nat :=
  let x := s.port p
  let mv := s.railMv r
  let a := (s.railLim r + x.pw.grant - s.railLoad r) * 10000 / mv
  let b := (s.feedBudget + x.pw.grant - s.feedLoad) * 10000 / mv
  min (min 300 (x.pd.maxMa / 10)) (min a b)

/-- Object 2 as offered now, 0 where it is not (R343). -/
def State.ceilingHi (s : State) (p : Nat) : Nat :=
  if (s.port p).pd.offerHi && (s.rail 1).inBand && 50 ≤ s.ceiling p 1 then s.ceiling p 1 else 0

/-- The source PDOs of an offer (R344). -/
def State.sourcePdos (s : State) (p c1 c2 : Nat) : List Nat :=
  let o1 := (if s.servicePort p then 2 ^ 29 else 0) + 2 ^ 26 + 100 * 1024 + c1
  if c2 == 0 then [o1] else [o1, s.railMv 1 / 50 * 1024 + c2]

/-- `Source_Capabilities` are sent with fresh ceilings (R343, R345). -/
def offer (p : Nat) (s : State) : State :=
  let c1 := s.ceiling p 0
  let c2 := s.ceilingHi p
  let s := pdSend p .sourceCapabilities (s.sourcePdos p c1 c2) s
  s.modPd p fun d => { d with offer1 := c1, offer2 := c2, reoffer := false, sentAt := s.tick }

/-! ### Fast role swap -/

/-- Whether fast role swap is enabled now (R357); a change is posted (R367). -/
def frsCheck (p : Nat) (s : State) : State :=
  let d := (s.port p).pd
  let on := d.frsArm && d.contract == 2 && d.rev == 3 && !d.sink && d.frsPartner
  if on == d.frsEnabled then s
  else raiseEvent p 0x26 [byte (b2n on)] (s.modPd p fun d => { d with frsEnabled := on })

/-! ### The ladder -/

/-- The Type-C-only fallback (R349): 5 V under 2.5 W, and the PD step ends. -/
def fallback (p reason : Nat) (s : State) : State :=
  let s := s.modPw p fun w => { w with grant := 25, grantRail := 1 }
  let s := s.modPd p fun d => { d with
    contract := 1, pos := 0, mv := 5000, mA := 500, done := true, await := 0, atomic := false
    fallbackReason := reason, sendAt := s.tick + ticksS 2, reoffer := false }
  raiseEvent p 0x21 [byte reason] s

/-- The hub's `PR_Swap` is ended by a soft reset: what `pd.swap` then answers the manual leaves open, a free value
(log 60). -/
def swapLost (p : Nat) (s : State) : State :=
  if (s.port p).pd.swapping then
    (completeWhere (fun w => w == .pdSwap p) .ok [s.free.setWidth 8] s.drawn).modPd p fun d => { d with
      swapping := false }
  else s

/-- A soft reset, sent or received (R348); the source offers anew once it is accepted. -/
def softReset (p : Nat) (byPartner : Bool) (reason : Nat) (s : State) : State :=
  let h := (s.port p).pd.hrst
  let s := swapLost p s
  let s := pdSend p (if byPartner then .accept else .softReset) [] s
  let s := s.modPd p fun d => { d with
    await := if byPartner then 0 else 3, atomic := !byPartner, sentAt := s.tick, surgeSoft := false
    reoffer := byPartner && !d.sink, sendAt := s.tick, newPos := 0, entering := 0, nextMode := 0 }
  let s := completeWhere (fun w => w == .altMode p) .wrongState [] s
  raiseEvent p 0x22 [1, byte (b2n byPartner), byte h, byte reason] s

/-- A swap under way ends with an outcome (R355, R356), in the role the port has. -/
def swapEnd (p outcome : Nat) (s : State) : State :=
  let s := s.modPd p fun d => { d with swapping := false, await := 0, atomic := false }
  let s := raiseEvent p 0x23 [1, byte outcome, byte (b2n (s.port p).pd.sink)] s
  completeWhere (fun w => w == .pdSwap p) .ok [byte outcome] s

/-- A hard reset, sent or received (R350, R356): the power cycle begins and the grant is kept. With
`HRST` at 2 already the fallback follows the cycle (R348). -/
def hardReset (p : Nat) (byPartner : Bool) (reason : Nat) (s : State) : State :=
  let h := (s.port p).pd.hrst
  let s := if byPartner then s else pdSend p .hardReset [] s
  let s := if (s.port p).pd.swapping then swapEnd p 3 s else s
  let s := powerOff p 0 0 2 true (sbuOpen p 3 s)
  let s := s.modPd p fun d => { d with
    hrst := satInc h 255, cycling := true, fellAt := s.tick
    fallbackReason := if 2 ≤ h then 2 else d.fallbackReason }
  raiseEvent p 0x22 [2, byte (b2n byPartner), byte (satInc h 255), byte reason] s

/-! ### Roles -/

/-- A service port becomes a sink (R354): both gates off, no grant, `POWERED`, data lines undriven. -/
def toSink (p : Nat) (s : State) : State :=
  let s := usbEnd p 2 s
  let s := s.modUsb p fun u => { u with pull := 0 }
  let s := releaseGrant p (sbuOpen p 2 (pdEnd p (gatesOff p s)))
  let s := s.modPd p fun d => { d with sink := true }
  setPortState p 6 0 (portGone p 2 s)

/-- A service port becomes source again after a swap (R355): 5 V in a booked slot, as after `OFF`. -/
def toSource (p : Nat) (s : State) : State :=
  let s := (pdEnd p s).modPd p fun d => { d with sink := false }
  (book p 0 s.tick (s.modPw p fun w => { w with grant := 25, grantRail := 1 })).getD s

/-! ### Modes -/

/-- Register of a port's sync driver (R140). -/
def psyncOff (p : Nat) : Nat := 0x1300 + 4 * p

/-- Enter Mode's VDO (R360). -/
def State.enterVdo (s : State) (p m : Nat) : Nat :=
  if m == 1 then
    let r := psyncOff p
    1 + 16 * b2n (s.flag r 2) + 32 * b2n (s.flag r 3) + 65536 * s.fld r 19 4
  else 2 + 16 * b2n (s.port p).pd.trunkEnd + 32 * b2n (s.flag 0x4804 0)

/-- The partner's mode accepts what the port is set to (R361). -/
def State.shapeOk (s : State) (p m vdo : Nat) : Bool :=
  if m == 1 then
    let r := psyncOff p
    (if s.flag r 2 then bit vdo 5 else bit vdo 4) && (!s.flag r 3 || bit vdo 6) &&
      bits vdo 15 8 * 10 ≤ s.fld r 19 4
  else true

/-- The mode VDO the partner listed for a mode. -/
def PortPd.vdo (d : PortPd) (m : Nat) : Option Nat := if m == 1 then d.vdo1 else d.vdo2

/-- Ports in `FIELD_CAN`, counted from Enter Mode on (R362). -/
def State.fieldCanPorts (s : State) : Nat :=
  (s.ports.filter fun e => e.2.pd.mode == 2 || e.2.pd.entering == 2 || e.2.pd.nextMode == 2).length

/-- Enter Mode is sent (R361, R363). -/
def enterMode (p m : Nat) (s : State) : State :=
  let s := ownSequence p (pdSend p .enterMode [s.enterVdo p m] s)
  s.modPd p fun d => { d with entering := m, enterTries := 1, await := 6, nextMode := 0 }

/-- The mode held is left by command (R363): to `OPEN`, then Exit Mode; a mode to enter follows (R360). -/
def exitMode (p next : Nat) (s : State) : State :=
  let s := ownSequence p (pdSend p .exitMode [] (sbuOpen p 0 s))
  s.modPd p fun d => { d with await := 7, nextMode := next }

/-- The port takes a mode, leaving another first (R360). -/
def takeMode (p m : Nat) (s : State) : State :=
  if (s.port p).pd.mode == 0 then enterMode p m (sbuOpen p 0 s) else exitMode p m s

/-- An attempt to enter a mode ends without it (R361). -/
def enterFailed (p : Nat) (s : State) : State :=
  let m := (s.port p).pd.entering
  let s := s.modPd p fun d => { d with entering := 0, enterTries := 0, await := 0, atomic := false }
  completeWhere (fun w => w == .altMode p) .wrongState [] (raiseEvent p 0x25 [byte m, 0, 5] s)

/-- Exit Mode is acknowledged, or has gone unanswered for 30 ms (R363): the mode that was to follow is entered. -/
def exitDone (p : Nat) (s : State) : State :=
  let m := (s.port p).pd.nextMode
  let s := s.modPd p fun d => { d with await := 0, atomic := false }
  if m == 0 then completeWhere (fun w => w == .altMode p) .ok [] s else enterMode p m s

/-! ### Moisture -/

/-- One pin (R351): wet at 80 % of the threshold or less, dry at 125 % or more; what it reads in
between is left open, and is a free value. -/
def pinWet (thr kohm : Nat) (s : State) : Bool × State :=
  if 5 * kohm ≤ 4 * thr then (true, s)
  else if 5 * thr ≤ 4 * kohm then (false, s)
  else (s.free.getLsbD 0, s.drawn)

/-- A whole reading (R351): 2 ms; bit 0 `SBU1` wet, bit 1 `SBU2` wet. -/
def moisture (p kohm1 kohm2 : Nat) (s : State) : Nat × State :=
  let thr := (s.port p).pd.threshold
  let (a, s) := pinWet thr kohm1 (s.elapse (ticksMs 2))
  let (b, s) := pinWet thr kohm2 s
  let w := b2n a + 2 * b2n b
  (w, s.modPd p fun d => { d with wetNow := w != 0, readAt := s.tick })

end Sys2Proof.Machine
end

