-- ==== Sys2Proof/Machine/Pd.lean ====
section
/-!
DEFINITION. The meanings of the `pd.*` commands (R294), of CC attach and detach (R20, R147, R322,
R323), moisture readings (R351 to R353), surge signatures (R166, R167), and of the negotiation, the
role swaps, the modes and the rescue sequence (chapter 11).
-/

namespace Sys2Proof.Machine

/-! ### `pd.*` -/

/-- R294 `pd.status`. -/
def corePdStatus (r : Req) (s : State) : CmdRes :=
  let d := (s.port (tIndex r.target)).pd
  .query ([byte d.contract, byte d.pos, byte d.rev, byte (b2n d.sink)] ++ le 2 d.mv ++ le 2 d.mA ++
    [byte d.mode, byte d.sbu, byte (b2n d.wetNow)])

/-- The row of `corePdStatus`. -/
def execPdStatus (mb : Fin 8) (s : State) : Out := runOp mb 0x0701 corePdStatus s

/-- R345 `pd.caps`. After exhausted hard resets nothing further is sent (R349). -/
def corePdCaps (r : Req) (s : State) : CmdRes :=
  let p := tIndex r.target
  let mA := u16 r.params 2
  if 1 < u8 r.params 0 || mA < 500 || 3000 < mA then .refuse .badParam []
  else
    let x := s.port p
    let again := x.pw.pgood && !x.pd.sink && !(x.pd.contract == 1 && x.pd.fallbackReason == 2)
    .commit [] (s.modPd p fun d => { d with
      offerHi := u8 r.params 0 == 1, maxMa := mA, reoffer := d.reoffer || again
      sendAt := if again then s.tick else d.sendAt })

/-- The row of `corePdCaps`. -/
def execPdCaps (mb : Fin 8) (s : State) : Out := runOp mb 0x0702 corePdCaps s

/-- R350 `pd.hardreset`. -/
def corePdHardreset (r : Req) (s : State) : CmdRes :=
  let p := tIndex r.target
  let x := s.port p
  if !x.pd.partner || x.pw.path == 0 then .refuse .wrongState []
  else .commit [] (hardReset p false 4 s)

/-- The row of `corePdHardreset`. -/
def execPdHardreset (mb : Fin 8) (s : State) : Out := runOp mb 0x0703 corePdHardreset s

/-- R355 `pd.swap`. -/
def corePdSwap (r : Req) (s : State) : CmdRes :=
  let p := tIndex r.target
  let d := (s.port p).pd
  if !s.servicePort p then .refuse .notPermitted []
  else if d.contract != 2 || d.sink || d.swapping || d.await != 0 then .refuse .wrongState []
  else
    let s := ownSequence p (pdSend p .prSwap [] s)
    .commitWait (.pdSwap p) (s.modPd p fun d => { d with swapping := true, await := 5 })

/-- The row of `corePdSwap`. -/
def execPdSwap (mb : Fin 8) (s : State) : Out := runOp mb 0x0704 corePdSwap s

/-- R357 `pd.frs`. -/
def corePdFrs (r : Req) (s : State) : CmdRes :=
  let p := tIndex r.target
  if 1 < u8 r.params 0 then .refuse .badParam []
  else if !s.servicePort p then .refuse .notPermitted []
  else .commit [] (frsCheck p (s.modPd p fun d => { d with frsArm := u8 r.params 0 == 1 }))

/-- The row of `corePdFrs`. -/
def execPdFrs (mb : Fin 8) (s : State) : Out := runOp mb 0x0705 corePdFrs s

/-- R351 `pd.moist`. -/
def corePdMoist (r : Req) (s : State) : CmdRes :=
  let t := u16 r.params 0
  let i := u16 r.params 2
  if t < 20 || 2000 < t || i == 0 || 3600 < i then .refuse .badParam []
  else .commit [] (s.modPd (tIndex r.target) fun d => { d with threshold := t, interval := i })

/-- The row of `corePdMoist`. -/
def execPdMoist (mb : Fin 8) (s : State) : Out := runOp mb 0x0706 corePdMoist s

/-- R360 to R363 `pd.altmode`. -/
def corePdAltmode (r : Req) (s : State) : CmdRes :=
  let p := tIndex r.target
  let m := u8 r.params 0
  let d := (s.port p).pd
  if 2 < m then .refuse .badParam []
  else if d.contract != 2 || d.entering != 0 || d.await != 0 then .refuse .wrongState []
  else if m == 0 then
    if d.mode == 0 then .commit [] s else .commitWait (.altMode p) (exitMode p 0 s)
  else if m == d.mode then .commit [] s
  else match d.vdo m with
  | none => .refuse .wrongState []
  | some v =>
    if !s.shapeOk p m v then .refuse .wrongState []
    else if m == 2 && 8 ≤ s.fieldCanPorts then .refuse .noResource []
    else .commitWait (.altMode p) (takeMode p m s)

/-- The row of `corePdAltmode`. -/
def execPdAltmode (mb : Fin 8) (s : State) : Out := runOp mb 0x0707 corePdAltmode s

/-! ### Attach and detach -/

/-- R20, R147, R322, R323, R341, R354. A debounced CC attach. -/
def execCcAttach (p : Port) (kind : AttachKind) (s : State) : Out :=
  if (s.port p).usb.ccAtt || s.nPorts ≤ p.val || kind == .accessory then .next s
  else if kind == .source then
    if s.servicePort p then
      .next (toSink p (attachWake p (s.modUsb p fun u => { u with ccAtt := true })))
    else .next s
  else
    let s := attachWake p (s.modUsb p fun u => { u with ccAtt := true })
    let s := s.modPd p fun d => { d with flipped := kind == .sinkFlipped, dry := 0, wetRun := 0 }
    let w := (s.port p).pw
    if w.latch == 2 then .next (attachHeld p 5 (setPortState p 4 0 s))
    else if w.latch == 1 then .next (attachHeld p 4 (setPortState p 3 0 s))
    else match w.coolUntil with
    | some _ =>
      let s := (s.incFld (fuseBase p + 0x14) 31 24).modPw p fun w => { w with replugs := satInc w.replugs 255 }
      let s := s.modUsb p fun u => { u with totReplug := satInc u.totReplug 255 }
      .next (attachHeld p 2 (s.modPd p fun d => { d with check := true }))
    | none => .next (resumeCheck p s)

/-- R147. A debounced CC detach: `OFF` at once; what belongs to one attach ends (R322, R346, R348). -/
def execCcDetach (p : Port) (s : State) : Out :=
  if !(s.port p).usb.ccAtt then .next s
  else
    let s := s.modUsb p fun u => { u with ccAtt := false }
    let s := portInput p (powerOff p 0 1 1 false s)
    .next (s.modPd p fun d => { d with
      hrst := 0, partner := false, rejects := 0, reoffers := 0, fallbackReason := 0, cycling := false
      check := false, dry := 0, wetRun := 0, wetNow := false })

/-! ### Moisture -/

/-- R352. The reading of step 2 of R20: dry, the port asks for its grant (R330); wet, `WET`. -/
def execMoistureReading (p : Port) (kohm1 kohm2 : Nat) (s : State) : Out :=
  if !(s.port p).pd.check || s.warden.safe then .next s
  else
    let (w, s) := moisture p kohm1 kohm2 s
    let s := s.modPd p fun d => { d with check := false, dry := 0 }
    if w == 0 then
      let s := s.modPw p fun x => { x with dryAt := some s.tick }
      .next (if s.mayPower p then requestGrant p s else s)
    else
      .next (attachHeld p 3 (raiseEvent p 0x24 [1, byte w, 0, 0] (setPortState p 1 0 s)))

/-- R352, R353. The moisture interval of a port in `WET`, or in service with its SBU pair `OPEN`. -/
def execMoistureInterval (p : Port) (kohm1 kohm2 : Nat) (s : State) : Out :=
  let x := s.port p
  if x.usb.st == 1 then
    let s := s.waitUntil (x.pd.readAt + ticksS x.pd.interval)
    let (w, s) := moisture p kohm1 kohm2 s
    let n := if w == 0 then x.pd.dry + 1 else 0
    let s := s.modPd p fun d => { d with dry := n }
    let s := raiseEvent p 0x24 [byte (b2n (w != 0)), byte w, byte n, 0] s
    if n < 3 then .next s
    else
      let s := setPortState p 0 0 (s.modPw p fun y => { y with dryAt := some s.tick })
      .next (if s.mayPower p then requestGrant p s else s)
  else if 6 ≤ x.usb.st && !x.pd.sink && x.pd.sbu == 0 && x.pd.entering == 0 && x.pd.mode == 0 then
    let s := s.waitUntil (x.pd.readAt + ticksS x.pd.interval)
    let (w, s) := moisture p kohm1 kohm2 s
    let n := if w == 0 then 0 else x.pd.wetRun + 1
    let s := s.modPd p fun d => { d with wetRun := n }
    let s := if w == 0 then s else raiseEvent p 0x24 [1, byte w, 0, 1] s
    if n < 2 || s.safetyPort p then .next s
    else .next ((powerOff p 1 0 2 false s).modPd p fun d => { d with wetRun := 0, dry := 0 })
  else .next s

/-! ### Surges -/

/-- R166, R167. A surge signature: the bus is idled, and one that is not within 1 ms of the last is
counted and told. In an atomic message sequence, Soft_Reset follows (R348). -/
def execSurgeSignature (p : Port) (data cc vo : Bool) (s : State) : Out :=
  let x := s.port p
  let vo := vo && 6 ≤ x.usb.st
  if s.nPorts ≤ p.val || !(data || cc || vo) then .next s
  else
    let merged : Bool := match x.usb.surgeAt with
      | some t => decide (s.tick - t < ticksMs 1)
      | none => false
    let s := loopStop p 2 (wireDrop p s)
    let s := s.modUsb p fun u => { u with surgeAt := some s.tick }
    let s := if (x.pw.pgood || x.pd.sink) && x.pd.atomic && !x.pd.silent then
        s.modPd p fun d => { d with surgeSoft := true }
      else s
    if merged then .next (strikeTest p false s)
    else
      let s := (s.setFlag (portBase p) 11).incFld (portBase p + 12) 7 0
      let s := s.modUsb p fun u => { u with totSurges := satInc u.totSurges 255 }
      let s := raiseEvent p 2 [byte (b2n data + 2 * b2n cc + 4 * b2n vo)] s
      .next (faultPulse p (strikeTest p true s))

/-! ### Offer, request, contract -/

/-- When the next `Source_Capabilities` may go out, none where none is due (R343, R345, R346, R348). -/
def State.offerDue (s : State) (p : Nat) : Option Nat :=
  let x := s.port p
  let d := x.pd
  if !x.pw.pgood || x.pw.path == 3 || d.sink || d.surgeSoft then none
  else if d.contract == 0 then
    if d.fallbackReason == 2 || 3 ≤ d.rejects then none
    else if d.offer1 == 0 && d.await == 0 && !d.reoffer then
      some ((x.pw.goodSince.getD s.tick) + ticksMs 20)
    else if d.await == 1 then
      if d.partner || d.sends < 3 then some (d.sentAt + ticksMs 150) else none
    else if d.await == 0 && d.reoffer then some d.sendAt
    else none
  else if d.await == 1 && d.contract == 2 then some (d.sentAt + ticksMs 150)
  else if 1 < d.await then none
  else if d.reoffer then some d.sendAt
  else if d.contract == 2 && (if d.pos == 2 then s.ceilingHi p else s.ceiling p 0) * 10 < d.mA then
    some s.tick
  else none

/-- R343, R345. `Source_Capabilities`, answered by `GoodCRC` or not (R348); under a contract at PD 3.x SinkTxNG stands
20 ms before it (R342). -/
def execSourceCapabilitiesSend (p : Port) (answered : Bool) (s : State) : Out :=
  match s.offerDue p with
  | none => .next s
  | some t =>
    let lead := if (s.port p).pd.rp == 2 then ticksMs 20 else 0
    let s := offer p (s.waitUntil (max t s.tick + lead))
    .next (s.modPd p fun d =>
      if answered then { d with partner := true, sends := 0, await := 2, atomic := true }
      else { d with sends := d.sends + 1, await := 1 })

/-- Volts and operating current of a request, and the grant they make, 0.1 W (R329). -/
def reqGrant (mv op : Nat) : Nat := (mv * op + 9999) / 10000

/-- R346. A `Request` is answered; one that the port does not expect brings a Soft_Reset (R348). -/
def execRequest (p : Port) (rdo : Word) (pd2 : Bool) (s : State) : Out :=
  let x := s.port p
  let d := x.pd
  if !x.pw.pgood || d.sink || d.fallbackReason == 2 || d.await == 3 then .next s
  else if x.pw.path == 3 || d.offer1 == 0 || 2 < d.await then .next (softReset p false 2 s)
  else
    let o := rdo.toNat
    let pos := bits o 30 28
    let op := bits o 19 10
    let off := if pos == 1 then d.offer1 else if pos == 2 then d.offer2 else 0
    let r := pos - 1
    let mv := s.railMv r
    let s := s.modPd p fun d => { d with
      partner := true, rev := if pd2 then 2 else 3, await := 0, atomic := false, sends := 0 }
    if off == 0 || off < op || off < bits o 9 0 then
      let s := pdSend p .reject [] s
      if d.contract == 2 then .next s
      else
        let s := s.modPd p fun d => { d with
          rejects := satInc d.rejects 255, reoffer := true, sendAt := s.tick + ticksMs 150 }
        .next (if d.rejects + 1 == 3 then fallback p 3 s else s)
    else if !s.fits p r (reqGrant mv op) then
      .next ((pdSend p .wait [] s).modPd p fun d => { d with reoffer := true, sendAt := s.tick })
    else
      let t := s.modPw p fun w => { w with grant := reqGrant mv op, grantRail := pos }
      let t := t.modPd p fun d => { d with
        await := 4, atomic := true, newPos := pos, newMv := mv, newMa := 10 * op
        capMismatch := bit o 26, sentAt := s.tick }
      let t := { pdSend p .accept [] t with journal.logged := t.journal.logged + 1 }
      if x.pw.path == pos then .next t
      else match book p r s.tick t with
        | some t =>
          let b := ((t.port p).pw.booked.getD (0, 0)).1
          if b ≤ s.tick + ticksMs 400 then .next t else .next (pdSend p .wait [] s)
        | none => .next (pdSend p .wait [] s)

/-- R359 step 3. The rescue contract: `RESCUE_EN` from 7.5 W on, else a refused rescue. -/
def rescueContract (p : Nat) (s : State) : State :=
  let d := (s.port p).pd
  if s.rescue.port == some p && s.rescue.step == 2 then
    if 7500000 ≤ d.newMv * d.newMa then
      { s with rescue := { s.rescue with step := 4, en := true } }
    else
      { s with rescue := { s.rescue with step := 3 }
               keeper := { s.keeper with rescueRefused := satInc s.keeper.rescueRefused 255 } }
  else s

/-- R347. `PS_RDY`: the hub's once its output is ready, the partner's where the hub is sink. The
contract is explicit. -/
def execPsRdy (p : Port) (s : State) : Out :=
  let x := s.port p
  let d := x.pd
  if d.newPos == 0 && d.newMv == 0 then .next s
  else if d.await == 4 && x.pw.pgood && x.pw.path == d.newPos then
    let s := if x.pw.path == (if d.pos == 2 then 2 else 1) then s.waitUntil (d.sentAt + ticksMs 5) else s
    let s := pdSend p (if d.frsArm then .getSinkCap else .psRdy) [] s
    let s := s.modPd p fun d => { d with
      contract := 2, pos := d.newPos, mv := d.newMv, mA := d.newMa, done := true, await := 0
      atomic := false, explicitAt := s.tick, newPos := 0, newMv := 0, newMa := 0
      discover := d.rev == 3, wantSink := d.frsArm }
    .next (frsCheck p (raiseEvent p 0x20 ([byte d.newPos, byte d.rev] ++ le 2 d.newMv ++ le 2 d.newMa ++
      [byte (b2n d.capMismatch)]) s))
  else if d.await == 8 && d.sink then
    let s := rescueContract p s
    let s := s.modPd p fun d => { d with
      contract := 2, pos := d.newPos, mv := d.newMv, mA := d.newMa, await := 0, atomic := false
      explicitAt := s.tick, newPos := 0, newMv := 0, newMa := 0, capMismatch := false }
    .next (raiseEvent p 0x20 ([byte d.newPos, byte d.rev] ++ le 2 d.newMv ++ le 2 d.newMa ++ [0]) s)
  else .next s

/-! ### The ladder -/

/-- R348, R361, R363. An answer the port waits for has not come in its time. -/
def execPdResponseTimeout (p : Port) (s : State) : Out :=
  let d := (s.port p).pd
  let by30 := s.waitUntil (d.sentAt + ticksMs 30)
  match d.await with
  | 1 =>
    if !d.partner && 3 ≤ d.sends && d.contract == 0 then
      .next (fallback p 1 (s.waitUntil (d.sentAt + ticksMs 150)))
    else .next (s.waitUntil (d.sentAt + ticksMs 150))
  | 2 => .next (hardReset p false 1 by30)
  | 3 => .next (hardReset p false 1 by30)
  | 5 => .next (softReset p false 1 by30)
  | 6 => .next (enterFailed p by30)
  | 7 => .next (exitDone p by30)
  | 8 => .next (softReset p false 1 by30)
  | _ => .next s

/-- R348. A Soft_Reset: the partner's, or the hub's after an unexpected message or 1 ms after the
last surge signature of a sequence. -/
def execSoftReset (p : Port) (byPartner : Bool) (s : State) : Out :=
  let x := s.port p
  if !(x.pw.pgood || x.pd.sink) || x.pd.silent then .next s
  else if byPartner then .next (softReset p true 2 (s.modPd p fun d => { d with partner := true }))
  else if x.pd.surgeSoft then
    .next (softReset p false 3 (s.waitUntil ((x.usb.surgeAt.getD 0) + ticksMs 1)))
  else if x.pd.await != 0 || x.pd.contract == 2 then .next (softReset p false 2 s)
  else .next s

/-- R350, R356, R359. A Hard_Reset: the partner's, or the hub's after 30 ms without the answer it
waits for. On the rescue port it drops `RESCUE_EN` and the sequence starts again at its step 2. -/
def execHardReset (p : Port) (byPartner : Bool) (s : State) : Out :=
  let x := s.port p
  let d := x.pd
  if byPartner && s.rescue.port == some p.val && 1 ≤ s.rescue.step && s.rescue.step ≤ 4 then
    .next ({ s with rescue := { s.rescue with step := 1, en := false } }.modPd p fun d => { d with
      contract := 0, await := 0, newPos := 0, newMv := 0, newMa := 0, mv := 0, mA := 0, pos := 0 })
  else if byPartner && d.sink then
    .next (raiseEvent p 0x22 [2, 1, byte (satInc d.hrst 255), 1] (s.modPd p fun d => { d with
      contract := 0, await := 0, newPos := 0, newMv := 0, newMa := 0, mv := 0, mA := 0, pos := 0
      hrst := satInc d.hrst 255 }))
  else if byPartner && x.pw.path != 0 then .next (hardReset p true 1 s)
  else if !byPartner && (d.await == 2 || d.await == 3) then
    .next (hardReset p false 1 (s.waitUntil (d.sentAt + ticksMs 30)))
  else .next s

/-- R350. 700 ms after VO fell, a slot is booked and the port ramps again at 5 V. -/
def execHardResetWaitEnd (p : Port) (s : State) : Out :=
  let x := s.port p
  if !x.pd.cycling then .next s
  else
    let s := (s.waitUntil (x.pd.fellAt + ticksMs 700)).modPd p fun d => { d with cycling := false }
    .next (if x.usb.ccAtt && x.pw.grant != 0 then (book p 0 s.tick s).getD s else s)

/-- R349. The fallback of a port whose offers went unanswered, or whose hard resets are exhausted. -/
def execTypeCOnlyFallback (p : Port) (s : State) : Out :=
  let x := s.port p
  let d := x.pd
  if !x.pw.pgood || d.sink || d.contract != 0 then .next s
  else if d.fallbackReason == 2 then .next (fallback p 2 s)
  else if d.await == 1 && !d.partner && 3 ≤ d.sends then
    .next (fallback p 1 (s.waitUntil (d.sentAt + ticksMs 150)))
  else if 3 ≤ d.rejects then .next (fallback p 3 s)
  else .next s

/-- R349. In the fallback the port offers every 2 s, up to 10 times. -/
def execFallbackReoffer (p : Port) (s : State) : Out :=
  let x := s.port p
  let d := x.pd
  if !x.pw.pgood || d.sink || d.contract != 1 || d.fallbackReason == 2 || 10 ≤ d.reoffers || 1 < d.await then .next s
  else
    let s := offer p (s.waitUntil d.sendAt)
    .next (s.modPd p fun d => { d with reoffers := d.reoffers + 1, await := 1, sendAt := s.tick + ticksS 2 })

/-- R348. An explicit contract has stood for 10 s. -/
def execHrstReset (p : Port) (s : State) : Out :=
  let d := (s.port p).pd
  if d.contract != 2 || d.sink then .next s
  else .next ((s.waitUntil (d.explicitAt + ticksS 10)).modPd p fun d => { d with hrst := 0 })

/-! ### Roles -/

/-- R355, R356. A partner's `PR_Swap`, or its answer to the hub's. -/
def execPrSwap (p : Port) (partnerStarts : Bool) (answer : PdAnswer) (s : State) : Out :=
  let x := s.port p
  let d := x.pd
  if !(x.pw.pgood || d.sink) || d.silent then .next s
  else if !partnerStarts then
    if !d.swapping then .next s
    else match answer with
    | .accept =>
      let s := completeWhere (fun w => w == .pdSwap p) .ok [0] (s.waitUntil d.sentAt)
      let s := s.modPd p fun d => { d with swapping := false }
      .next (raiseEvent p 0x23 [1, 0, 1] (toSink p s))
    | .reject => .next (swapEnd p 1 (s.waitUntil d.sentAt))
    | .waitAnswer => .next (swapEnd p 2 (s.waitUntil d.sentAt))
    | .none => .next s
  else if !s.servicePort p then .next (pdSend p .notSupported [] s)
  else if d.swapping then .next (pdSend p .wait [] s)
  else if d.contract != 2 then .next (softReset p false 2 s)
  else if d.sink then
    if s.fits p 0 25 then
      .next (raiseEvent p 0x23 [1, 0, 0] (toSource p (pdSend p .accept [] s)))
    else .next (raiseEvent p 0x23 [1, 1, 1] (pdSend p .reject [] s))
  else if !(s.feed 0).present && !(s.feed 1).present then
    .next (raiseEvent p 0x23 [1, 0, 1] (toSink p (pdSend p .accept [] s)))
  else .next (raiseEvent p 0x23 [1, 1, 0] (pdSend p .reject [] s))

/-- R357. VO collapses, or `PFW_N` falls, on a port with fast role swap enabled. -/
def execFrSwap (p : Port) (s : State) : Out :=
  if !(s.port p).pd.frsEnabled then .next s
  else
    let s := toSink p (pdSend p .accept [] s)
    let s := s.modPd p fun d => { d with frsDone := true, mv := 5000, contract := 2, pos := 1 }
    .next (raiseEvent p 0x23 [2, 0, 1]
      { s with rescue := { s.rescue with port := some p.val, en := true, frs := true } })

/-! ### Modes -/

/-- A Mode VDO the hub records (R360). -/
def modeVdo (m : Nat) (l : List Nat) : Option Nat := l.find? fun v => bits v 31 28 == 1 && bits v 3 0 == m

/-- R360. Discovery after an explicit contract at PD 3.x; a mode the profile names is entered. -/
def execDiscoverIdentity (p : Port) (ufp : Bool) (svid : Nat) (modes : List Nat) (s : State) : Out :=
  let d := (s.port p).pd
  if !d.discover || d.contract != 2 || d.await != 0 then .next s
  else
    let found := ufp && svid == 0x3A5E
    let s := if d.rp == 2 then s.elapse (ticksMs 20) else s
    let s := (pdSend p .discoverIdentity [] s).modPd p fun d => { d with
      discover := false, vdo1 := if found then modeVdo 1 modes else none
      vdo2 := if found then modeVdo 2 modes else none }
    let d := (s.port p).pd
    let m := d.profileMode
    match d.vdo m with
    | none => .next s
    | some v =>
      if (m == 1 || m == 2) && d.mode != m && s.shapeOk p m v && !(m == 2 && 8 ≤ s.fieldCanPorts) then
        .next (takeMode p m s)
      else .next s

/-- R361, R363. The partner answers Enter Mode or Exit Mode. -/
def execEnterModeAck (p : Port) (ans : ModeAnswer) (s : State) : Out :=
  let d := (s.port p).pd
  let s := s.waitUntil d.sentAt
  if d.await == 7 then
    match ans with
    | .ack => .next (exitDone p s)
    | _ => .next s
  else if d.await != 6 || d.entering == 0 then .next s
  else match ans with
  | .ack =>
    let why := if waitsFor (fun w => w == .altMode p) s then 0 else 1
    let s := s.modPd p fun d => { d with
      mode := d.entering, sbu := if d.entering == 1 then 2 else 3, entering := 0, enterTries := 0
      await := 0, atomic := false }
    .next (completeWhere (fun w => w == .altMode p) .ok [] (raiseEvent p 0x25 [byte d.entering, 1, byte why] s))
  | .nak => .next (enterFailed p s)
  | .busy =>
    if 2 ≤ d.enterTries then .next (enterFailed p s)
    else
      let s := s.elapse (ticksMs 50)
      let s := pdSend p .enterMode [s.enterVdo p d.entering] s
      .next (s.modPd p fun d => { d with enterTries := 2, sentAt := s.tick })

/-- R363. The partner's Exit Mode: `OPEN` before the ACK; a NAK where no mode is held (R340). -/
def execPartnerExitMode (p : Port) (s : State) : Out :=
  let x := s.port p
  if x.pd.mode == 0 then
    .next (if x.pw.pgood && !x.pd.silent then pdSend p .vdmNak [] s else s)
  else .next (pdSend p .vdmAck [] (sbuOpen p 4 s))

/-! ### Messages without a row of their own -/

/-- R340, R348, R357. A partner's message. -/
def execPdMessageReceived (p : Port) (msg : PdMessage) (s : State) : Out :=
  let x := s.port p
  let d := x.pd
  if !(x.pw.pgood || d.sink) || d.silent then .next s
  else match msg with
  | .getSourceCap =>
    if d.sink then .next (pdSend p .sourceCapabilities (s.sourcePdos p (s.ceiling p 0) (s.ceilingHi p)) s)
    else .next ((offer p s).modPd p fun d => { d with partner := true, await := 2, atomic := true })
  | .getSinkCap =>
    if s.servicePort p then
      .next (pdSend p .sinkCapabilities [2 ^ 29 + 100 * 1024 + 300] s)
    else .next (pdSend p .notSupported [] s)
  | .goodCrc =>
    if d.await == 1 then
      .next (s.modPd p fun d => { d with partner := true, sends := 0, await := 2, atomic := true })
    else .next s
  | .accept =>
    if d.await == 3 then
      .next (s.modPd p fun d => { d with await := 0, atomic := false, reoffer := !d.sink, sendAt := s.tick })
    else if d.await == 8 then .next s
    else .next (softReset p false 2 s)
  | .notSupported =>
    if d.await == 5 then .next (swapEnd p 1 s)
    else .next (s.modPd p fun d => { d with discover := false, wantSink := false })
  | .sinkCapabilities frs =>
    if d.wantSink then
      .next (frsCheck p (s.modPd p fun d => { d with wantSink := false, frsPartner := frs.val != 0 }))
    else .next (softReset p false 2 s)
  | .drSwap => .next (pdSend p .reject [] s)
  | .vconnSwap => .next (pdSend p .reject [] s)
  | .bist => .next s
  | .vdm attention => .next (if attention then s else pdSend p .vdmNak [] s)
  | .unknown => .next (pdSend p .notSupported [] s)

/-! ### Sink role and rescue -/

/-- The fixed object of 5 to 20 V of highest power at its full current up to 3 A; between equals the
lower voltage (R359): position, mV, mA. -/
def bestObject (l : List Nat) : Nat × Nat × Nat :=
  ((List.range l.length).foldl (fun (b : Nat × Nat × Nat) i =>
    let o := l.getD i 0
    let mv := 50 * bits o 19 10
    let mA := min 3000 (10 * bits o 9 0)
    if bits o 31 30 == 0 && 5000 ≤ mv && mv ≤ 20000 &&
        (b.2.1 * b.2.2 < mv * mA || (b.2.1 * b.2.2 == mv * mA && mv < b.2.1)) then (i + 1, mv, mA)
    else b) (0, 0, 0))

/-- R354, R359. A source partner's capabilities: the hub requests the 5 V object, or in a rescue the
object of highest power. -/
def execPartnerSourceCapabilities (p : Port) (pdos : List Word) (s : State) : Out :=
  let d := (s.port p).pd
  if !d.sink then .next s
  else
    let l := pdos.map (·.toNat)
    let rescue := s.rescue.port == some p.val && !s.boot.up &&
      (s.rescue.step == 1 || s.rescue.step == 2 || s.rescue.step == 3)
    let o := if rescue then bestObject l else (1, 5000, min 3000 (10 * bits (l.getD 0 0) 9 0))
    if l.isEmpty || o.1 == 0 then .next s
    else
      let s := pdSend p .request [o.1 * 2 ^ 28 + 2 ^ 25 + o.2.2 / 10 * 1024 + o.2.2 / 10] s
      let s := s.modPd p fun d => { d with
        await := 8, atomic := true, newPos := o.1, newMv := o.2.1, newMa := o.2.2, partner := true
        sentAt := s.tick }
      .next (if rescue then { s with rescue := { s.rescue with step := 2 } } else s)

/-- R358. A service port's VBUS above 4.0 V while the hub has no `VPD`: the rescue port, in sink role. -/
def execRescueVbus (p : Port) (mv : Nat) (s : State) : Out :=
  if s.boot.up || mv ≤ 4000 || !s.servicePort p || s.rescue.port.isSome ||
      (s.feed 0).present || (s.feed 1).present then .next s
  else
    let s := s.modUsb p fun u => { u with ccAtt := true }
    .next { toSink p s with rescue := { port := some p.val, step := 1 } }

/-- R359 step 4. 20 ms after `RESCUE_EN` the converter's sense is in regulation (0.855 to 0.945 V), or
Yarrow drops `RESCUE_EN`, tries again after 1 s, and gives up after 3 attempts. -/
def execRescueRegulationCheck (p : Port) (mv : Nat) (s : State) : Out :=
  let r := s.rescue
  if r.port != some p.val || r.step != 4 || !r.en then .next s
  else
    let s := s.elapse (ticksMs 20)
    if 855 ≤ mv && mv ≤ 945 then .next { s with rescue := { r with step := 5 } }
    else if 2 ≤ r.attempts then .next { s with rescue := { r with en := false, attempts := 3 } }
    else
      let s := s.elapse (ticksS 1)
      .next { s with rescue := { r with attempts := r.attempts + 1 } }

end Sys2Proof.Machine
end

