-- ==== Sys2Proof/Machine/Ports.lean ====
section
/-!
DEFINITION. The meanings of the `port.*` commands (R289), of the hub-class requests (R154 to R162),
and of the USB events of a port (R142 to R170).
-/

namespace Sys2Proof.Machine

/-! ### `port.*` -/

/-- A child chip is joined behind a port (R149, R205). -/
def State.childBehind (s : State) (p : Nat) : Bool :=
  (s.portDevs p).any fun id => match (s.dev id).child with
    | some n => (s.child n).joined
    | none => false

/-- R150 `port.mode`. -/
def corePortMode (r : Req) (s : State) : CmdRes :=
  let p := tIndex r.target
  let u := (s.port p).usb
  let lock := if p < 32 then bit s.hrs.portLo.toNat p else bit s.hrs.portHi.toNat (p - 32)
  let transp := u8 r.params 0 == 1
  if 1 < u8 r.params 0 then .refuse .badParam []
  else if transp == u.transparent then .commit [] s
  else if lock then .refuse .locked []
  else if transp && (!s.usbHost || s.safetyPort p) then .refuse .notPermitted []
  else if transp && (s.childBehind p ||
      (!(s.portSlots p).isEmpty && !s.engineHeld (p / 8))) then .refuse .wrongState []
  else if transp && (s.onWire p).isSome then .commitWait (.portMode p) s
  else .commit [] (switchMode p transp s)

/-- The row of `corePortMode`. -/
def execPortMode (mb : Fin 8) (s : State) : Out := runOp mb 0x0201 corePortMode s

/-- R289 `port.reset`. -/
def corePortReset (r : Req) (s : State) : CmdRes :=
  let p := tIndex r.target
  let u := (s.port p).usb
  if u.transparent then .refuse .notPermitted []
  else if u.st < 7 then .refuse .wrongState []
  else .commitWait (.portReset p)
    ((s.portSlots p).foldl (fun s k => ctrlEnd k 1 s) (startReset p 3 s))

/-- The row of `corePortReset`. -/
def execPortReset (mb : Fin 8) (s : State) : Out := runOp mb 0x0202 corePortReset s

/-- R162 `port.suspend`. -/
def corePortSuspend (r : Req) (s : State) : CmdRes :=
  let p := tIndex r.target
  let u := (s.port p).usb
  if u.transparent then .refuse .notPermitted []
  else if u.st != 8 || (s.portSlots p).any fun k => (s.chan k).st == 1 then .refuse .wrongState []
  else if (s.onWire p).isSome then .commitWait (.portSuspend p) s
  else .commit [] (setPortState p 9 0 s)

/-- The row of `corePortSuspend`. -/
def execPortSuspend (mb : Fin 8) (s : State) : Out := runOp mb 0x0203 corePortSuspend s

/-- R163 `port.resume`: no effect on a port that is not suspended (R165). -/
def corePortResume (r : Req) (s : State) : CmdRes :=
  let p := tIndex r.target
  let u := (s.port p).usb
  if u.transparent then .refuse .notPermitted []
  else if u.st != 9 then .commit [1] s
  else .commitWait (.portResume p) (startResume p s)

/-- The row of `corePortResume`. -/
def execPortResume (mb : Fin 8) (s : State) : Out := runOp mb 0x0204 corePortResume s

/-- Bits [11:7] of `PORTnn_STAT` (R172). -/
def portBits (x : PortSt) : Nat :=
  b2n x.usb.ccAtt + 2 * b2n x.pw.pgood + 4 * b2n x.pd.done + 8 * b2n (x.usb.pull != 0) +
    16 * b2n (x.usb.resuming == 1)

/-- R289 `port.status`. -/
def corePortStatus (r : Req) (s : State) : CmdRes :=
  let p := tIndex r.target
  let x := s.port p
  let u := x.usb
  .query ([byte u.st, byte u.speed, byte (b2n u.transparent), byte u.cause] ++ le 2 (portBits x) ++
    [byte ((s.portDevs p).filter fun id => !(s.dev id).gone).length, 0, byte u.totSurges,
     byte u.totSurgeResets, byte u.totDisc, byte u.totChirp, byte u.totReplug])

/-- The row of `corePortStatus`. -/
def execPortStatus (mb : Fin 8) (s : State) : Out := runOp mb 0x0205 corePortStatus s

/-- R289 `port.cfg`. -/
def corePortCfg (r : Req) (s : State) : CmdRes :=
  let p := tIndex r.target
  let sp := u8 r.params 0
  let db := if r.expert then u8 r.params 1 else 50
  let rl := if r.expert then u8 r.params 2 else 20
  if 1 < sp || db < 10 || 200 < db || rl < 10 || 20 < rl then .refuse .badParam []
  else .commit [] (s.setReg (portBase p + 4) (sp + db * 256 + rl * 65536))

/-- The row of `corePortCfg`. -/
def execPortCfg (mb : Fin 8) (s : State) : Out := runOp mb 0x0206 corePortCfg s

/-! ### The hub function as its host sees it -/

/-- The hub function's descriptors (R153). -/
structure HubDescriptors where
  bcdUSB : Nat
  deviceClass : Nat
  deviceProtocol : Nat
  vendor : Nat
  product : Nat
  /-- Protocols of the interface's alternate settings 0 and 1. -/
  protocols : List Nat
  descLength : Nat
  nbrPorts : Nat
  characteristics : Nat
  pwrOn2PwrGood : Nat
  contrCurrent : Nat
  removable : List Byte
  pwrCtrlMask : List Byte
  /-- Bytes of the status-change endpoint's bitmap, and its `bInterval`. -/
  statusBytes : Nat
  interval : Nat
  deriving DecidableEq, Repr

/-- What it presents (R153, R157): the over-current mode is the sampled one, and hub port n has bit n of the
bitmaps. -/
def State.hubDescriptors (s : State) : HubDescriptors :=
  let ports := s.nPorts + 1
  let bytes := ports / 8 + 1
  { bcdUSB := 0x0200, deviceClass := 0x09, deviceProtocol := 0x02, vendor := 0x3A5E
    product := if s.variant = .svh48 then 0x0480 else 0x0160
    protocols := [1, 2], descLength := 7 + 2 * bytes, nbrPorts := ports
    characteristics := if s.hub.ocActive then 0x0085 else 0x008D
    pwrOn2PwrGood := 50, contrCurrent := 0, removable := le bytes (2 ^ ports)
    pwrCtrlMask := List.replicate bytes 0xFF, statusBytes := bytes, interval := 12 }

/-- A hub port's status (R154). -/
structure HubPortStatus where
  connection : Bool := false
  enable : Bool := false
  suspend : Bool := false
  overCurrent : Bool := false
  reset : Bool := false
  power : Bool := false
  lowSpeed : Bool := false
  highSpeed : Bool := false
  deriving DecidableEq, Repr

/-- Its value by the port's state and mode (R154), and that of the embedded port (R155). -/
def State.hubPortStatus (s : State) (h : Nat) : HubPortStatus :=
  if h == s.embeddedPort then
    { connection := true, enable := true, suspend := s.hub.casideSuspended, power := true, highSpeed := true }
  else
    let u := (s.port (h - 1)).usb
    if !u.transparent then { power := true }
    else
      let off := u.st ≤ 1 || u.st == 5 || u.st == 6
      { connection := 7 ≤ u.st, enable := u.st == 8 || u.st == 9, suspend := u.st == 9
        overCurrent := 2 ≤ u.st && u.st ≤ 4 && !s.hub.ocActive
        reset := u.resetting.isSome, power := !(off && u.hostOff)
        lowSpeed := u.speed == 1, highSpeed := u.speed == 3 }

/-- The status-change bitmap (R153, R154): bit 0 the hub's over-current change, bit n a change of hub port n. -/
def State.hubStatusChange (s : State) : Nat :=
  b2n s.hub.hubOverChange + maskOf (((List.range s.nPorts).filter fun p => (s.port p).usb.changes != 0).map (· + 1))

/-- What a port's position on the LED chain shows. -/
inductive Led where
  | automatic | amber | green | off
  deriving DecidableEq, Repr

/-- The indication of a port (R160): the upstream host's choice on a transparent port, else automatic. -/
def State.portLed (s : State) (p : Nat) : Led :=
  let u := (s.port p).usb
  if !u.transparent then .automatic
  else match u.indicator with
  | 1 => .amber
  | 2 => .green
  | 3 => .off
  | _ => .automatic

/-- The Caside function returns to its default state (R155): an upstream reset for the session. -/
def embeddedReset (s : State) : State :=
  sessionCut 2 { s with
    hub.casideSuspended := false, hub.casideRwake := false
    cci.upstreamResets := s.cci.upstreamResets + 1, cci.wakeUp := false }

/-! ### Hub-class requests -/

/-- R143, R155. `SetPortFeature(PORT_RESET)`; on the embedded port it counts as an upstream reset
for the session. -/
def execSetPortFeaturePortReset (h : HubPort) (s : State) : Out :=
  if h.val == s.embeddedPort && s.usbHost then .next (embeddedReset s)
  else match s.hubPortOf h with
  | some p => if 7 ≤ (s.port p).usb.st then .next (startReset p 2 s) else .next s
  | none => .next s

/-- R162. `SetPortFeature(PORT_SUSPEND)`; on the embedded port the Caside function alone suspends. -/
def execSetPortFeaturePortSuspend (h : HubPort) (s : State) : Out :=
  if h.val == s.embeddedPort && s.usbHost then .next { s with hub.casideSuspended := true }
  else match s.hubPortOf h with
  | some p =>
    if (s.port p).usb.st == 8 then
      .next ((setPortState p 9 0 (wireDrop p s)).modUsb p fun u => { u with selSusp := true })
    else .next s
  | none => .next s

/-- R162, R163. `ClearPortFeature(PORT_SUSPEND)`. -/
def execClearPortFeaturePortSuspend (h : HubPort) (s : State) : Out :=
  if h.val == s.embeddedPort && s.usbHost then .next { s with hub.casideSuspended := false }
  else match s.hubPortOf h with
  | some p => if (s.port p).usb.st == 9 then .next (startResume p s) else .next s
  | none => .next s

/-- R146. `ClearPortFeature(PORT_ENABLE)`: the port returns to `ATTACHED`; ignored on the embedded
port (R155). -/
def execClearPortFeaturePortEnable (h : HubPort) (s : State) : Out :=
  match s.hubPortOf h with
  | some p =>
    if (s.port p).usb.st == 8 || (s.port p).usb.st == 9 then
      .next ((setPortState p 7 0 s).modUsb p fun u => { u with
        resuming := 0, remoteWake := false, selSusp := false })
    else .next s
  | none => .next s

/-- R160. `SetPortFeature(PORT_INDICATOR)`. -/
def execSetPortFeaturePortIndicator (h : HubPort) (sel : Fin 4) (s : State) : Out :=
  match s.hubPortOf h with
  | some p => .next (s.modUsb p fun u => { u with indicator := sel })
  | none => .next s

/-- R160. `SetPortFeature(PORT_TEST)`. -/
def execSetPortFeaturePortTest (h : HubPort) (sel : Fin 6) (s : State) : Out :=
  match s.hubPortOf h with
  | some p => .next (s.modUsb p fun u => { u with testSel := sel })
  | none => .next s

/-- R156. A change of alternate setting is applied once no split transaction is outstanding, and discards the
translators' buffers; `busy` is the time those outstanding still take. -/
def execAlternateSettingChange (alt : Fin 2) (busy : Nat) (s : State) : Out :=
  let s := s.elapse busy
  .next { s with hub.multiTt := alt.val == 1, hub.splits := 0, hub.tt := [] }

/-- R158. `SET_CONFIGURATION` of the hub function. -/
def execHubSetConfiguration (configured : Bool) (s : State) : Out :=
  if !s.usbHost then .next s
  else
    let s := { s with hub.configured := configured }
    if configured then
      .next ((List.range s.nPorts).foldl (fun s p =>
        if (s.port p).usb.reportOnConfig then
          (if 7 ≤ (s.port p).usb.st then hubChange p 1 s else s).modUsb p fun u =>
            { u with reportOnConfig := false }
        else s) s)
    else .next s

/-- R161. Global suspend after 3 ms of upstream idle; the host has enabled remote wakeup of the hub function and
of the Caside function before it, or not (R164). -/
def execGlobalSuspend (rwake caside : Bool) (s : State) : Out :=
  if !s.usbHost || s.hub.suspended then .next s
  else
    .next ((List.range s.nPorts).foldl (fun s p =>
      if (s.port p).usb.transparent && (s.port p).usb.st == 8 then setPortState p 9 0 (wireDrop p s) else s)
      { s with hub.suspended := true, hub.rwake := rwake, hub.casideRwake := caside })

/-- R161. Upstream activity ends the global suspend and resumes the ports it suspended; one whose device signals
remote wake in the same window completes that once (R165). -/
def execUpstreamResume (s : State) : Out :=
  if !s.hub.suspended then .next s
  else
    .next ((List.range s.nPorts).foldl (fun s p =>
      let u := (s.port p).usb
      if u.transparent && u.st == 9 && !u.selSusp then
        (setPortState p 8 0 (if u.remoteWake then hubChange p 4 s else s)).modUsb p fun u => { u with
          resuming := 0, remoteWake := false }
      else s) { s with hub.suspended := false, hub.resumeUp := false, cci.wakeUp := false })

/-! ### Attach, reset and speed -/

/-- R142, R143. A pull-up is sensed once the port is `POWERED` and its PD step has ended; on a port
that is debouncing, a change of line state starts the debounce again. -/
def execConnectSensed (p : Port) (pull : Pull) (s : State) : Out :=
  let x := s.port p
  if x.usb.st != 6 || !x.pd.done || !x.usb.running then .next s
  else
    let s := connectWake p (s.modUsb p fun u => { u with pull := match pull with | .dp => 1 | .dm => 2 })
    if x.usb.transparent then .next (hubChange p 1 (setPortState p 7 0 s))
    else .next (s.modUsb p fun u => { u with debounce := some s.tick })

/-- R143. The pull-up has been stable for `CONN_DB`: `ATTACHED`, and a reset by the embedded host. -/
def execConnectDebounceEnd (p : Port) (s : State) : Out :=
  match (s.port p).usb.debounce with
  | none => .next s
  | some t =>
    if (s.port p).usb.transparent || !s.groupUp (p / 8) then .next s
    else .next (startReset p 1 (s.waitUntil (t + ticksMs (s.fld (portBase p + 4) 15 8))))

/-- R144. The reset ends: the speed is settled and the port enabled. -/
def execResetEnd (p : Port) (chirp : Chirp) (s : State) : Out :=
  let u := (s.port p).usb
  match u.resetting with
  | none => .next s
  | some _ =>
    let s := s.waitUntil (u.resetAt + ticksMs (s.fld (portBase p + 4) 20 16))
    let speed := resetSpeed p chirp s
    let tried := u.pull != 2 && s.fld (portBase p + 4) 1 0 == 0 &&
      !(u.transparent && s.hub.upSpeed == 2)
    let s := s.modUsb p fun u => { u with
      resetting := none, speed := speed, enumerated := false, sofAt := s.tick }
    let s := if tried && chirp == .unswitched then
        let s := (s.setFlag (portBase p) 12).incFld (portBase p + 12) 31 24
        raiseEvent p 5 [] (s.modUsb p fun u => { u with totChirp := satInc u.totChirp 255 })
      else s
    let s := hubChange p 16 (setPortState p 8 0 s)
    .next (completeWhere (fun w => w == .portReset p) .ok [byte speed] s)

/-- R148, R181, R182. The pull-up disappears with CC attached: `POWERED`; or an external hub's port loses its
device or trips, which the embedded host hears from the hub. -/
def execUsbDisconnect (p : Port) (lost : DisconnectAt) (s : State) : Out :=
  let u := (s.port p).usb
  match lost with
  | .hubPort hub1 hub2 _ =>
    if u.transparent || u.st != 8 || !u.enumerated || hub1 == 0 || !s.groupUp (p / 8) then .next s
    else .next (hubPortLost p hub1 hub2 s)
  | .pullUp =>
    if u.pull == 0 || !u.ccAtt then .next s
    else if u.st < 7 then .next (s.modUsb p fun u => { u with pull := 0, debounce := none })
    else
      let s := usbEnd p 1 s
      let s := (s.incFld (portBase p + 12) 23 16).modUsb p fun u => { u with
        pull := 0, totDisc := satInc u.totDisc 255, selSusp := false }
      .next (setPortState p 6 0 (portGone p 1 s))

/-! ### Suspend and resume -/

/-- R164, R165. A device drives K on a suspended port. -/
def execRemoteWake (p : Port) (s : State) : Out :=
  let u := (s.port p).usb
  if u.st != 9 then .next s
  else
    let s := startResume p (connectWake p s)
    let s := s.modUsb p fun u => { u with remoteWake := true }
    .next (if u.transparent && s.hub.suspended && s.hub.rwake then { s with hub.resumeUp := true } else s)

/-- R163, R165. The resume EOP ends: `ENABLED`, completed once. -/
def execResumeEnd (p : Port) (s : State) : Out :=
  let u := (s.port p).usb
  if u.resuming != 1 then .next s
  else
    let s := s.waitUntil (u.resetAt + ticksMs 20)
    let s := setPortState p 8 0 (s.modUsb p fun u => { u with
      resuming := if u.transparent then 0 else 2, resetAt := s.tick, remoteWake := false, selSusp := false })
    .next (if u.transparent then hubChange p 4 s
      else if u.remoteWake then raiseEvent p 3 [byte u.speed] (s.setFlag (portBase p) 14)
      else s)

/-- R163. The device's resume recovery ends: `port.resume` completes, and the port's channels may become
`ACTIVE`. -/
def execResumeRecoveryEnd (p : Port) (s : State) : Out :=
  let u := (s.port p).usb
  if u.resuming != 2 then .next s
  else
    let s := s.waitUntil (u.resetAt + ticksMs 10)
    .next (completeWhere (fun w => w == .portResume p) .ok [0]
      (activateHeld p (s.modUsb p fun u => { u with resuming := 0 })))

/-! ### Surges and babble -/

/-- The ninth recovery within 1 s (R169): `ERROR` with cause 5, the bus idle, the device still connected; the
channels of a concentrated port halt. -/
def surgeError (p : Nat) (s : State) : State :=
  let s := (stepsOver p (loopStop p 2 (wireDrop p s))).modUsb p fun u => { u with
    debounce := none, resetting := none, resuming := 0, remoteWake := false, selSusp := false, babbleAt := none
    enumerated := false }
  setPortState p 10 5 (portGone p 4 s)

/-- R168, R169. 1 ms without a further signature: the port recovers by its state and mode. -/
def execSurgeRecovery (p : Port) (s : State) : Out :=
  let u := (s.port p).usb
  match u.surgeAt with
  | none => .next s
  | some t =>
    let s := (s.waitUntil (t + ticksMs 1)).modUsb p fun u => { u with surgeAt := none }
    let inReset := u.resetting.isSome
    if u.st == 8 || u.st == 9 || inReset then
      if recoveryFull p s then
        .next (surgeError p s)
      else if u.transparent then
        if inReset then .next (noteRecovery p s)
        else
          .next (hubChange p 2 ((setPortState p 7 0 (noteRecovery p s)).modUsb p fun u => { u with
            resuming := 0, remoteWake := false, selSusp := false }))
      else
        let s := (noteRecovery p s).incFld (portBase p + 12) 15 8
        let s := s.modUsb p fun u => { u with totSurgeResets := satInc u.totSurgeResets 255 }
        .next (startReset p 4 ((s.portSlots p).foldl (fun s k => ctrlEnd k 1 s) s))
    else if !u.transparent && u.pull != 0 && (u.st == 7 || u.debounce.isSome) then
      if recoveryFull p s then .next (surgeError p s)
      else .next ((noteRecovery p s).modUsb p fun u => { u with debounce := some s.tick })
    else .next s

/-- R170. Babble at the end of a frame: `ERROR` with cause 4. -/
def execBabble (p : Port) (s : State) : Out :=
  let u := (s.port p).usb
  if u.st != 8 then .next s
  else
    let s := raiseEvent p 6 [] ((wireDrop p s).setFlag (portBase p) 13)
    let s := setPortState p 10 4 s
    if u.transparent then .next (hubChange p 2 s)
    else
      let again : Bool := match u.babbleReset with
        | some t => decide (s.tick - t < ticksS 1)
        | none => false
      if again then .next (portGone p 4 (s.modUsb p fun u => { u with babbleReset := none, babbleAt := none }))
      else .next (s.modUsb p fun u => { u with babbleAt := some s.tick, babbleReset := none })

/-- R170. 100 ms after a first babble the hub resets a concentrated port once. -/
def execBabbleReset (p : Port) (s : State) : Out :=
  let u := (s.port p).usb
  match u.babbleAt with
  | none => .next s
  | some t =>
    if u.st != 10 || u.transparent then .next s
    else
      let s := s.waitUntil (t + ticksMs 100)
      let s := startReset p 5 ((s.portSlots p).foldl (fun s k => ctrlEnd k 1 s) s)
      .next (s.modUsb p fun u => { u with babbleAt := none, babbleReset := some s.tick })

end Sys2Proof.Machine
end

