-- ==== Sys2Proof/Machine/Script.lean ====
section
/-!
DEFINITION. Warden mode (R437 to R447): arming, entry and clean-up, the wind-down script step by step, and
the way out; `ALIVE` and the hold of the safe state (R450, R451).
-/

namespace Sys2Proof.Machine

/-! ### The script as bytes -/

/-- One step of a script (R442). -/
def parseStep (b : List Byte) : Step :=
  { op := u8 b 0, sflags := u8 b 1, dlc := u8 b 2, mix := u8 b 3, id := u32 b 4, data := slice b 8 8,
    period := u16 b 16, duration := u16 b 18, fpos := u8 b 20, ffmt := u8 b 21, onTimeout := u8 b 22,
    endVal := u32 b 24 }

/-- Flags of a step. -/
def Step.ext (x : Step) : Bool := bit x.sflags 0
def Step.mirror (x : Step) : Bool := bit x.sflags 3
def Step.withNext (x : Step) : Bool := bit x.sflags 4

/-- Width of a step's field in bytes. -/
def Step.width (x : Step) : Nat := 2 ^ (x.ffmt % 4)

/-- A step breaks a rule of R442 or R443; `grouped` where it is joined to another, `i` its index. -/
def stepBad (steps mirrors i : Nat) (grouped : Bool) (b : List Byte) : Bool :=
  let x := parseStep b
  x.op = 0 || 6 < x.op || 32 ≤ x.sflags || 8 < x.dlc || (if x.ext then 2 ^ 29 else 2 ^ 11) ≤ x.id ||
    7 < x.fpos || 16 ≤ x.ffmt || x.ffmt % 4 == 3 || u8 b 23 != 0 || !allZero b 28 32 ||
    (x.op != 6 && x.duration == 0) ||
    ((x.op = 2 || x.op = 3) && (x.period = 0 || 10000 < x.period || x.duration * 10 % x.period != 0)) ||
    ((x.op = 3 || x.op = 5) && x.dlc < x.fpos + x.width) ||
    (x.mirror && mirrors ≤ x.mix) ||
    (x.onTimeout != 0xFF && (x.onTimeout ≤ i || steps ≤ x.onTimeout || grouped)) ||
    (x.op = 6 && grouped)

/-- The steps of a script from one on keep the rules; `run` counts the steps of the present group before
it. -/
def stepsOk (steps mirrors : Nat) : Nat → Nat → Nat → List Byte → Bool
  | 0, _, run, _ => run == 0
  | n + 1, i, run, b =>
    let w := (parseStep b).withNext
    !stepBad steps mirrors i (run != 0 || w) (b.take 32) && run < 8 &&
      stepsOk steps mirrors n (i + 1) (if w then run + 1 else 0) (b.drop 32)

/-- A whole script keeps the rules of R441 to R443. -/
def scriptOk (steps : Nat) (b : List Byte) : Bool :=
  1 ≤ steps && steps ≤ 64 && b.length == 48 + 32 * steps && u16 b 0 == 0x5744 && u8 b 2 == 1 &&
    u8 b 3 == steps && u8 b 4 ≤ 8 && allZero b 5 8 && allZero b 40 48 &&
    (List.range 8).all (fun i => u32 b (8 + 4 * i) < 2 ^ 30 && (i < u8 b 4 || u32 b (8 + 4 * i) == 0)) &&
    stepsOk steps (u8 b 4) steps 0 0 (b.drop 48)

/-- The steps of a script's bytes. -/
def parseSteps : Nat → List Byte → List Step
  | 0, _ => []
  | n + 1, b => parseStep (b.take 32) :: parseSteps n (b.drop 32)

/-- A script as armed (R440), its captures empty (R444). -/
def armScript (steps : Nat) (b : List Byte) (s : State) : State :=
  let sc : Script := { steps := parseSteps steps (b.drop 48)
                       mirrorIds := (List.range (u8 b 4)).map fun i => u32 b (8 + 4 * i)
                       crc := crc32 b }
  raiseEvent 81 5 (zeros 4 ++ le 4 sc.crc)
    { s with warden := { s.warden with script := some sc, mirrors := [], run := 0 } }

/-- R297, R440, R443 `warden.arm`. -/
def coreWardenArm (r : Req) (s : State) : CmdRes :=
  if !scriptOk (u8 r.params 0) r.data then .refuse .badParam []
  else if s.hrs.lock0.getLsbD 1 then .refuse .locked []
  else if s.warden.mode then .refuse .wrongState []
  else .commit (le 4 (crc32 r.data)) (armScript (u8 r.params 0) r.data s)

/-- The row of `coreWardenArm`. -/
def execWardenArm (mb : Fin 8) (s : State) : Out := runOp mb 0x0A11 coreWardenArm s

/-! ### Entry and status -/

/-- R297, R437 `warden.enter`. -/
def coreWardenEnter (_ : Req) (s : State) : CmdRes :=
  if s.warden.mode then .commit [1] s
  else .commit [if s.safetyValid then 1 else 2] (wardenEnter 0xFF s)

/-- The row of `coreWardenEnter`. -/
def execWardenEnter (mb : Fin 8) (s : State) : Out := runOp mb 0x0A12 coreWardenEnter s

/-- CRC-32 of the armed script, 0 where there is none. -/
def State.scriptCrc (s : State) : Nat := (s.warden.script.map (·.crc)).getD 0

/-- Script state of `warden.status`: 0 none, 1 armed, 2 running, 3 complete. -/
def State.scriptState (s : State) : Nat := if s.warden.script.isNone then 0 else max s.warden.run 1

/-- R297 `warden.status`. -/
def coreWardenStatus (_ : Req) (s : State) : CmdRes :=
  let w := s.warden
  .query ([byte (b2n w.mode), byte s.scriptState, byte w.stepIdx, byte w.cause] ++ le 4 w.entryTime ++
    le 4 s.scriptCrc)

/-- The row of `coreWardenStatus`. -/
def execWardenStatus (mb : Fin 8) (s : State) : Out := runOp mb 0x0A14 coreWardenStatus s

/-- A memory or logic BIST is abandoned (R510): a group is left as step 4 of R507 leaves it. -/
def bistAbandon (s : State) : State :=
  let t := s.test
  if t.bist == 0 && !waitsFor (fun w => w == .bist) s then s
  else
    let s := { s with test := { t with bistResult := 2, bistSig := 0 }, integ.rotBist := false }
    let s := if t.bist == 2 && s.integ.rotPhase == 2 && !s.integ.rotRetired then
        startRotation s.integ.rotBank 3 s else s
    let s := if t.bist == 2 then s else groupEvent t.bistOf 8 [3] s
    bistFinish (if t.bist == 2 then 0x80 + t.bistOf else t.bistOf) s

/-- R437 step 3. Yarrow answers MB0 to MB6, voids the schedule transaction, closes the expert levels, ends a
change of strength, disables `CANB` and tells of the entry; the power controller acts as R465 says. -/
def execWardenCleanup (s : State) : Out :=
  if !s.warden.mode || !s.warden.cleanup || s.warden.safe then .next s
  else
    let s := closeExpert (voidTxns (settlePosted 7 (bistAbandon s)))
    let s := wardenDoms (canDisable 1 (rsEnd 2 s))
    let s := { s with warden.cleanup := false }
    .next (raiseEvent 81 1 ([byte s.warden.cause, 0, 0, 0] ++ le 4 s.scriptCrc) s)

/-! ### Running the script -/

/-- The steps of the group that begins with the first of a list (R443). -/
def groupSteps : List Step → List Step
  | x :: l => if x.withNext then x :: groupSteps l else [x]
  | [] => []

/-- The steps of the present group. -/
def State.scriptGroup (s : State) : List Step :=
  match s.warden.script with
  | some sc => groupSteps (sc.steps.drop s.warden.stepIdx)
  | none => []

/-- The script runs: warden mode, a step before its end, no safe state. -/
def State.scriptLive (s : State) : Bool :=
  s.warden.mode && !s.warden.safe && s.warden.run != 3 && !s.scriptGroup.isEmpty

/-- The mirror a step takes its data from. -/
def State.mirrorOf (s : State) (x : Step) : List Byte :=
  if x.mirror then Tbl.getD [] s.warden.mirrors x.mix else []

/-- R445. A step or group starts at its instant. -/
def execScriptStepStart (s : State) : Out :=
  if !s.scriptLive || s.warden.started then .next s
  else
    let s := s.waitUntil s.warden.startAt
    let g := s.scriptGroup
    let i := s.warden.stepIdx
    let op := (g.head?.map (·.op)).getD 6
    let s := raiseEvent 81 2 [byte i, byte op]
      { s with warden := { s.warden with run := 2, started := true, frames := [], matched := [] } }
    let s := (List.range g.length).foldl (fun s k => match g[k]? with
      | some x => if x.mirror && (s.mirrorOf x).isEmpty then raiseEvent 81 4 [byte (i + k), byte x.mix] s else s
      | none => s) s
    .next (if (s.can 0).st == 3 then scriptEnd i 1 s else if op == 6 then scriptEnd i 0 s else s)

/-- Frames a step sends (R445). -/
def Step.frames (x : Step) : Nat :=
  if x.op = 1 then 1 else if x.op = 2 || x.op = 3 then x.duration * 10 / x.period else 0

/-- A field read from data and written to it (R442): width, sign and byte order of the step. -/
def Step.readField (x : Step) (b : List Byte) : Int :=
  let l := slice b x.fpos x.width
  let n := rdLe (if bit x.ffmt 3 then l.reverse else l)
  if bit x.ffmt 2 then signed (8 * x.width) n else n
def Step.writeField (x : Step) (b : List Byte) (v : Int) : List Byte :=
  let l := le x.width (unsigned (8 * x.width) v)
  b.take x.fpos ++ (if bit x.ffmt 3 then l.reverse else l) ++ b.drop (x.fpos + x.width)

/-- `END_VAL` as the number it stands for. -/
def Step.limit (x : Step) : Int := if bit x.ffmt 2 then signed 32 x.endVal else x.endVal

/-- The k-th frame of a step, k from 0 (R444, R445). -/
def State.scriptFrame (s : State) (x : Step) (k : Nat) : CanFrame :=
  let m := s.mirrorOf x
  let base := fit x.dlc (if x.mirror && !m.isEmpty then m else x.data)
  let data := if x.op = 3 then
      let v0 := x.readField base
      x.writeField base (v0 + Int.tdiv ((x.limit - v0) * ((k + 1 : Nat) : Int)) (x.frames : Int))
    else base
  { id := x.id, ext := x.ext, fd := bit x.sflags 1, brs := bit x.sflags 2, dlc := x.dlc, data := data }

/-- R445, R446. The next frame of a position of the group falls due and enters its buffer; a frame on the bus
finishes first. -/
def execScriptFrame (buf : Fin 8) (s : State) : Out :=
  match s.scriptGroup[buf.val]? with
  | none => .next s
  | some x =>
    let k := Tbl.getD 0 s.warden.frames buf
    if !s.scriptLive || !s.warden.started || x.frames ≤ k || ((s.can 0).buf buf).st == 4 then .next s
    else
      let s := s.waitUntil (s.warden.startAt + ticksMs (k * x.period))
      let s := { s with warden.frames := Tbl.setD 0 s.warden.frames buf (k + 1) }
      if (s.can 0).running && (s.can 0).st != 3 then
        .next (s.setCan 0 ((s.can 0).setBuf buf { st := 1, frame := s.scriptFrame x k }))
      else .next s

/-- The tick at which a step ends by its duration. -/
def State.stepEnd (s : State) (x : Step) : Nat := s.warden.startAt + ticksMs (if x.op = 6 then 0 else 10 * x.duration)

/-- The script goes on to a step at a tick, or is complete (R445). -/
def scriptGo (idx at_ : Nat) (s : State) : State :=
  let n := match s.warden.script with
    | some sc => sc.steps.length
    | none => 0
  if n ≤ idx then scriptEnd (n - 1) 0 s
  else { s with warden := { s.warden with stepIdx := idx, started := false, startAt := at_ } }

/-- The tick at which each position of the group ends: its match, or its duration. -/
def State.groupEnds (s : State) : List Nat :=
  let g := s.scriptGroup
  (List.range g.length).map fun k =>
    match s.warden.matched.find? fun e => e.1 == k with
    | some e => e.2
    | none => (g[k]?.map s.stepEnd).getD 0

/-- R445. A received frame at or below the limit ends a `WAIT_RX` step. -/
def execWaitRxMatch (frame : CanFrame) (s : State) : Out :=
  let g := s.scriptGroup
  if !s.scriptLive || !s.warden.started || !s.canLive 0 then .next s
  else
    let hit (k : Nat) (x : Step) : Bool := x.op == 5 && !(s.warden.matched.any fun e => e.1 == k) &&
      x.id == frame.id && x.ext == frame.ext && x.fpos + x.width ≤ frame.data.length &&
      decide (x.readField frame.data ≤ x.limit) && s.tick ≤ s.stepEnd x
    let ks := (List.range g.length).filter fun k => (g[k]?.map (hit k)).getD false
    let s := { s with warden.matched := s.warden.matched ++ ks.map fun k => (k, s.tick) }
    if !ks.isEmpty && s.warden.matched.length == g.length then .next (scriptGo (s.warden.stepIdx + g.length) s.tick s)
    else .next s

/-- R445. The last step of the group ends; a lone `WAIT_RX` without its frame goes to `ON_TIMEOUT`. -/
def execScriptStepEnd (s : State) : Out :=
  if !s.scriptLive || !s.warden.started then .next s
  else
    let g := s.scriptGroup
    let t := s.groupEnds.foldl max 0
    let s := s.waitUntil t
    let i := s.warden.stepIdx
    let next := match g with
      | [x] => if x.op == 5 && s.warden.matched.isEmpty && x.onTimeout != 0xFF then x.onTimeout else i + 1
      | _ => i + g.length
    .next (scriptGo next t s)

/-! ### The way out -/

/-- R297, R447 `warden.leave`: the answer; what follows comes once it stands. -/
def coreWardenLeave (_ : Req) (s : State) : CmdRes :=
  if s.warden.mode && s.warden.cause < 128 && (s.src s.warden.cause).st == 3 then .refuse .notPermitted []
  else if !s.warden.mode || (s.warden.run == 2 && s.warden.script.isSome) then .refuse .wrongState []
  else .commit [] s

/-- Steps 1 to 5 of R447. -/
def wardenLeft (s : State) : State :=
  let s := if s.warden.cause < 128 then clearSrc s.warden.cause s else s
  let s := { s with warden := { s.warden with mode := false, cleanup := false, degraded := false, run := 0,
                                              started := false } }
  let s := (List.range s.nGroups).foldl (fun s g =>
    if (s.group g).engine == 4 then groupRestarted g s else s) s
  let s := (List.range s.nGroups).foldl (fun s g =>
    if s.groupSafeHeld g || (List.range 8).any fun i => (s.port (8 * g + i)).usb.st == 4 then s
    else groupReturn g s) s
  let s := s.setCan 0 { s.can 0 with yarrow := false, bufs := [] }
  { s with mgmtDown := none }

/-- R447, R278. `warden.leave` commits; the hub leaves warden mode, and the epoch breaks with cause 5. -/
def execWardenLeave (mb : Fin 8) (s : State) : Out :=
  match runOp mb 0x0A13 coreWardenLeave s with
  | .next t => .next (if justCommitted mb s t then epochBreak 5 (wardenLeft t) else t)
  | o => o

/-! ### The heartbeat, `ALIVE`, the hold of the safe state -/

/-- R451. No heartbeat for 2 ms: FS57. -/
def execWardenHeartbeatMissing (s : State) : Out :=
  if s.warden.safe || !s.warden.aliveRun then .next s
  else .next (faultPulse 57 (s.waitUntil (s.warden.heartbeat + ticksMs 2)))

/-- R451. An edge of `ALIVE` falls due, Yarrow's last heartbeat so many ticks before it: it is made if that is within
500 µs and the self-check holds, and else omitted. -/
def execAliveEdge (ago : Nat) (s : State) : Out :=
  if s.warden.safe || !s.warden.aliveRun then .next s
  else
    let s := s.waitUntil (s.warden.edgeAt + ticksUs 500)
    let w := s.warden
    let w := { w with edgeAt := s.tick, heartbeat := max w.heartbeat (s.tick - ago) }
    if s.campion.selfOk && s.tick ≤ w.heartbeat + ticksUs 500 then
      .next { s with warden := { w with aliveLevel := !w.aliveLevel, toggles := (w.toggles + 1) % 65536 } }
    else .next { s with warden := w }

/-- R450. `SAFE_HOLD` expires and the hub resets itself; 0 disables it, and so does the third safe state
within 24 h. -/
def execSafeHoldExpiry (s : State) : Out :=
  let h := s.fld 0xC48 11 0
  if !s.warden.safe || h = 0 || 3 ≤ s.keeper.holdTimes.length || s.boot.resetReq.isSome then .next s
  else
    let s := s.waitUntil (s.warden.safeAt + ticksS h)
    .next { s with boot.resetReq := some (3, s.tick) }

end Sys2Proof.Machine
end

