-- ==== Sys2Proof/Machine/Tests.lean ====
section
/-!
DEFINITION. Test and diagnosis (chapter 17): the test multiplexer (R501 to R506), the self-tests (R507 to
R510) and the test access port (R512, R513).
-/

namespace Sys2Proof.Machine

/-! ### The test multiplexer -/

/-- A signal code of R502 for a group. -/
def State.tmuxCode (s : State) (g code : Nat) : Bool :=
  code == 0 ||
    (g < s.nGroups && (code == 0x1040 || code == 0x1041 ||
      (0x1000 ≤ code && code < 0x1040 && code % 16 < 8))) ||
    (0x2000 ≤ code && code ≤ 0x2004) || (0x2010 ≤ code && code ≤ 0x2013) || (0x2020 ≤ code && code ≤ 0x2023) ||
    code == 0x3000 || code == 0x3001 || code == 0x4000 || code == 0x4001 || code == 0x5000 || code == 0x5001 ||
    (0x6000 ≤ code && code ≤ 0x6020 && domainExists s.variant (code - 0x6000))

/-- A code that is a group's. -/
def tmuxGroup (code : Nat) : Bool := 0x1000 ≤ code && code < 0x2000

/-- A pin shows its signal: unlocked, not disabled, selected (R501, R503, R505). -/
def State.tmuxOn (s : State) (n : Nat) : Bool :=
  s.flag 0xE00 11 && !s.boot.otpTmuxOff && !s.warden.safe && s.fld (0xE10 + 4 * n) 31 16 != 0

/-- The pin is dark: its group's domain is not ON (R501). -/
def State.tmuxDark (s : State) (n : Nat) : Bool :=
  s.tmuxOn n && tmuxGroup (s.fld (0xE10 + 4 * n) 31 16) && (s.dom (3 + s.fld (0xE10 + 4 * n) 2 0)).st != 0

/-- The level a code of R502 marked a level shows, for the group selected: a port's bus is not idle, a clock is
`LOCKED`, the journal is sealed, a power domain is entering or waking. The strobes last 20 ns and stand in no state
(R501). -/
def State.tmuxLevel (s : State) (g code : Nat) : Bool :=
  if 0x1030 ≤ code && code < 0x1038 then (s.onWire (8 * g + (code - 0x1030))).isSome
  else if 0x2020 ≤ code && code < 0x2024 then (s.ang (code - 0x2020)).st == 2
  else if code == 0x3001 then s.journal.sealed
  else if 0x6000 ≤ code && code ≤ 0x6020 then
    (s.dom (code - 0x6000)).entry.isSome || (s.dom (code - 0x6000)).wake.isSome
  else false

/-- Level of a test pin (R501): low where it shows no signal. -/
def State.tmxPin (s : State) (n : Nat) : Bool :=
  s.tmuxOn n && !s.tmuxDark n && s.tmuxLevel (s.fld (0xE10 + 4 * n) 2 0) (s.fld (0xE10 + 4 * n) 31 16)

/-- R301, R503, R505 `test.tmux`. -/
def coreTestTmux (r : Req) (s : State) : CmdRes :=
  let n := u8 r.params 0
  let g := u8 r.params 1
  let code := u16 r.params 2
  if code != 0xFFFF && (7 < n || !s.tmuxCode g code || 7 < g) then .refuse .badParam []
  else if s.hrs.lock0.getLsbD 7 then .refuse .locked []
  else if s.boot.otpTmuxOff then .refuse .notPermitted []
  else if code == 0xFFFF then .commit [] { s with boot.otpTmuxOff := true }
  else .commit [] ((s.setReg (0xE10 + 4 * n) (g + 65536 * code)).setFlag 0xE00 11)

/-- The row of `coreTestTmux`. -/
def execTestTmux (mb : Fin 8) (s : State) : Out := runOp mb 0x0E01 coreTestTmux s

/-! ### Self-tests -/

/-- Stop a group for its test as `chan.stop_group` does (R199, R507), noting the channels it pauses. -/
def bistStop (g : Nat) (s : State) : State :=
  let slots := (s.chanSet.filter fun e => e.2.grp == g && e.2.st ≤ 1).map (·.1)
  let s := slots.foldl (fun s n =>
    if s.slotOnWire n then s.modChan n fun c => { c with pausing := true, byStop := true }
    else s.modChan n fun c => { c with st := 2, byStop := true, due := [] }) s
  let s := if (s.group g).stopped then s else groupEvent g 8 [1] s
  { s with test := { s.test with bist := 1, bistOf := g, bistAt := s.tick, bistPaused := slots } }

/-- R301, R507, R508 `test.bist`. -/
def coreTestBist (r : Req) (s : State) : CmdRes :=
  if tScope r.target = 1 then
    let g := tIndex r.target
    if !r.params.isEmpty then .refuse .badParam []
    else if s.safetyGroup g || !s.groupUp g then .refuse .wrongState []
    else if s.test.bist != 0 then .refuse .busy []
    else .commitWait .bist (bistStop g s)
  else
    let b := u8 r.params 0
    if r.params.length != 1 || 15 < b then .refuse .badParam []
    else if (s.dom (0x10 + b)).st != 0 then .refuse .wrongState []
    else if s.test.bist != 0 || s.integ.rotRetired || (s.integ.rotPhase != 0 &&
        !(s.integ.rotPhase == 2 && s.integ.rotBank == b)) then .refuse .busy []
    else
      let s := { s with test := { s.test with bist := 2, bistOf := b, bistAt := s.tick } }
      .commitWait .bist (if s.integ.rotPhase == 0 then startRotation b 1 { s with integ.rotBist := true } else s)

/-- The row of `coreTestBist`. -/
def execTestBist (mb : Fin 8) (s : State) : Out := runOp mb 0x0E02 coreTestBist s

/-- The channels a test paused are `ACTIVE` again (R507). -/
def bistResume (s : State) : State :=
  s.test.bistPaused.foldl (fun s n =>
    let c := s.chan n
    if c.st == 2 && c.byStop && !(s.group c.grp).stopped then activate n s else s) s

/-- R507, R508. A self-test ends: that of a group when its 150 ms have run. DESIGN CHOICE (log 59): they run from the
commit, the earliest tick at which the engine can be held. -/
def execBistDone (pass : Bool) (signature : Word) (s : State) : Out :=
  let t := s.test
  let n := t.bistOf
  let w := if t.bist == 1 then s.waitUntil (t.bistAt + ticksMs 150) else s
  let s' := { w with test := { w.test with bistResult := b2n (!pass), bistSig := signature.toNat } }
  if s.warden.safe then .next s
  else if t.bist == 1 then
    if (s.chanSet.any fun e => e.2.grp == n && e.2.pausing) then .next s
    else if pass then
      let s := bistResume s'
      .next (bistFinish n (groupEvent n 8 [byte (b2n (s.group n).stopped)] s))
    else
      let s := groupEvent n 8 [3] (s'.setGroup n { s'.group n with engine := 3 })
      .next (bistFinish n s)
  else if t.bist == 2 then
    if !(s.integ.rotPhase == 2 && s.integ.rotBank == n) then .next s
    else if !pass then .next (bistFinish (0x80 + n) (retireBank { s' with integ.rotBist := false }))
    else if s.integ.rotBist then .next (startRotation n 3 s')
    else .next (bistFinish (0x80 + n) s')
  else .next s

/-- R301, R509 `test.loop`. -/
def coreTestLoop (r : Req) (s : State) : CmdRes :=
  let p := tIndex r.target
  let ms := u16 r.params 0
  if ms = 0 || 1000 < ms then .refuse .badParam []
  else if (s.portSlots p).any (fun n => (s.chan n).st == 1) ||
      ((s.port p).usb.transparent && (s.port p).usb.st == 8) then .refuse .wrongState []
  else if s.test.loopPort.isSome then .refuse .busy []
  else .commitWait (.loop p) { s with test := { s.test with
    loopPort := some p, loopEnd := 0, loopAt := s.tick, loopMs := ms } }

/-- The row of `coreTestLoop`. -/
def execTestLoop (mb : Fin 8) (s : State) : Out := runOp mb 0x0E03 coreTestLoop s

/-- R509, R510. A loop test ends, at its duration or early. -/
def execLoopDone (packets errors : Nat) (s : State) : Out :=
  match s.test.loopPort with
  | none => .next s
  | some p =>
    if s.warden.safe then .next s
    else
      let s := if s.test.loopEnd == 0 then s.waitUntil (s.test.loopAt + ticksMs s.test.loopMs) else s
      let n := packets % 4294967296
      let e := errors % 4294967296
      let s := { s with test := { s.test with loopPort := none, loopPackets := n, loopErrors := e } }
      let s := raiseEvent 122 2 ([byte p, byte s.test.loopEnd, 0, 0] ++ le 4 e) s
      .next (completeWhere (fun w => w == .loop p) .ok (le 4 n ++ le 4 e) s)

/-- R301, R510 `test.result`. -/
def coreTestResult (_ : Req) (s : State) : CmdRes :=
  let t := s.test
  .query ([byte t.bistResult, 0, 0, 0] ++ le 4 t.bistSig ++ le 4 t.loopPackets ++ le 4 t.loopErrors)

/-- The row of `coreTestResult`. -/
def execTestResult (mb : Fin 8) (s : State) : Out := runOp mb 0x0E04 coreTestResult s

/-! ### Boundary scan -/

/-- The next state of the controller of IEEE 1149.1 (R512), numbered as `Tap` numbers them. -/
def tapNext (st : Nat) (tms : Bool) : Nat :=
  match st, tms with
  | 0, true => 0 | 0, false => 1 | 1, true => 2 | 1, false => 1
  | 2, true => 9 | 2, false => 3 | 3, true => 5 | 3, false => 4
  | 4, true => 5 | 4, false => 4 | 5, true => 8 | 5, false => 6
  | 6, true => 7 | 6, false => 6 | 7, true => 8 | 7, false => 4
  | 8, true => 2 | 8, false => 1 | 9, true => 0 | 9, false => 10
  | 10, true => 12 | 10, false => 11 | 11, true => 12 | 11, false => 11
  | 12, true => 15 | 12, false => 13 | 13, true => 14 | 13, false => 13
  | 14, true => 15 | 14, false => 11 | _, true => 2 | _, false => 1

/-- `IDCODE` (R512). -/
def State.tapId (s : State) : Nat := if s.variant = .svh48 then 0x14800BC7 else 0x11600BC7

/-- Shift one bit into a register of a length from its top; its lowest bit leaves. -/
def shiftIn (len v : Nat) (b : Bool) : Nat := v / 2 + b2n b * 2 ^ (len - 1)

/-- Pins the boundary register covers (R514): every digital pin of the digital die, by name and number of pins.
DESIGN CHOICE (log 58): one cell a pin, in this order from the cell next to `TDO`. -/
def boundaryPins : List (String × Nat) :=
  [("DDR_", 66), ("QS_", 6), ("SPI_SCK", 1), ("SPI_SDI", 1), ("SPI_SDO", 1), ("SPI_CS_N", 1), ("PM_SCL", 1),
   ("PM_SDA", 1), ("PM_ALERT_N", 1), ("CANA_TX", 1), ("CANA_RX", 1), ("CANA_STB", 1), ("CANB_TX", 1),
   ("CANB_RX", 1), ("CANB_STB", 1), ("LED_CK", 1), ("LED_DA", 1), ("LED_LE", 1), ("ATTN_N", 1), ("EVQ_HI", 1),
   ("RQ_HI", 1), ("ALIVE", 1), ("SAFE_N", 1), ("DEGRADED_N", 1), ("PFW_N", 1), ("PREF", 6), ("PCAP", 8)] ++
  [("PHO", 16), ("PPS_IN", 1), ("PLINK_IN", 1), ("PLINK_OUT", 1), ("WAKE", 4), ("RESCUE_EN", 1), ("TMX", 8),
   ("HOSTSEL", 1), ("BOOTSEL0", 1), ("BOOTSEL1", 1), ("RESET_N", 1)]

/-- Pins it does not cover (R514). -/
def excludedPins : List String :=
  ["Pnn_*", "GMG0", "GMG1", "GMG2", "GMG3", "GMG4", "GMG5", "FEEDA_GATE", "FEEDB_GATE", "FEEDA_SNS", "FEEDB_SNS",
   "FEED_BUS_SNS", "RAIL_LO_SNS", "RAIL_HI_SNS", "VRES_SNS", "PGOOD_IN", "USB_DP", "USB_DM", "USB_VBUS_SNS", "USB_REXT",
   "XIN", "XOUT", "X32_IN", "X32_OUT", "TCK", "TMS", "TDI", "TDO", "TRST_N"]

/-- Length of the boundary register. -/
def boundaryLen : Nat := boundaryPins.foldl (fun n e => n + e.2) 0

/-- Length of the data register an instruction selects (R512). -/
def TapInstr.drLen (i : TapInstr) : Nat :=
  match i with
  | .idcode => 32
  | .samplePreload | .extest => boundaryLen
  | .bypass | .clamp | .highz => 1

/-- Bits the boundary register captures: the levels of its pins, of which the model's state holds but few: free
values. -/
def capturePins : Nat → State → Nat × State
  | 0, s => (0, s)
  | n + 1, s =>
    let x := capturePins n s.drawn
    (s.free.toNat + 4294967296 * x.1, x.2)

/-- Level that a cell of the boundary register drives on its pin while `EXTEST` or `CLAMP` is in force; none where the
pin's own block drives it, or `HIGHZ` nothing. -/
def Tap.drives (t : Tap) (cell : Nat) : Option Bool :=
  if t.instr == .extest || t.instr == .clamp then some (bit t.cells cell) else none

/-- `EXTEST` holds every excluded output at its reset state, so every gate is off (R514). -/
def excludedReset (s : State) : State :=
  (List.range s.nPorts).foldl (fun s p => (gatesOff p s).modPd p fun d => { d with sbu := 0 })
    { s with clover.gmgOn := [] }

/-- The test access port as it now stands. -/
def setTap (t : Tap) (s : State) : State := { s with test.tap := t }

/-- What the controller does in the state a clock finds it in: capture, shift and update. All but two bits captured
into the instruction register are free values. -/
def tapAct (tdi : Bool) (s : State) : State :=
  let t := s.test.tap
  match t.st with
  | 3 =>
    if t.instr == .idcode then setTap { t with dr := s.tapId } s
    else if t.instr.drLen == 1 then setTap { t with dr := 0 } s
    else
      let x := capturePins 5 s
      setTap { t with dr := x.1 % 2 ^ boundaryLen } x.2
  | 4 => setTap { t with tdo := bit t.dr 0, dr := shiftIn t.instr.drLen t.dr tdi } s
  | 8 => if t.instr.drLen == boundaryLen then setTap { t with cells := t.dr } s else s
  | 10 => setTap { t with irShift := s.free.toNat % 4 * 4 + 1 } s.drawn
  | 11 => setTap { t with tdo := bit t.irShift 0, irShift := shiftIn 4 t.irShift tdi } s
  | _ => s

/-- The instruction a code selects (R512, R513): all ones is `BYPASS`; the codes of the others are free values; `EXTEST`,
`CLAMP` and `HIGHZ` are loaded only while `RESET_N` is low, and are `BYPASS` otherwise. -/
def tapInstr (code : Nat) (resetLow : Bool) : TapInstr :=
  if code == 15 then .bypass
  else match Config.tapCode code % 6 with
  | 0 => .idcode
  | 1 => .samplePreload
  | 2 => if resetLow then .extest else .bypass
  | 3 => if resetLow then .clamp else .bypass
  | 4 => if resetLow then .highz else .bypass
  | _ => .bypass

/-- The instruction register takes effect (R512 to R514). -/
def tapLoad (resetLow : Bool) (s : State) : State :=
  let t := s.test.tap
  let i := tapInstr t.irShift resetLow
  let s := { s with test.tap := { t with ir := t.irShift, instr := i } }
  if i == .extest then excludedReset s else s

/-- A rise of `RESET_N` since the last clock sends the TAP to Test-Logic-Reset (R513). -/
def tapRise (resetLow : Bool) (s : State) : State :=
  let t := s.test.tap
  { s with test.tap := { t with
      st := if t.resetLow && !resetLow then 0 else t.st
      instr := if t.resetLow && !resetLow then .idcode else t.instr
      resetLow := resetLow } }

/-- R512, R513. One clock of `TCK`, with the level of `RESET_N` at it. -/
def execTapClock (tms tdi resetLow : Bool) (s : State) : Out :=
  let s := tapAct tdi (tapRise resetLow s)
  let n := tapNext s.test.tap.st tms
  let s := { s with test.tap := { s.test.tap with st := n } }
  .next (if n == 15 then tapLoad resetLow s
    else if n == 0 then { s with test.tap := { s.test.tap with instr := .idcode } }
    else s)

end Sys2Proof.Machine
end

