-- ==== Sys2Proof/Machine/RegRead.lean ====
section
/-!
DEFINITION. Reads of the host register space: the value of every register (R30, R48, R51, R68, R92, R140, R172,
R338, R393, R425, R454, R478, R479, R506), what a read does (R34, R45, R94, R140, R476), and the read paths over
USB and SPI (R55, R59, R62).
-/

namespace Sys2Proof.Machine

/-! ### `EN_STAT` and the summaries -/

/-- `EN_STAT` of the block whose control register stands at an offset (R36). -/
def State.enStat (s : State) (c : Nat) : Bool :=
  if c == 0x220 then s.flag c 0 || s.startedRec.isSome
  else if 0x1000 ≤ c && c < 0x1100 then (s.ang ((c - 0x1000) / 0x40)).st != 0
  else if 0x1200 ≤ c && c < 0x1300 then s.flag c 0 || (s.pho ((c - 0x1200) / 0x10)).on s.tick
  else if 0x1300 ≤ c && c < 0x13C0 then s.flag c 0 || (s.psync ((c - 0x1300) / 4)).on s.tick
  else if 0x2000 ≤ c && c < 0x2300 then (s.port ((c - 0x2000) / 0x10)).usb.running
  else if 0x3000 ≤ c && c < 0x3C00 then s.flag c 0 || (s.port ((c - 0x3000) / 0x40)).pw.path != 0
  else if c == 0x3C04 then
    s.flag c 0 || s.ports.any fun e => e.2.pw.path == 3 || (e.2.pw.path != 0 && e.2.usb.st == 5)
  else if c == 0x4000 then (s.can 0).running
  else if c == 0x4800 then (s.can 1).running
  else s.flag c 0

/-- The control registers of each block of `HRS_BLKSTAT` (R48): where `CFG_WHILE_EN` and `LOCK_VIOL` lie. -/
def blockCtrls (b : Nat) : List Nat :=
  match b with
  | 0 => [0x110]
  | 1 => [0x220]
  | 2 => [0x314]
  | 3 => [0xC00]
  | 5 => [0xE00]
  | 6 => (List.range 4).map angBase ++ [0x1100] ++ (List.range 16).map phoBase ++ (List.range 8).map pcapBase ++ [0x1500]
  | 7 => (List.range 48).map portBase ++ [0x2400]
  | 8 => (List.range 48).map fuseBase ++ [0x3C04]
  | 9 => [0x4000, 0x4800]
  | 10 => [0x5000]
  | 11 => 0x6000 :: (List.range 33).map domBase
  | _ => []

/-- `HRS_BLKSTAT` (R48). -/
def State.blkstat (s : State) : Nat :=
  (List.range 12).foldl (fun n b =>
    let l := blockCtrls b
    n + b2n (l.any (fun c => s.flag c 8) || (b == 6 && s.flag 0x13C0 0)) * 2 ^ b +
      b2n (l.any fun c => s.flag c 9) * 2 ^ (16 + b)) 0

/-- The expert window of an opcode group (R79), and whether a window is writable (R50). -/
def windowGroup (w : Nat) : Nat :=
  match w with
  | 0 => 0x01 | 1 => 0x02 | 2 => 0x06 | 3 => 0x08 | 4 => 0x09 | _ => 0x0B
def State.windowOpen (s : State) (w : Nat) : Bool := s.cci.expert.contains (windowGroup w)

/-! ### Read-only values, by region -/

/-- Identity and status, 0x0000 to 0x0020 (R48). -/
def State.viewId (s : State) (off : Nat) : Nat :=
  match off with
  | 0x00 => 0x3A5E + s.product * 65536
  | 0x04 => 0xB1 + 3 * 256 + s.boot.fwMinor * 65536 + 2 ^ 24
  | 0x08 => s.domain.chipNum + 64 * b2n s.isRoot + s.nPorts * 256 + s.nGroups * 65536 +
      2 ^ 20 * b2n s.straps.hostsel + 2 ^ 21 * b2n s.straps.bootsel0 + 2 ^ 22 * b2n s.straps.bootsel1
  | 0x0C => s.keeper.epoch
  | 0x10 => s.rstcause
  | 0x14 => s.restarts
  | 0x18 => (List.range 3).foldl (fun n d => n + b2n (s.hrs.posted.any fun p => p.dom == d) * 2 ^ d) 0
  | 0x1C => s.blkstat
  | 0x20 => maskOf ((List.range 6).filter s.windowOpen)
  | _ => 0

/-- Mailboxes, events and locks, 0x0100 to 0x0318 (R51, R68, R92). -/
def State.viewCci (s : State) (off : Nat) : Nat :=
  let inState (st : MbState) : Nat := maskOf ((List.range 8).filter fun n => (s.mb n).state == st)
  match off with
  | 0x100 => s.mbstate
  | 0x104 => inState .posted
  | 0x108 => inState .done
  | 0x10C => s.cci.abortReq
  | 0x110 => 2 * b2n s.dataOn
  | 0x114 => s.avail
  | 0x11C => s.cci.cseqHi
  | 0x120 => s.cci.evictHi
  | 0x220 => 2 * b2n (s.enStat 0x220)
  | 0x228 => s.cci.evq.length + 512 * b2n s.cci.evqHi
  | 0x230 => s.cci.ringItems + 16384 * b2n s.cci.rqHi
  | 0x300 => s.hrs.lock0.toNat
  | 0x304 => s.hrs.portLo.toNat
  | 0x308 => s.hrs.portHi.toNat
  | 0x314 => 2 * b2n (s.enStat 0x314)
  | 0x318 => if s.boot.up then b2n s.warden.aliveRun + 2 * b2n s.warden.safePin + 4 * b2n s.warden.degraded +
      s.warden.toggles * 65536 else 0
  | _ =>
    if 0x280 ≤ off && off < 0x290 then u32 s.evHead (off - 0x280)
    else if 0x2C0 ≤ off && off < 0x300 then u32 (takeBytes 64 s.deliverable).1 (off - 0x2C0)
    else 0

/-- Bit i: a property of a source of register k (R454). -/
def State.srcBits (s : State) (k : Nat) (f : FaultSrc → Bool) : Nat :=
  maskOf ((List.range 32).filter fun i => f (s.src (32 * k + i)))

/-- Campion, 0x0C00 to 0x0C54 (R454); the selected source's registers follow `CAMP_SEL`. -/
def State.viewCampion (s : State) (off : Nat) : Nat :=
  let n := s.fld 0xC04 6 0
  let f := s.src n
  let k := s.keeper
  match off with
  | 0xC00 => 3 + 2048 * b2n s.campion.selfOk
  | 0xC08 => (s.srcCfg n).1 + (s.srcCfg n).2.1 * 256 + 2048 * b2n (srcFixed n)
  | 0xC0C => (s.srcCfg n).2.2
  | 0xC10 => s.srcState n + f.input * 4 + 16 * b2n f.downgraded + 32 * b2n (f.forced != 0) + min (s.srcCount n) 255 * 256
  | 0xC14 => f.total % 4294967296
  | 0xC1C => f.forced
  | 0xC40 => s.campion.lastSrc + s.campion.lastClass * 256
  | 0xC44 => s.campion.lastTime
  | 0xC4C =>
    let recent := k.safeTimes.filter fun t => s.chicory.wall.ns - t ≤ 86400000000000
    k.safeSrc + 128 * b2n k.safeValid + min recent.length 3 * 256
  | 0xC50 => b2n s.warden.mode + s.scriptState * 2 + s.warden.stepIdx % 64 * 256 + s.warden.cause * 65536
  | 0xC54 => s.scriptCrc
  | _ => if 0xC20 ≤ off && off < 0xC30 then s.srcBits ((off - 0xC20) / 4) fun f => f.st == 2 || f.st == 3 else 0

/-- Keeper, 0x0D00 to 0x0D2C (R479). -/
def State.viewKeeper (s : State) (off : Nat) : Nat :=
  let k := s.keeper
  match off with
  | 0xD00 => 3 + 1024 * b2n k.valErr + 2048 * b2n k.chkOk
  | 0xD04 => k.epoch
  | 0xD08 => s.rtcNow % 4294967296
  | 0xD0C => s.rtcNow / 4294967296
  | 0xD10 => k.ltnCount
  | 0xD14 => k.ltnWall % 4294967296
  | 0xD18 => k.ltnWall / 4294967296
  | 0xD1C => k.sealCseq
  | 0xD20 => b2n k.sealValid + 2 * b2n k.retLow + 4 * b2n k.vbakLow + k.rescueRefused * 256 +
      k.b16Bank * 65536 + 2 ^ 21 * b2n k.b16Retired
  | 0xD24 => k.wakeCfg
  | 0xD28 => k.wakeSeen + k.wakeLast * 16
  | 0xD2C => k.wakeTime
  | _ => 0

/-- Test multiplexer (R506). -/
def State.viewTmux (s : State) (off : Nat) : Nat :=
  match off with
  | 0xE00 => 3 + 4096 * b2n s.boot.otpTmuxOff
  | 0xE04 => maskOf ((List.range 8).filter s.tmuxDark) +
      256 * maskOf ((List.range 8).filter fun n => s.tmuxOn n && !s.tmuxDark n)
  | _ => 0

/-- An input serves a clock as its index, in the modes that have one (R106, R134). DESIGN CHOICE (log 50): only
while that clock runs. -/
def State.indexUse (s : State) (m : Nat) : Bool :=
  (List.range 4).any fun k =>
    let mode := s.fld (angBase k + 4) 2 0
    s.angRuns k && (mode == 1 || mode == 2) && s.fld (angBase k + 4) 11 8 == m

/-- A mark came within the last 1.5 s (R140). -/
def State.seenLately (s : State) (t : Option Nat) : Bool :=
  match t with
  | some t => decide (s.tick ≤ t + ticksMs 1500)
  | none => false

/-- Chicory (R140). -/
def State.viewChicory (s : State) (off : Nat) : Nat :=
  let w := s.chicory.wall
  if off < 0x1100 then
    let a := s.ang ((off - 0x1000) / 0x40)
    match off % 0x40 with
    | 0x00 => 2 * b2n (s.enStat off)
    | 0x18 => a.st + 8 * b2n a.reverse + 16 * b2n a.indexed + unsigned 16 a.pherr * 65536
    | 0x1C => a.rate / 1000000
    | 0x20 => a.cycle % 4294967296
    | 0x24 => a.cycle / 4294967296 + a.angle * 65536
    | _ => 0
  else if off < 0x1200 then
    match off with
    | 0x1100 => 2 * b2n (s.enStat off)
    | 0x1108 => w.ns % 4294967296
    | 0x110C => w.ns / 4294967296
    | 0x1110 => w.st + 8 * b2n w.valid + unsigned 16 w.adj * 65536
    | 0x1114 => unsigned 32 w.ppserr
    | _ => 0
  else if off < 0x1300 then if off % 0x10 == 0 then 2 * b2n (s.enStat off) else 0
  else if off < 0x13C0 then 2 * b2n (s.enStat off)
  else if 0x1400 ≤ off && off < 0x1480 then
    let m := (off - 0x1400) / 0x10
    let x := s.pcap m
    match off % 0x10 with
    | 0x0 => 2 * b2n (s.enStat off) + 16 * b2n (s.indexUse m)
    | 0x4 => x.lastWall % 4294967296
    | 0x8 => x.lastWall / 4294967296
    | _ => x.lastAng
  else match off with
  | 0x1500 => 2 * b2n (s.enStat off)
  | 0x1508 =>
    maskOf ((List.range 4).filter fun i => s.seenLately (Tbl.getD none s.chicory.plink.marks i)) +
      16 * b2n (s.seenLately s.chicory.plink.wallMark)
  | _ => 0

/-- Ports (R172). -/
def State.viewPort (s : State) (off : Nat) : Nat :=
  let transp (a b : Nat) : Nat := maskOf ((List.range (b - a)).filter fun i => (s.port (a + i)).usb.transparent)
  if off < 0x2300 then
    let x := s.port ((off - 0x2000) / 0x10)
    match off % 0x10 with
    | 0x0 => 2 * b2n (s.enStat off)
    | 0x8 => x.usb.st + x.usb.speed * 16 + 64 * b2n x.usb.transparent + portBits x * 128 + x.usb.cause * 4096
    | _ => 0
  else match off with
  | 0x2400 => 2 * b2n s.hub.ocActive
  | 0x2404 => b2n s.hub.configured + 2 * b2n s.hub.suspended + 4 * b2n s.hub.multiTt + 8 * b2n s.hub.rwake +
      s.hub.upSpeed * 16
  | 0x2408 => transp 0 32
  | 0x240C => transp 32 48
  | _ => 0

/-- `IT_FILL`: the largest A_k / T_k in % (R338). -/
def State.itFill (s : State) (p : Nat) : Nat :=
  min 100 ((List.range 8).foldl (fun m k =>
    max m (Tbl.getD 0 (s.port p).pw.acc k * 100 / (8 * max (s.breakpoint p k).2 1))) 0)

/-- Fusing (R338). -/
def State.viewFuse (s : State) (off : Nat) : Nat :=
  let feed (f : Nat) : Feed := s.feed f
  if off < 0x3C00 then
    let p := (off - 0x3000) / 0x40
    let w := (s.port p).pw
    match off % 0x40 with
    | 0x00 => 2 * b2n (s.enStat off)
    | 0x0C => w.path + 8 * b2n w.pgood + 16 * b2n w.limiting + 32 * b2n (w.latch != 0) + 64 * b2n w.coolUntil.isSome +
        128 * b2n w.held + w.tripCause * 256 + w.ladder * 4096 + min (coolLeft w s.tick) 1023 * 65536
    | 0x10 => unsigned 12 (w.mA / 5) + w.voMv / 6 * 65536
    | 0x14 => w.grant + s.itFill p * 65536
    | 0x18 => min w.drop 1023 * 65536
    | _ => 0
  else match off with
  | 0x3C00 => maskOf s.clover.gmgOn
  | 0x3C04 => 2 * b2n (s.enStat off)
  | 0x3C18 => s.railLoad 0 + s.railLoad 1 * 65536
  | 0x3C1C => s.feedLoad + s.feedBudget * 65536
  | 0x3C20 => maskOf s.clover.shed + 256 * b2n s.clover.overV
  | 0x3C24 => b2n (feed 0).present + 2 * b2n (feed 1).present + 4 * b2n (feed 0).conducting +
      8 * b2n (feed 1).conducting + 16 * b2n (feed 0).overV + 32 * b2n (feed 1).overV + 64 * b2n s.clover.carrying +
      256 * b2n (s.rail 0).inBand + 512 * b2n (s.rail 1).inBand
  | 0x3C28 => (feed 0).mv / 10 + (feed 1).mv / 10 * 65536
  | 0x3C2C => (s.rail 0).mv + (s.rail 1).mv * 65536
  | _ => 0

/-- Outcomes of buffers from one on, two bits each (R393). -/
def CanCtl.outcomes (x : CanCtl) (b : Nat) : Nat :=
  (List.range 16).foldl (fun n i => n + Tbl.getD 0 x.outs (b + i) * 4 ^ i) 0

/-- CAN (R393). -/
def State.viewCan (s : State) (off : Nat) : Nat :=
  let x := s.can (if off < 0x4800 then 0 else 1)
  match off % 0x800 with
  | 0x00 => 2 * b2n (s.enStat off)
  | 0x10 => x.st + min x.tec 255 * 256 + min x.rxErr 255 * 65536 + 2 ^ 24 * b2n x.abdVer + x.lastErr * 2 ^ 25
  | 0x14 => x.txcnt % 4294967296
  | 0x18 => x.errcnt % 4294967296
  | 0x1C => x.rxq0.length + x.rxq1.length * 65536
  | 0x28 => x.mask [1, 4]
  | 0x2C => x.mask [2]
  | 0x30 => x.mask [3]
  | 0x34 => x.outcomes 0
  | 0x38 => x.outcomes 16
  | _ => 0

/-- Integrity (R425). `MODE` and `RETAIN` of a region are the region's own. -/
def State.viewInteg (s : State) (off : Nat) : Nat :=
  let i := s.integ
  if 0x5100 ≤ off && off < 0x5240 then
    let r := (off - 0x5100) / 0x10
    let x := s.region r
    match off % 0x10 with
    | 0x0 => s.rgnMode r + 2 * s.rgnRetain r + s.rgnT r / 4 * 16 + s.rgnState r * 256
    | 0x4 => s.regionPages r
    | 0x8 => x.corr % 4294967296
    | _ => min x.ue 65535 + min x.retired 65535 * 65536
  else match off with
  | 0x5000 => 2 * b2n (s.enStat off)
  | 0x5008 => (s.staleOf false).length * 65536 + (s.staleOf true).length * 2 ^ 25
  | 0x500C => s.extFrames
  | 0x5010 => i.spareUsed
  | 0x5020 => i.rotBank + i.rotPhase * 32 + 128 * b2n i.rotRetired
  | 0x5030 => i.rsRegion + i.rsT / 4 * 256 + 4096 * b2n i.rsActive + i.rsRate * 65536
  | 0x5034 => i.rsDone
  | 0x5038 => i.rsTotal
  | 0x5050 => i.log.length + min i.lost 65535 * 65536
  | _ => 0

/-- Power domains (R478). -/
def State.viewDom (s : State) (off : Nat) : Nat :=
  if 0x6100 ≤ off && off < 0x6310 then
    let x := s.dom ((off - 0x6100) / 0x10)
    match off % 0x10 with
    | 0x0 => 2 * b2n (s.enStat off)
    | 0xC => x.st + 4 * b2n (x.entry.isSome || x.wake.isSome) + x.ap * 8 + x.lastSrc * 256
    | _ => 0
  else match off with
  | 0x6000 => 2 * b2n (s.enStat off)
  | 0x6008 => s.power.vcoreMv + 4096 * b2n s.power.vcorePend.isSome
  | 0x600C => s.power.pmsw
  | 0x6010 => if s.variant = .svh16 then maskOf s.power.held else 0
  | _ => 0

/-- What hardware drives in a register, beside what it stores. -/
def State.view (s : State) (off : Nat) : Nat :=
  if off < 0x100 then s.viewId off
  else if off < 0x400 then s.viewCci off
  else if off < 0xC00 then 0
  else if off < 0xD00 then s.viewCampion off
  else if off < 0xE00 then s.viewKeeper off
  else if off < 0x1000 then s.viewTmux off
  else if off < 0x2000 then s.viewChicory off
  else if off < 0x3000 then s.viewPort off
  else if off < 0x4000 then s.viewFuse off
  else if off < 0x5000 then s.viewCan off
  else if off < 0x6000 then s.viewInteg off
  else s.viewDom off

/-! ### Registers that are absent or dark -/

/-- The port of a port-die register (R38, R172, R338): none for any other. -/
def dieport (off : Nat) : Option Nat :=
  if 0x1300 ≤ off && off < 0x13C0 then some ((off - 0x1300) / 4)
  else if 0x2000 ≤ off && off < 0x2300 then some ((off - 0x2000) / 0x10)
  else if 0x3000 ≤ off && off < 0x3C00 then some ((off - 0x3000) / 0x40)
  else none

/-- A register the SVH16 lacks: it reads 0 and ignores writes (R140, R172, R338, R478). -/
def State.absentReg (s : State) (off : Nat) : Bool :=
  (match dieport off with
    | some p => decide (s.nPorts ≤ p)
    | none => false) ||
    (0x6100 ≤ off && off < 0x6310 && s.variant = .svh16 && !domainExists .svh16 ((off - 0x6100) / 0x10) &&
      domainExists .svh48 ((off - 0x6100) / 0x10))

/-- A port-die register whose domain is not ON (R458). -/
def State.dieOff (s : State) (off : Nat) : Bool :=
  match dieport off with
  | some p => (s.dom (if p < 24 then 0x0A else 0x0B)).st != 0
  | none => false

/-! ### The value of a register -/

/-- The bits of a register its storage holds: every field but the RO ones, and none where the values live
elsewhere (`view` gives those). -/
def storedMask (v : Variant) (off : Nat) : Nat :=
  if off == 0x14 || off == 0x104 || off == 0x108 || (0x300 ≤ off && off < 0x30C) || (0x1C0 ≤ off && off < 0x200) ||
      off == 0xC08 || off == 0xC0C || off == 0xC18 || off == 0xC1C || (0xD00 ≤ off && off < 0xE00) ||
      (0x5100 ≤ off && off < 0x5240) then 0
  else if off == 0x10C then 0xFF00
  else ((fields v off).filter fun f => f.acc != .ro).foldl (fun m f => m ||| f.mask) 0

/-- A word of a mailbox window (R63). -/
def State.winWord (s : State) (off : Nat) : Nat := rdLe ((s.mb ((off - 0x400) / 0x100)).bytes (off % 0x100) 4)

/-- The value a register shows (R30, R34). RSV-L bits read 0. -/
def State.regValue (s : State) (off : Nat) : Nat :=
  if 0x7000 ≤ off || s.absentReg off || s.dieOff off then 0
  else if 0x400 ≤ off && off < 0xC00 then s.winWord off
  else (s.reg off &&& storedMask s.variant off) ||| s.view off

/-- The partners a read of a `*_LO` register latches (R140, R476). -/
def partners (off : Nat) : List Nat :=
  if 0x1000 ≤ off && off < 0x1100 && off % 0x40 == 0x20 then [off + 4]
  else if off == 0x1108 then [0x110C]
  else if 0x1400 ≤ off && off < 0x1480 && off % 0x10 == 4 then [off + 4, off + 8]
  else if off == 0xD08 then [0xD0C]
  else []

/-- The RC bits of a register. -/
def rcMask (v : Variant) (off : Nat) : Nat :=
  ((fields v off).filter fun f => f.acc == .rc).foldl (fun m f => m ||| f.mask) 0

/-- Clear the bits of a mask in a register (RC fields; those of `HRS_RESTARTS` have a home of their own). -/
def clearBits (off m : Nat) (s : State) : State :=
  if off == 0x14 then
    { s with hrs.mgmtRestarts := s.hrs.mgmtRestarts - (s.hrs.mgmtRestarts &&& m)
             hrs.grpRestarts := s.hrs.grpRestarts - (s.hrs.grpRestarts &&& m / 256) }
  else s.setReg off (s.reg off - (s.reg off &&& m))

/-- A completed read of one register: its value, and what the read changes (R34, R140, R476). -/
def readReg (off : Nat) (s : State) : Nat × State :=
  let v := match Tbl.getD none s.hrs.latched off with
    | some w => w.toNat
    | none => s.regValue off
  let s := (partners off).foldl (fun (t : State) h =>
    { t with hrs.latched := Tbl.setD none t.hrs.latched h (some (BitVec.ofNat 32 (s.regValue h))) })
    { s with hrs.latched := Tbl.setD none s.hrs.latched off none }
  let m := rcMask s.variant off
  (v, if m == 0 || s.absentReg off || s.dieOff off then s else clearBits off m s)

/-! ### Bit aliases -/

/-- The register and bit behind an offset of the bit region (R44). -/
def mirrorBit (off : Nat) : Nat × Nat :=
  let i := (off - 0x8000) / 4
  (i / 32 * 4, i % 32)

/-- A bit of this register has no use behind the bit region (R69). -/
def noMirror (off : Nat) : Bool :=
  (0x1C0 ≤ off && off < 0x200) || (0x280 ≤ off && off < 0x290) || (0x2C0 ≤ off && off < 0x300)

/-- A read in the bit region: the bit, which is cleared alone if it is RC (R45). -/
def readBit (off : Nat) (s : State) : Nat × State :=
  let (r, n) := mirrorBit off
  if noMirror r then (0, s)
  else
    let b := bit (s.regValue r) n
    (b2n b, if b && bit (rcMask s.variant r) n then clearBits r (2 ^ n) s else s)

/-! ### Reads of a run of registers -/

/-- Consecutive registers read in address order. -/
def readRun : Nat → Nat → State → List Byte × State
  | 0, _, s => ([], s)
  | n + 1, off, s =>
    let x := if 0x8000 ≤ off then readBit off s else readReg off s
    let y := readRun n (off + 4) x.2
    (le 4 x.1 ++ y.1, y.2)

/-- A completed read of `n` words from an offset: a read that covers all of `CCI_EVREAD` removes an event, one
of all sixteen words of `CCI_RQREAD` removes the bytes it returns (R94). -/
def readFrame (off n : Nat) (s : State) : State :=
  let d := s.deliverable
  let x := readRun n off s
  let s := { x.2 with rdata := x.1 }
  let s := if off ≤ 0x280 && 0x290 ≤ off + 4 * n then dropEvents 1 s else s
  if off ≤ 0x2C0 && 0x300 ≤ off + 4 * n then
    let y := takeBytes 64 d
    delivered y.2.1 (y.2.2 ++ s.cci.ring.drop d.length) s
  else s

/-- An offset that is a register of the 64 KiB space. -/
def aligned (off : Nat) : Bool := off % 4 == 0

/-- R45. A read in the bit region. -/
def execBitAliasRead (off : BitVec 16) (s : State) : Out :=
  if s.hostOn && aligned off.toNat && 0x8000 ≤ off.toNat then .next (readFrame off.toNat 1 s) else .next s

/-- R34. A completed read of a register that holds RC fields. -/
def execRcFieldRead (off : BitVec 16) (s : State) : Out :=
  if s.hostOn && aligned off.toNat then .next (readFrame off.toNat 1 s) else .next s

/-- R140. A read of a `*_LO` register. -/
def execLoRegisterRead (off : BitVec 16) (s : State) : Out :=
  if s.hostOn && aligned off.toNat then .next (readFrame off.toNat 1 s) else .next s

/-- A request the space refuses: misaligned, of a wrong length, or across a 256-byte boundary (R55, R61). DESIGN
CHOICE (log 55): a vendor request of length 0 or above 64 is answered with `STALL` as those of R55 are, and an SPI
frame of more than 16 words counts as a range error. -/
def rangeBad (off bytes : Nat) : Bool :=
  off % 4 != 0 || bytes % 4 != 0 || bytes < 4 || 64 < bytes || off % 256 + bytes > 256

/-- The control pipe answers a request, with `STALL` or without (R55). -/
def pipeAnswer (stall : Bool) (s : State) : State := { s with hrs.stalled := stall }

/-- R55. `REG_READ`: `STALL` returns nothing and has no effect. -/
def execRegRead (off : BitVec 16) (len : Nat) (s : State) : Out :=
  if !s.hostOn || !s.usbHost then .next s
  else if rangeBad off.toNat len then .next (pipeAnswer true { s with rdata := [] })
  else .next (pipeAnswer false (readFrame off.toNat (len / 4) s))

/-! ### SPI frames -/

/-- The SPI target answers frames (R14). -/
def State.spiOn (s : State) : Bool := s.hostOn && !s.usbHost

/-- The status byte after a frame (R62). -/
def spiStatus (n : Nat) (s : State) : State := { s with hrs.spiStatus := n }

/-- Offset and word count of a frame's header (R57). -/
def spiOff (h : List Byte) : Nat := u8 h 1 * 256 + u8 h 2
def spiCount (h : List Byte) : Nat := u8 h 3 + 1

/-- The bytes the hub drives after a read frame's header (R57, R59): a 0x00 for each status byte before the data
is ready, 0xA5, the data and their CRC; or, where 32 of them do not suffice, 0xE1. -/
def spiDriven (header data : List Byte) (statusBytes : Nat) : List Byte :=
  if 32 < statusBytes then zeros 32 ++ [0xE1]
  else zeros statusBytes ++ [0xA5] ++ data ++ [byte (crc8 (header ++ data))]

/-- R59. A read frame: it takes effect only when its chip select rises after the whole frame was clocked out, the
data ready within 32 status bytes; `clocked` counts the bytes after the header, and the host gets those. -/
def execSpiReadFrame (header : List Byte) (statusBytes clocked : Nat) (s : State) : Out :=
  if !s.spiOn || header.length != 4 || u8 header 0 != 3 then .next s
  else if rangeBad (spiOff header) (4 * spiCount header) then .next (spiStatus 4 s)
  else
    let t := readFrame (spiOff header) (spiCount header) (spiStatus 0 s)
    let driven := spiDriven header t.rdata statusBytes
    if clocked < driven.length || 32 < statusBytes then
      .next (spiStatus 8 { s with rdata := driven.take clocked })
    else .next { t with rdata := driven }

/-- R62. Opcode 0x05 reads the status byte and its CRC, and changes nothing it reports. -/
def execSpiStatusFrame (s : State) : Out :=
  if s.spiOn then .next { s with rdata := [byte s.hrs.spiStatus, byte (crc8 [5, byte s.hrs.spiStatus])] } else .next s

end Sys2Proof.Machine
end

