-- ==== Sys2Proof/Machine/Time.lean ====
section
/-!
DEFINITION. The meanings of the `ang.*`, `time.*` and `phase.*` commands (R288) and of the rows of
chapter 4 that the clocks, the phase outputs, the captures and the phase link bring about.
-/

namespace Sys2Proof.Machine

/-! ### `ang.*` -/

/-- The ranges of R140 for `ang.config`. -/
def angCfgBad (r : Req) : Bool :=
  let p := r.params
  let mode := u8 p 0
  let inp := u8 p 1
  let hl := u16 p 8
  let fr := u32 p 12
  3 < mode || (if mode ≤ 1 then 5 < inp else if mode == 2 then 2 < inp else 3 < inp) ||
    3 < u8 p 2 || (7 < u8 p 3 && u8 p 3 != 15) || u16 p 4 == 0 || hl == 0 || 6000 < hl ||
    1 < u8 p 10 || fr < 500 || 1000000 < fr || 3 < r.e8 16 0 || r.e8 18 32 == 0 ||
    r.e8 19 4 < 2 || 15 < r.e8 19 4

/-- Load the configuration of a clock (R288). -/
def angLoad (k : Nat) (r : Req) (s : State) : State :=
  let p := r.params
  let b := angBase k
  let s := s.setReg (b + 0x04) (u8 p 0 + u8 p 1 * 8 + u8 p 2 * 64 + u8 p 3 * 256 + u16 p 4 * 65536)
  let s := s.setReg (b + 0x08) (r.e8 16 0 + r.e8 17 10 * 256 + r.e8 18 32 * 65536 + r.e8 19 4 * 2 ^ 24)
  let s := s.setReg (b + 0x0C) (u16 p 8 + u8 p 10 * 2 ^ 13 + r.e16 20 0x400 * 65536)
  (s.setReg (b + 0x10) (u16 p 6)).setReg (b + 0x14) (u32 p 12)

/-- R288 `ang.config`. -/
def coreAngConfig (r : Req) (s : State) : CmdRes :=
  let k := tIndex r.target
  if 3 < k || angCfgBad r then .refuse .badParam []
  else if s.angRuns k then .refuse .wrongState []
  else .commit [] (angLoad k r s)

/-- The row of `coreAngConfig`. -/
def execAngConfig (mb : Fin 8) (s : State) : Out := runOp mb 0x0101 coreAngConfig s

/-- R288 `ang.enable`. -/
def coreAngEnable (r : Req) (s : State) : CmdRes :=
  let k := tIndex r.target
  let e := u8 r.params 0
  if 3 < k || 1 < e then .refuse .badParam []
  else if e == 1 then .commit [] (angOn k s)
  else if s.angRuns k && s.inUse k then .refuse .wrongState []
  else .commit [] (angOff k s)

/-- The row of `coreAngEnable`. -/
def execAngEnable (mb : Fin 8) (s : State) : Out := runOp mb 0x0102 coreAngEnable s

/-- Results of `ang.status` (R288). -/
def angStatus (k : Nat) (s : State) : List Byte :=
  let w := s.chicory.wall
  if k == 4 then
    [byte w.st, byte (4 * b2n w.valid), 0, 0] ++ le 4 (unsigned 32 w.adj) ++ zeros 8 ++ le 8 w.ns
  else
    let a := s.ang k
    [byte a.st, byte (b2n a.reverse + 2 * b2n a.indexed)] ++ le 2 (unsigned 16 a.pherr) ++
      le 4 (a.rate / 1000000) ++ le 6 a.cycle ++ le 2 a.angle ++ le 8 w.ns

/-- R288 `ang.status`. -/
def coreAngStatus (r : Req) (s : State) : CmdRes :=
  .query (angStatus (tIndex r.target) s)

/-- The row of `coreAngStatus`. -/
def execAngStatus (mb : Fin 8) (s : State) : Out := runOp mb 0x0103 coreAngStatus s

/-! ### `time.*` -/

/-- R120 `time.set`. -/
def coreTimeSet (r : Req) (s : State) : CmdRes :=
  if tIndex r.target != 4 then .refuse .badParam []
  else
    let old := s.chicory.wall.ns
    let t := wallPair (wallStep (u64 r.params 0) s)
    .commit (le 8 old) { t with chicory.wall.valid := true }

/-- The row of `coreTimeSet`. -/
def execTimeSet (mb : Fin 8) (s : State) : Out := runOp mb 0x0111 coreTimeSet s

/-- Duration in ms of a slew at 500 ppm, rounded up. -/
def slewMs (offset : Int) : Nat := (offset.natAbs + 499) / 500

/-- R120 `time.adjust`: the slew replaces one still running. -/
def coreTimeAdjust (r : Req) (s : State) : CmdRes :=
  let o := signed 64 (u64 r.params 0)
  if tIndex r.target != 4 || 1000000000 < o.natAbs then .refuse .badParam []
  else .commit (le 4 (slewMs o)) { s with chicory.wall.slew := o * 10000000 }

/-- The row of `coreTimeAdjust`. -/
def execTimeAdjust (mb : Fin 8) (s : State) : Out := runOp mb 0x0112 coreTimeAdjust s

/-- R119 `time.disc`. -/
def coreTimeDisc (r : Req) (s : State) : CmdRes :=
  let p := r.params
  let hl := u16 p 2
  let cfg := u8 p 0 + u8 p 1 * 4 + hl * 65536
  if tIndex r.target != 4 || 2 < u8 p 0 || 1 < u8 p 1 || hl == 0 || 6000 < hl || 1 < u8 p 4 then
    .refuse .badParam []
  else if s.flag 0x1100 0 && cfg != s.reg 0x1104 then .refuse .wrongState []
  else
    let s := s.setReg 0x1104 cfg
    .commit [] (if u8 p 4 == 1 then wallOn s else wallOff s)

/-- The row of `coreTimeDisc`. -/
def execTimeDisc (mb : Fin 8) (s : State) : Out := runOp mb 0x0113 coreTimeDisc s

/-! ### `phase.*` -/

/-- R131 `phase.set`: a running output finishes its pulse, reloads, and restarts at its next
target. -/
def corePhaseSet (r : Req) (s : State) : CmdRes :=
  let p := r.params
  let n := u8 p 0
  let wid := u32 p 12
  if 15 < n || 1 < u8 p 1 || 3 < u8 p 3 || 16777215 < wid ||
      phoBad (u8 p 2) (u32 p 4) (u32 p 8) wid (bit (u8 p 3) 0) then .refuse .badParam []
  else
    let b := phoBase n
    let s := s.setReg b (bits (s.reg b) 11 8 * 256 + b2n (s.flag b 0) + u8 p 2 * 4 + u8 p 3 * 32 +
      r.e8 16 0 * 65536)
    let s := ((s.setReg (b + 4) (u32 p 4)).setReg (b + 8) (u32 p 8)).setReg (b + 12) wid
    .commit [] (if u8 p 1 == 1 then phoOn n s else phoOff n s)

/-- The row of `corePhaseSet`. -/
def execPhaseSet (mb : Fin 8) (s : State) : Out := runOp mb 0x0121 corePhaseSet s

/-- Queue a posted write of a port-die register (R38). -/
def postWrite (dom off val : Nat) (s : State) : State :=
  { s with hrs.posted := s.hrs.posted ++ [{ dom := dom, off := off, val := BitVec.ofNat 32 val }] }

/-- The posted domain of a port (R38). -/
def postDom (p : Nat) : Nat := if p < 24 then 1 else 2

/-- R132 `phase.psync`, posted. -/
def corePhasePsync (r : Req) (s : State) : CmdRes :=
  let p := r.params
  let port := tIndex r.target
  let cfg := u8 p 1 * 4 + u8 p 2 * 8 + u16 p 4 * 16
  let old := s.reg (psyncReg port)
  if 1 < u8 p 0 || 1 < u8 p 1 || 1 < u8 p 2 || u16 p 4 == 0 then .refuse .badParam []
  else if bit old 0 && old - 1 != cfg then .refuse .wrongState []
  else .commit [] (postWrite (postDom port) (psyncReg port) (cfg + u8 p 0) s)

/-- The row of `corePhasePsync`. -/
def execPhasePsync (mb : Fin 8) (s : State) : Out := runOp mb 0x0122 corePhasePsync s

/-- R133 `phase.capture`. -/
def corePhaseCapture (r : Req) (s : State) : CmdRes :=
  let p := r.params
  let m := u8 p 0
  let b := pcapBase m
  let cfg := u8 p 2 * 4 + u8 p 3 * 4096 + r.e8 4 10 * 65536
  let old := s.reg b
  let flags := bits old 11 8 * 256
  if 7 < m || 1 < u8 p 1 || 2 < u8 p 2 || 4 < u8 p 3 then .refuse .badParam []
  else if bit old 0 && u8 p 1 == 0 && s.pcapUsed m then .refuse .wrongState []
  else if bit old 0 && old - 1 - flags != cfg then .refuse .wrongState []
  else .commit [] (s.setReg b (cfg + flags + u8 p 1))

/-- The row of `corePhaseCapture`. -/
def execPhaseCapture (mb : Fin 8) (s : State) : Out := runOp mb 0x0123 corePhaseCapture s

/-- R138 `phase.link`. -/
def corePhaseLink (r : Req) (s : State) : CmdRes :=
  let p := r.params
  let dly := u16 p 4
  if 7 < u8 p 0 || 15 < u8 p 1 || 4095 < dly then .refuse .badParam []
  else
    let cfg := dly + u8 p 1 * 65536 + b2n (bit (u8 p 0) 2) * 2 ^ 20 + u8 p 2 * 2 ^ 24
    let changed := cfg != s.reg 0x1504
    let s := if changed && s.linkOn then linkRestart s else s
    let s := s.setReg 0x1504 cfg
    let s := s.setFld 0x1500 0 0 (b2n (bit (u8 p 0) 0))
    .commit [] (s.setFld 0x1500 2 2 (b2n (bit (u8 p 0) 1)))

/-- The row of `corePhaseLink`. -/
def execPhaseLink (mb : Fin 8) (s : State) : Out := runOp mb 0x0124 corePhaseLink s

/-! ### References -/

/-- R111. A level change on the reference inputs, as a clock sees it (R106 to R109). An accepted one is dated at, and
takes effect in, the first tick of the new level (R107). -/
def execReferenceEvent (k : Fin 4) (chg : PinChange) (s : State) : Out :=
  let what := s.lineChange k chg
  let u := (if what == .event then track k chg.after s else s).waitUntil (s.tick + chg.after)
  let t := u.setAng k { u.ang k with lines := s.linesOf k chg.levels }
  let runs := (s.ang k).st != 0
  match what with
  | .nothing => .next u
  | .glitch => .next (if runs then u.incFld (angBase k + 0x28) 7 0 else u)
  | .illegal => .next (if runs then refFault k 3 (t.incFld (angBase k + 0x28) 15 8) else t)
  | .level => .next t
  | .event => .next (if runs then refEvent k (edgeRate k t) else t)
  | .backward => .next (if runs then reverseOn k (edgeRate k t) else t)

/-- Events between the index's expected position and the reference's position, signed (R110). -/
def State.indexOff (s : State) (k : Nat) : Int :=
  let n := s.eventsPerCycle k
  let i := (s.ang k).evIdx
  if 2 * i ≤ n then i else (i : Int) - n

/-- The clock takes up an index edge (R110, R112): it realigns to `OFFSET` through the loop, and an edge more than 4 events
away from its expected position is counted and a fault. -/
def indexSeen (k : Nat) (s : State) : State :=
  let a := s.ang k
  let off := s.fld (angBase k + 0x10) 15 0
  let err := a.errorTo off
  let s := if 4 < (s.indexOff k).natAbs && !a.firstIndex then
      refFault k 4 (s.incFld (angBase k + 0x28) 23 16) else s
  let b := s.ang k
  s.setAng k { b with
    indexed := true, firstIndex := false, base := off, evIdx := 0
    owe := if a.seen == 0 then 0 else err, pherr := err
    lockRun := if a.firstIndex && b.st == 1 then 0 else b.lockRun }

/-- The polarity a capture input's `EDGE` selects (R133); DESIGN CHOICE (log 54): it is also that of an index edge. -/
def State.pcapEdge (s : State) (m : Nat) (rising : Bool) : Bool :=
  let e := s.fld (pcapBase m) 3 2
  e == 2 || (e == 0 && rising) || (e == 1 && !rising)

/-- R110. A level change on a capture input, as the clock whose index it is sees it. -/
def execIndexEdge (k : Fin 4) (m : Fin 8) (after hold : Nat) (rising : Bool) (s : State) : Out :=
  let s := s.waitUntil (s.tick + after)
  let a := s.ang k
  let mode := s.angMode k
  if a.st == 0 || s.fld (angBase k + 4) 11 8 != m.val || !(mode == 1 || mode == 2) then .next s
  else if hold < s.fld (pcapBase m) 23 16 then .next (s.incFld (angBase k + 0x28) 7 0)
  else if a.reverse || !s.pcapEdge m rising then .next s
  else .next (indexSeen k s)

/-- R109. A quadrature event of a clock: backward, it holds the clock; the first forward one resumes it. -/
def execReverse (k : Fin 4) (aLeads : Bool) (s : State) : Out :=
  if (s.ang k).st == 0 || s.angMode k != 2 then .next s
  else if aLeads == s.flag (angBase k + 4) 7 then .next (reverseOn k s)
  else if (s.ang k).reverse then .next (reverseOff k s)
  else .next s

/-- Ticks of 1.5 reference intervals at the rate estimate (R116). -/
def State.lossTicks (s : State) (k : Nat) : Nat :=
  3 * 10 ^ 17 / (2 * max ((s.ang k).rate * s.eventsPerCycle k) 1) + 1

/-- R116. No reference event within 1.5 intervals. DESIGN CHOICE (log 54): the test does not run while the shaft is
reversed, when no event can be compared (R109). -/
def execReferenceLoss (k : Fin 4) (s : State) : Out :=
  let a := s.ang k
  if a.reverse || !(a.st == 2 || (a.st == 1 && a.seen == 2)) then .next s
  else .next (refLoss k (s.waitUntil (a.lastEvent + s.lossTicks k)))

/-- `HOLD_LIM` elapsed in the wall clock's `HOLDOVER` (R119). -/
def wallHoldEnd (s : State) : State :=
  if s.chicory.wall.st == 3 then
    wallState 4 (s.waitUntil (s.chicory.wall.heldAt + ticksMs (100 * s.fld 0x1104 28 16)))
  else s

/-- R115, R119. `HOLD_LIM` elapsed in `HOLDOVER`: `FREE`. -/
def execHoldLimExpiry (tb : Fin 5) (s : State) : Out :=
  if tb.val == 4 then .next (wallHoldEnd s)
  else
    let k := tb.val
    if (s.ang k).st == 3 then
      .next (angState k 4 (s.waitUntil ((s.ang k).heldAt + ticksMs (100 * s.fld (angBase k + 0x0C) 12 0))))
    else .next s

/-- R111. Time passes until the angle wraps and the cycle count increments; none while the clock
holds. -/
def execCycleWrap (k : Fin 4) (s : State) : Out :=
  match s.reach k ((s.ang k).cycle * 65536 + 65536) with
  | some t => .next t
  | none => .next s

/-! ### Anchors and the wall clock -/

/-- R125. The anchor of a time base at a 30 s mark of wall time. -/
def execAnchorPeriodic (tb : Fin 5) (s : State) : Out :=
  if tb.val < 4 && !s.inUse tb then .next s
  else
    let last := Tbl.getD 0 s.chicory.anchorAt tb
    let s := if last == s.wallUs / 30000000 then
        (s.reach 4 ((last + 1) * 30000000)).getD s else s
    .next (anchor tb 1 { s with
      chicory.anchorAt := Tbl.setD 0 s.chicory.anchorAt tb (s.wallUs / 30000000) })

/-- A `time.set` that may run in this tick applies before a discipline edge of it, which is measured against the new
time (R121). -/
def timeSetFirst (s : State) : State :=
  (List.range 8).foldl (fun s n => match runOp n 0x0111 coreTimeSet s with
    | .next t => t
    | _ => s) s

/-- R119. An edge of `PPS_IN`, of the polarity `PPS_EDGE` selects. -/
def execWallDisciplineEdge (after : Nat) (rising : Bool) (s : State) : Out :=
  let s := s.waitUntil (s.tick + after)
  if s.fld 0x1104 1 0 == 1 && rising != s.flag 0x1104 2 then .next (wallEdge 0 (timeSetFirst s)) else .next s

/-- R119. 1.5 s without an edge: `HOLDOVER`; then `HOLD_LIM`: `FREE`. -/
def execWallHoldover (s : State) : Out :=
  let w := s.chicory.wall
  if w.st == 1 || w.st == 2 then .next (wallState 3 (s.waitUntil (w.lastEdge + ticksMs 1500)))
  else .next (wallHoldEnd s)

/-- R120. The slew has absorbed its offset. -/
def execWallSlewEnd (s : State) : Out :=
  .next (s.elapse ((s.chicory.wall.slew.natAbs + 49999) / 50000))

/-! ### The phase link -/

/-- A pulse on `PLINK_IN` (R135, R136): a data bit, a cycle mark, a second mark, or an error. -/
def linkPulse (s : State) (x : LinkPulse) : State :=
  let slot := markSlot x.width
  let s := match slot with
    | some i => (s.linkClocks i).foldl (fun s k => track k x.after s) s
    | none => s
  let s := s.waitUntil (s.tick + x.after)
  if !s.linkOn then s
  else match slot with
  | some i => linkCycleMark i s
  | none =>
    if nearWidth x.width 1000 then linkSecondMark (timeSetFirst s)
    else if nearWidth x.width 100 then linkBit false s
    else if nearWidth x.width 200 then linkBit true s
    else
      let s := frameError s
      { s with chicory.plink.rxBits := [], chicory.plink.rxSkip := true }

/-- R137. A received pulse: a cycle mark or a second mark. -/
def execLinkMark (pulse : LinkPulse) (s : State) : Out := .next (linkPulse s pulse)

/-- R139, R120. The pulses of a received frame, with the marks that fall within it. -/
def execLinkFrame (pulses : List LinkPulse) (s : State) : Out := .next (pulses.foldl linkPulse s)

/-- R136. The frames after a second mark. -/
def execLinkTransmit (s : State) : Out :=
  if s.flag 0x1500 2 then
    let l := linkFrames s
    .next { s with chicory.plink.sent := l, chicory.plink.cells := linkCells s.foreseen s.tick l }
  else .next s

/-! ### Captures, outputs and sync drivers -/

/-- The clock that counts a capture input's glitches in `ANGk_ERRCNT` (R107) where no clock takes the input as its
index. DESIGN CHOICE (log 54): the clock of `TB`. -/
def pcapGlitch (m : Nat) (s : State) : State :=
  let tb := s.fld (pcapBase m) 14 12
  if tb < 4 && (List.range 4).all (fun k => s.fld (angBase k + 4) 11 8 != m) then
    s.incFld (angBase tb + 0x28) 7 0 else s

/-- R133. A level change on a capture input. -/
def execCaptureEdge (m : Fin 8) (after hold : Nat) (rising : Bool) (s : State) : Out :=
  let s := s.waitUntil (s.tick + after)
  if !s.flag (pcapBase m) 0 then .next s
  else if hold < s.fld (pcapBase m) 23 16 then .next (pcapGlitch m s)
  else if s.pcapEdge m rising then .next (capture m s)
  else .next s

/-- R128 to R130. The edge of an output's next target, or of the end of its active level. In the safe state no output
leaves its safe value (R131, R448). -/
def execPhaseOutputTarget (n : Fin 16) (s : State) : Out :=
  let x := s.pho n
  let tb := (s.phoSpec n).tb
  if s.warden.safe then .next s
  else match x.endPos with
  | some e =>
    match s.reachTick tb e with
    | some c =>
      let t := s.waitUntil (s.phoEdge n c)
      .next (t.setPho n { t.pho n with active := false, endPos := none })
    | none => .next s
  | none =>
    if s.flag (phoBase n) 0 then
      match s.reachTick tb x.next with
      | some c => .next (phoFire n (s.waitUntil (s.phoEdge n c)))
      | none => .next s
    else .next s

/-- R132. The next sync target of a port, its edge 40 ns after the crossing (R129). -/
def execPsyncTarget (p : Port) (s : State) : Out :=
  let x := s.syncPat p
  if x.on then
    match s.reachTick x.sched.tb x.next with
    | some c => .next (psyncFire p (s.waitUntil (c + 4)))
    | none => .next s
  else .next s

end Sys2Proof.Machine
end

