-- ==== Sys2Proof/Machine/RegWrite.lean ====
section
/-!
DEFINITION. Writes of the host register space: access types, locks, CFG and posted writes (R34 to R43), value
refusals, the `ENABLE` bits, the bit region (R46, R47), and the write paths over USB and SPI (R55, R56, R60, R61).
A write answers none where it alters a reserved live field, after which R43 leaves the behaviour open.
-/

namespace Sys2Proof.Machine

/-! ### Blocks and locks -/

/-- The control register of the block a register belongs to (R36). -/
def ctrlOf (off : Nat) : Nat :=
  if off < 0x200 then 0x110
  else if off < 0x300 then 0x220
  else if off < 0x400 then 0x314
  else if off < 0xD00 then 0xC00
  else if off < 0xE00 then 0xD00
  else if off < 0x1000 then 0xE00
  else if off < 0x1100 then off / 0x40 * 0x40
  else if off < 0x1200 then 0x1100
  else if off < 0x1300 then off / 0x10 * 0x10
  else if off < 0x13C0 then off
  else if off < 0x1500 then off / 0x10 * 0x10
  else if off < 0x2000 then 0x1500
  else if off < 0x2400 then off / 0x10 * 0x10
  else if off < 0x3000 then 0x2400
  else if off < 0x3C00 then off / 0x40 * 0x40
  else if off < 0x4000 then 0x3C04
  else if off < 0x4800 then 0x4000
  else if off < 0x5000 then 0x4800
  else if off < 0x6000 then 0x5000
  else if off < 0x6100 then 0x6000
  else off / 0x10 * 0x10

/-- CFG fields of a register may not change now (R36, R37); those of `PLINK_CFG` need `TX_EN` 0 as well. -/
def State.blockOn (s : State) (off : Nat) : Bool :=
  let c := ctrlOf off
  s.flag c 0 || s.enStat c || (c == 0x1500 && s.flag c 2)

/-- The lock that covers an LK field is set (R51, R338, R372, R454). -/
def State.lockedField (s : State) (off lo : Nat) : Bool :=
  s.hrs.lock0.getLsbD
    (if off < 0x400 then 0
     else if off < 0xD00 then 6
     else if off < 0x1000 then 7
     else if off < 0x3000 then 4
     else if off < 0x3C00 then (if off % 0x40 == 8 && lo == 16 then 3 else 2)
     else if off < 0x4000 then 3
     else 5)

/-- The flags of a refused write. `PSYNCnn` share one `CFG_WHILE_EN` and have no `VAL_ERR`; a lock violation
counts on FS86 (R40). -/
def cfgViol (off : Nat) (s : State) : State :=
  if 0x1300 ≤ off && off < 0x13C0 then s.setFlag 0x13C0 0 else s.setFlag (ctrlOf off) 8
def lockViol (off : Nat) (s : State) : State := faultPulse 86 (s.setFlag (ctrlOf off) 9)
def valErr (off : Nat) (s : State) : State :=
  if (0x1300 ≤ off && off < 0x13C0) || ctrlOf off == 0x2400 || off < 0x200 then s else s.setFlag (ctrlOf off) 10

/-! ### Values -/

/-- A value stored as the nearer limit (R68, R92), and `SPAN` 0, which reads as 1 (R425). -/
def clampReg (off v : Nat) : Nat :=
  if off == 0x118 then max 10 (min v 4000)
  else if off == 0x234 then max 2 (min v 32)
  else if off == 0x5040 && bits v 21 16 == 0 then v + 65536
  else v

/-- Watermarks R93 refuses. -/
def markBad (hi lo top : Nat) : Bool := hi == 0 || top < hi || top ≤ lo || hi ≤ lo

/-- Values the Chicory window refuses (R128, R140). -/
def chicoryBad (off v : Nat) (s : State) : Bool :=
  if off < 0x1100 then
    match off % 0x40 with
    | 0x04 =>
      let m := bits v 2 0
      let i := bits v 5 3
      let x := bits v 11 8
      3 < m || (if m ≤ 1 then 5 < i else if m == 2 then 2 < i else 3 < i) || (7 < x && x != 15) || bits v 31 16 == 0
    | 0x08 => bits v 23 16 == 0 || bits v 27 24 < 2
    | 0x0C => bits v 12 0 == 0 || 6000 < bits v 12 0
    | 0x14 => v < 500 || 1000000 < v
    | _ => false
  else if off == 0x1104 then bits v 1 0 == 3 || bits v 28 16 == 0 || 6000 < bits v 28 16
  else if 0x1200 ≤ off && off < 0x1300 then
    let b := off / 0x10 * 0x10
    let r (o : Nat) : Nat := if off == b + o then v else s.reg (b + o)
    phoBad (bits (r 0) 4 2) (r 4) (r 8) (bits (r 12) 23 0) (bit (r 0) 5)
  else if 0x1300 ≤ off && off < 0x13C0 then bits v 19 4 == 0
  else if 0x1400 ≤ off && off < 0x1480 then bits v 3 2 == 3 || 4 < bits v 14 12
  else false

/-- Values the port and fusing windows refuse (R172, R338). -/
def portBad (off v : Nat) : Bool :=
  if off < 0x2300 then
    off % 0x10 == 4 && (1 < bits v 1 0 || bits v 15 8 < 10 || 200 < bits v 15 8 || bits v 20 16 < 10 || 20 < bits v 20 16)
  else if off < 0x3000 then false
  else if off < 0x3C00 then
    match off % 0x40 with
    | 0x04 => bits v 6 0 < 2 || 70 < bits v 6 0 || bits v 14 8 == 0 || 100 < bits v 14 8 || bits v 22 16 < 40 ||
        120 < bits v 22 16 || bits v 27 24 == 0
    | 0x08 => bits v 9 0 == 0 || 600 < bits v 9 0
    | 0x18 => bits v 9 0 < 50 || 1000 < bits v 9 0
    | _ => false
  else if off == 0x3C08 then bits v 7 0 < 5 || 200 < bits v 7 0 || bits v 23 16 == 0 || 60 < bits v 23 16
  else off == 0x3C0C && bits v 1 0 == 3

/-- A value the register's range column refuses (R52, R93, R128, R140, R172, R338, R393, R425, R454, R478,
R506). -/
def State.valueBad (s : State) (off v : Nat) : Bool :=
  if off == 0x224 then markBad (bits v 8 0) (bits v 24 16) 256
  else if off == 0x22C then markBad (bits v 13 0) (bits v 29 16) 8192
  else if off == 0x30C then v == 6 || (s.variant = .svh16 && 2 ≤ v && v != 7)
  else if off == 0xC48 then 3600 < v
  else if 0xE10 ≤ off && off < 0xE30 then 5 < bits v 2 0 || bits v 31 16 == 65535 || !s.tmuxCode (bits v 2 0) (bits v 31 16)
  else if off < 0x1000 then false
  else if off < 0x2000 then chicoryBad off v s
  else if off < 0x4000 then portBad off v
  else if off < 0x5000 then off % 0x800 == 4 && 4 < bits v 10 8
  else if off == 0x5004 then bits v 15 0 == 0 || bits v 31 16 == 0
  else if off == 0x5008 then bits v 5 0 == 0 || 40 < bits v 5 0
  else if off < 0x6100 then false
  else match off % 0x10 with
  | 0x0 =>
    let t := bits v 3 2
    t != s.fld off 3 2 && (t == 0 || t == 3 || !domLists ((off - 0x6100) / 0x10) t)
  | 0x4 => v < 100 || 60000000 < v
  | _ => false

/-! ### `ENABLE` bits -/

/-- A write sets or clears an `ENABLE` bit: the block starts or stops, or the write of the bit is refused with
`VAL_ERR` (R118, R339, R371). Bits of no block with an effect of its own are stored. -/
def enableBit (c : Nat) (on : Bool) (s : State) : State :=
  let plain (s : State) : State := if on then s.setFlag c 0 else s.clrFlag c 0
  if 0x1000 ≤ c && c < 0x1100 then
    let k := (c - 0x1000) / 0x40
    if on then angOn k s else if s.inUse k then valErr c s else angOff k s
  else if c == 0x1100 then if on then wallOn s else wallOff s
  else if 0x1200 ≤ c && c < 0x1300 then
    let n := (c - 0x1200) / 0x10
    if on then phoOn n s else phoOff n s
  else if 0x2000 ≤ c && c < 0x2300 then
    let p := (c - 0x2000) / 0x10
    if on then portFrontOn p (plain s) else portFrontOff p (plain s)
  else if 0x3000 ≤ c && c < 0x3C00 then
    let p := (c - 0x3000) / 0x40
    if on then if s.curveOk p then fuseOn p s else valErr c s
    else if s.safetyPort p then valErr c s else fuseOff p s
  else if c == 0x4000 || c == 0x4800 then
    let n := (c - 0x4000) / 0x800
    if on then
      if (s.can n).running || (s.can n).st == 4 || !(s.canTiming n).ok (s.canFd n) then valErr c s else canStart n s
    else if (s.can n).st == 4 then valErr c s
    else canDisable n s
  else if c == 0x5000 then if on then plain s else rsEnd 3 (plain s)
  else if c == 0x6000 && on then
    (List.range 33).foldl (fun s d => s.setDom d { s.dom d with idleAt := s.tick }) (plain s)
  else if 0x6100 ≤ c && c < 0x6310 && on then
    let d := (c - 0x6100) / 0x10
    (plain s).setDom d { s.dom d with idleAt := s.tick }
  else plain s

/-- Bit 0 of this register is its block's `ENABLE`. -/
def hasEnable (v : Variant) (off : Nat) : Bool :=
  ctrlOf off == off && off != 0x2400 && ((fields v off).any fun f => f.lo == 0 && f.hi == 0 && f.acc == .rw)

/-! ### One register -/

/-- The RW bits of a register, and its W1C bits. -/
def rwMask (v : Variant) (off : Nat) : Nat :=
  ((fields v off).filter fun f => f.acc == .rw).foldl (fun m f => m ||| f.mask) 0
def w1cMask (v : Variant) (off : Nat) : Nat :=
  ((fields v off).filter fun f => f.acc == .w1c).foldl (fun m f => m ||| f.mask) 0

/-- Replace the bits of a mask in a number by those of another. -/
def blend (old new m : Nat) : Nat := (old - (old &&& m)) ||| (new &&& m)

/-- What the lock test and the CFG test leave of a new value (R36, R37, R40), and whether each objects. `locks`
is false where the lock test was made already, as a posted write arrived (R41). -/
def judgeFields (off old new : Nat) (locks : Bool) (s : State) : Nat × Bool × Bool :=
  let on := s.blockOn off
  (fields s.variant off).foldl (fun (x : Nat × Bool × Bool) f =>
    if f.acc != .rw || old &&& f.mask == x.1 &&& f.mask then x
    else if f.lk && locks && s.lockedField off f.lo then (blend x.1 old f.mask, true, x.2.2)
    else if f.cfg && on then (blend x.1 old f.mask, x.2.1, true)
    else x) (new, false, false)

/-- What follows the store of some registers: watermarks act at once (R88, R91), limits are tested against the
load (R334), a new alarm is armed (R478). -/
def afterStore (off : Nat) (s : State) : State :=
  if off == 0x224 then s.evqLevel
  else if off == 0x22C then s.rqLevel
  else if off == 0x3C10 || off == 0x3C14 then coverCheck s
  else if off == 0x6014 || off == 0x6018 then { s with power.alarmDone := false }
  else s

/-- One write to a register of plain storage, under the bits of `mask` (R34 to R40). A refused value leaves every
RW field as it stands. -/
def writePlain (off val mask : Nat) (locks : Bool) (s : State) : State :=
  let old := s.reg off
  let rw := rwMask s.variant off
  let x := judgeFields off old (blend old val (rw &&& mask)) locks s
  let cand := clampReg off x.1
  let bad := cand &&& rw != old &&& rw && s.valueBad off cand
  let new := if bad then old else cand
  let s := s.setReg off (old - (old &&& val &&& mask &&& w1cMask s.variant off))
  let en := hasEnable s.variant off
  let s := s.setReg off (blend (s.reg off) new (if en then rw - 1 else rw))
  let s := if en && bit new 0 != bit old 0 then enableBit off (bit new 0) s else s
  let s := if x.2.2 then cfgViol off s else s
  let s := if x.2.1 then lockViol off s else s
  let s := if bad then valErr off s else s
  if new == old then s else afterStore off s

/-! ### Registers with an effect of their own -/

/-- Lock bits are set for good (R40, R51). -/
def setLocks (off val : Nat) (s : State) : State :=
  let w (m : Nat) : Word := BitVec.ofNat 32 (val % m)
  if off == 0x300 then { s with hrs.lock0 := s.hrs.lock0 ||| w 1024 }
  else if off == 0x304 then { s with hrs.portLo := s.hrs.portLo ||| w 4294967296 }
  else if s.variant = .svh48 then { s with hrs.portHi := s.hrs.portHi ||| w 65536 }
  else s

/-- A write to a window (R63, R65). -/
def writeWin (off val : Nat) (s : State) : State :=
  let n := (off - 0x400) / 0x100
  let m := s.mb n
  if m.state == .posted then s.setFlag 0x110 11
  else s.setMb n { m with win := putWin m.win (off % 0x100) (le 4 val) }

/-- Threshold, class or window of the selected source (R432, R454). -/
def writeSrcCfg (c : Nat × Nat × Nat) (s : State) : State :=
  let n := s.fld 0xC04 6 0
  if c == s.srcCfg n then s
  else if s.hrs.lock0.getLsbD 6 then lockViol 0xC08 s
  else if srcFixed n || c.1 == 0 || !classFits n c.2.1 || c.2.2 == 0 || 86400000 < c.2.2 then valErr 0xC08 s
  else setSrcCfg n c s

/-- `CAMP_CLEAR` (R434, R454): refused for a source in `CAUSE_PRESENT`. -/
def writeClear (s : State) : State :=
  let n := s.fld 0xC04 6 0
  if (s.src n).st == 3 then valErr 0xC18 s else clearSrc n s

/-- `CAMP_FORCE` (R428, R511). -/
def writeForce (pat : Nat) (s : State) : State :=
  let n := s.fld 0xC04 6 0
  if !s.cci.expert.contains 0x0A || (s.safetyValid && srcFixed n) then valErr 0xC1C s else forceSrc n pat s

/-- `TMUX_CTRL` (R503): flags cleared by 1, `UNLOCK` set under `LK_TMUX`. -/
def writeTmuxCtrl (val : Nat) (s : State) : State :=
  let s := s.setReg 0xE00 (s.reg 0xE00 - (s.reg 0xE00 &&& val &&& 0x600))
  if !bit val 11 || s.flag 0xE00 11 then s
  else if s.hrs.lock0.getLsbD 7 then lockViol 0xE00 s
  else s.setFlag 0xE00 11

/-- `PD_PADHOLD.REL` (R467): refused while the domain is not ON, without effect in the safe state (R524). -/
def releasePads (val : Nat) (s : State) : State :=
  if s.warden.safe then s
  else [0, 1].foldl (fun s g =>
    if !bit val (8 + g) then s
    else if (s.dom (3 + g)).st != 0 then valErr 0x6010 s
    else padHold (3 + g) false s) s

/-- `RGN_CFG` (R415, R418, R425). -/
def writeRegion (r mode retain : Nat) (s : State) : State :=
  if mode == s.rgnMode r && retain == s.rgnRetain r then s
  else match s.regionBar r mode retain with
  | some _ => valErr 0x5000 s
  | none => setRegionMode r mode retain s

/-- A keeper write takes effect (R476, R479). -/
def writeKeeper (off val : Nat) (s : State) : State :=
  let k := s.keeper
  match off with
  | 0xD00 => if bit val 10 then { s with keeper.valErr := false } else s
  | 0xD10 => if bit val 16 then { s with keeper := { k with ltnCount := 0, ltnWall := 0 } } else s
  | 0xD20 => if bit val 1 then { s with keeper.retLow := false } else s
  | 0xD24 =>
    if (List.range 4).any fun i => bits val (5 + 2 * i) (4 + 2 * i) == 3 then { s with keeper.valErr := true }
    else { s with keeper.wakeCfg := val % 4096 }
  | 0xD28 => { s with keeper.wakeSeen := k.wakeSeen - (k.wakeSeen &&& val) }
  | _ => s

/-- Apply one write, its address open to it. -/
def applyWrite (off val mask : Nat) (s : State) : State :=
  let v := val &&& mask
  if off == 0x104 then ring (v % 256) s
  else if off == 0x108 then doneWrite (v % 256) s
  else if off == 0x10C then
    abortWrite (v % 256) (s.setReg 0x10C (s.reg 0x10C - (s.reg 0x10C &&& v &&& 0xFF00)))
  else if 0x300 ≤ off && off < 0x30C then setLocks off v s
  else if 0x400 ≤ off && off < 0xC00 then writeWin off val s
  else if off == 0xC08 then writeSrcCfg (val % 256, bits val 10 8, (s.srcCfg (s.fld 0xC04 6 0)).2.2) s
  else if off == 0xC0C then
    let c := s.srcCfg (s.fld 0xC04 6 0)
    writeSrcCfg (c.1, c.2.1, val % 2 ^ 27) s
  else if off == 0xC18 then if bit val 0 then writeClear s else s
  else if off == 0xC1C then writeForce (val % 4) s
  else if off == 0xE00 then writeTmuxCtrl val s
  else if off == 0x6010 then releasePads val s
  else if 0x5100 ≤ off && off < 0x5240 then
    if off % 0x10 == 0 then writeRegion ((off - 0x5100) / 0x10) (val % 2) (bits val 1 1) s else s
  else writePlain off val mask true s

/-! ### The paths to a register -/

/-- A write to a closed window, or to the test multiplexer while it is closed or disabled (R50, R503, R505). -/
def gateRefusal (off : Nat) (s : State) : Option State :=
  if 0x1000 ≤ off && off < 0x7000 then
    let w := off / 0x1000 - 1
    if s.windowOpen w then none else some (s.setFlag 0x20 (16 + w))
  else if 0xE00 ≤ off && off < 0xF00 && (!s.cci.expert.contains 0x0E || s.boot.otpTmuxOff) then some (s.setFlag 0xE00 10)
  else none

/-- The posted domain of a register (R38): 0 keeper, 1 and 2 the port dies. -/
def postedDom (off : Nat) : Option Nat :=
  if 0xD00 ≤ off && off < 0xE00 then some 0 else (dieport off).map postDom

/-- A posted write is accepted, or dropped where its domain was busy as the frame began (R38, R39). Fields under
a lock are judged as the write arrives (R40, R41). -/
def acceptPosted (d off val : Nat) (busy : List Nat) (s : State) : State :=
  if busy.contains d then faultPulse 87 (s.setFlag 0x18 (8 + d))
  else
    let old := s.reg off
    let lk := ((fields s.variant off).filter fun f => f.acc == .rw && f.lk && s.lockedField off f.lo &&
      old &&& f.mask != val &&& f.mask).foldl (fun m f => m ||| f.mask) 0
    let s := if lk == 0 then s else lockViol off s
    postWrite d off (blend val old lk) s

/-- Bits no field covers: RSV-L. -/
def rsvMask (v : Variant) (off : Nat) : Nat :=
  4294967295 - (fields v off).foldl (fun m f => m ||| f.mask) 0

/-- One word of a host write; `busy` are the posted domains that were busy as its frame began. -/
def writeWord (busy : List Nat) (off val : Nat) (s : State) : Option State :=
  if 0x7000 ≤ off then some s
  else match gateRefusal off s with
  | some t => some t
  | none =>
    if s.absentReg off then some s
    else if s.dieOff off then some (s.setFlag 0x6000 11)
    else if val &&& rsvMask s.variant off != 0 then none
    else match postedDom off with
    | some d => some (acceptPosted d off val busy s)
    | none => some (applyWrite off val 4294967295 s)

/-- A write in the bit region (R46, R47, R69): bit 0 goes to one bit under its access type. -/
def writeBit (off val : Nat) (s : State) : State :=
  let (r, n) := mirrorBit off
  if noMirror r || bit (rsvMask s.variant r) n then s
  else applyWrite r (val % 2 * 2 ^ n) (2 ^ n) s

/-- The words of one frame or transfer, applied in address order (R32, R39). -/
def writeWords (busy : List Nat) : Nat → List Nat → State → Option State
  | _, [], s => some s
  | off, v :: l, s =>
    match if 0x8000 ≤ off then some (writeBit off v s)
      else if 0x1C0 ≤ off && off < 0x200 then some s
      else writeWord busy off v s with
    | some t => writeWords busy (off + 4) l t
    | none => none

/-- A frame's bytes as words. -/
def wordsOf : Nat → List Byte → List Nat
  | 0, _ => []
  | n + 1, l => u32 l 0 :: wordsOf n (l.drop 4)

/-- One frame or transfer of writes. Sixteen words at `CCI_DATAIN` are a data unit; any other write there is not
one (R81, R83). -/
def writeFrame (off : Nat) (data : List Byte) (s : State) : Option State :=
  let n := data.length / 4
  let busy := (s.hrs.posted.map (·.dom)).eraseDups
  match writeWords busy off (wordsOf n data) s with
  | none => none
  | some t =>
    if off == 0x1C0 && n == 16 then some (takeUnit data t)
    else if off < 0x200 && 0x1C0 < off + 4 * n then some (t.setFlag 0x110 14)
    else some t

/-- The outcome of a write: R43 leaves what follows a changed reserved live field unspecified. -/
def wrote (t : Option State) : Out :=
  match t with
  | some t => .next t
  | none => .fault .reservedLiveWrite

/-- A write of one word by the host. -/
def hostWrite (off val : Nat) (s : State) : Out :=
  if s.hostWrites && aligned off then wrote (writeFrame off (le 4 val) s) else .next s

/-! ### Rows -/

/-- R36. A host write to a register. -/
def execRegisterWrite (off : BitVec 16) (val : Word) (s : State) : Out := hostWrite off.toNat val.toNat s

/-- R41. A write to a lock register. -/
def execLockBitSet (off : BitVec 16) (val : Word) (s : State) : Out := hostWrite off.toNat val.toNat s

/-- R46. A write in the bit region. -/
def execBitAliasWrite (off : BitVec 16) (val : Word) (s : State) : Out :=
  if 0x8000 ≤ off.toNat then hostWrite off.toNat val.toNat s else .next s

/-- R504. A write to `TMUX_SELn`. -/
def execTmuxSelWrite (off : BitVec 16) (val : Word) (s : State) : Out := hostWrite off.toNat val.toNat s

/-- R476. `LTN_CLR` is written. -/
def execLtnClr (s : State) : Out := hostWrite 0xD10 0x10000 s

/-- R467. A write to `PD_PADHOLD`. -/
def execPadHoldRelease (val : Word) (s : State) : Out := hostWrite 0x6010 val.toNat s

/-- R434. `CAMP_CLEAR` is written. -/
def execCampClear (s : State) : Out := hostWrite 0xC18 1 s

/-- R428. A write to `CAMP_FORCE`. -/
def execCampForce (pat : BitVec 2) (s : State) : Out := hostWrite 0xC1C pat.toNat s

/-- R38. The oldest posted write of a domain completes. -/
def execPostedWriteComplete (dom : Fin 3) (s : State) : Out :=
  match s.hrs.posted.find? fun p => p.dom == dom.val with
  | none => .next s
  | some p =>
    let s := { s with hrs.posted := s.hrs.posted.erase p }
    .next (if dom.val == 0 then writeKeeper p.off p.val.toNat s else writePlain p.off p.val.toNat 4294967295 false s)

/-- R55, R56. `REG_WRITE`: nothing is applied before its data stage is complete. -/
def execRegWrite (off : BitVec 16) (len : Nat) (data : List Byte) (s : State) : Out :=
  if !s.hostOn || !s.usbHost then .next s
  else if rangeBad off.toNat len then .next (pipeAnswer true s)
  else if !s.hostWrites || data.length != len then .next s
  else wrote ((writeFrame off.toNat data s).map (pipeAnswer false))

/-- What is wrong with a write frame, as status bits (R60, R61, R62): the range, a CRC byte that has not come, or
one that does not match. -/
def writeFault (b : List Byte) : Nat :=
  let n := 4 * spiCount b
  4 * b2n (rangeBad (spiOff b) n) +
    (if b.length < 5 + n then 32 else 2 * b2n (crc8 (b.take (4 + n)) != u8 b (4 + n)))

/-- The status a frame without effect leaves (R61, R62); a status frame leaves what it was. -/
def refusedStatus (b : List Byte) : Nat :=
  if !b.isEmpty && u8 b 0 == 5 then 0
  else if b.length < 4 || !(u8 b 0 == 2 || u8 b 0 == 3) then 16
  else if rangeBad (spiOff b) (4 * spiCount b) then (if u8 b 0 == 2 then writeFault b else 4)
  else 0

/-- R60. A write frame: applied as the chip select rises, only when complete and with a matching CRC. DESIGN CHOICE
(log 55): bytes after the CRC byte are ignored. -/
def execSpiWriteFrame (bytes : List Byte) (s : State) : Out :=
  if !s.spiOn || bytes.length < 4 || u8 bytes 0 != 2 then .next s
  else if writeFault bytes != 0 then .next (spiStatus (writeFault bytes) s)
  else if !s.hostWrites then .next (spiStatus 0 s)
  else wrote ((writeFrame (spiOff bytes) (slice bytes 4 (4 * spiCount bytes)) s).map (spiStatus 1))

/-- R61. A frame that is not applied. -/
def execSpiFrameRefused (bytes : List Byte) (s : State) : Out :=
  let n := refusedStatus bytes
  if !s.spiOn || n == 0 then .next s else .next (spiStatus n s)

end Sys2Proof.Machine
end

