-- ==== Sys2Proof/Machine/Profile.lean ====
section
/-!
DEFINITION. The application of the station profile's entries at a start (R489 to R491): each entry as the command
it carries, at expert level and outside any mailbox, or as one of the profile-only items, and the lock bits that
follow.
-/

namespace Sys2Proof.Machine

/-- The decision of a catalogue command by its opcode, the `sys.*` group apart. -/
def coreOf (op : Nat) : Option (Req → State → CmdRes) :=
  match op with
  | 0x0101 => some coreAngConfig
  | 0x0102 => some coreAngEnable
  | 0x0103 => some coreAngStatus
  | 0x0111 => some coreTimeSet
  | 0x0112 => some coreTimeAdjust
  | 0x0113 => some coreTimeDisc
  | 0x0121 => some corePhaseSet
  | 0x0122 => some corePhasePsync
  | 0x0123 => some corePhaseCapture
  | 0x0124 => some corePhaseLink
  | 0x0201 => some corePortMode
  | 0x0202 => some corePortReset
  | 0x0203 => some corePortSuspend
  | 0x0204 => some corePortResume
  | 0x0205 => some corePortStatus
  | 0x0206 => some corePortCfg
  | 0x0301 => some coreDevList
  | 0x0302 => some coreDevInfo
  | 0x0303 => some coreDevPolicy
  | 0x0401 => some coreChanOpen
  | 0x0402 => some coreChanClose
  | 0x0403 => some coreChanPause
  | 0x0404 => some (coreChanResume true)
  | 0x0405 => some coreChanStopGroup
  | 0x0406 => some coreChanStartGroup
  | 0x0407 => some coreChanCtrl
  | 0x0408 => some coreChanWrite
  | 0x0409 => some coreChanInfo
  | 0x040A => some coreChanLatest
  | 0x040B => some coreChanHistory
  | 0x0410 => some coreChanAck
  | 0x0411 => some coreChanRewind
  | 0x0501 => some coreSchedBegin
  | 0x0502 => some coreSchedAdd
  | 0x0503 => some coreSchedChange
  | 0x0504 => some coreSchedCommit
  | 0x0505 => some coreSchedCancel
  | 0x0506 => some coreSchedReport
  | 0x0601 => some corePwrOn
  | 0x0602 => some corePwrOff
  | 0x0603 => some corePwrClear
  | 0x0604 => some corePwrCurve
  | 0x0605 => some corePwrRails
  | 0x0606 => some corePwrPriority
  | 0x0607 => some corePwrStagger
  | 0x0608 => some corePwrStatus
  | 0x0701 => some corePdStatus
  | 0x0702 => some corePdCaps
  | 0x0703 => some corePdHardreset
  | 0x0704 => some corePdSwap
  | 0x0705 => some corePdFrs
  | 0x0706 => some corePdMoist
  | 0x0707 => some corePdAltmode
  | 0x0801 => some coreCanConfig
  | 0x0802 => some coreCanEnable
  | 0x0803 => some coreCanFilter
  | 0x0804 => some coreCanTx
  | 0x0805 => some coreCanTxabort
  | 0x0806 => some coreCanRecover
  | 0x0807 => some coreCanAutobaud
  | 0x0808 => some coreCanStatus
  | 0x0901 => some coreIntegStatus
  | 0x0902 => some coreIntegRegion
  | 0x0903 => some coreIntegRestrength
  | 0x0904 => some coreIntegScrub
  | 0x0905 => some coreIntegLog
  | 0x0906 => some coreIntegRotate
  | 0x0907 => some coreIntegInject
  | 0x0A01 => some coreFaultStatus
  | 0x0A02 => some coreFaultConfig
  | 0x0A03 => some coreFaultClear
  | 0x0A04 => some coreFaultForce
  | 0x0A11 => some coreWardenArm
  | 0x0A12 => some coreWardenEnter
  | 0x0A13 => some coreWardenLeave
  | 0x0A14 => some coreWardenStatus
  | 0x0B01 => some coreDomList
  | 0x0B02 => some coreDomEvent
  | 0x0B03 => some coreDomForget
  | 0x0B10 => some coreDomPstate
  | 0x0B11 => some coreDomPcfg
  | 0x0B12 => some coreDomStatus
  | 0x0B13 => some coreDomKeeper
  | 0x0C01 => some coreFwInfo
  | 0x0C02 => some coreFwBegin
  | 0x0C03 => some coreFwWrite
  | 0x0C04 => some coreFwVerify
  | 0x0C05 => some coreFwActivate
  | 0x0C06 => some coreFwCancel
  | 0x0C11 => some coreProfRead
  | 0x0C12 => some coreProfWrite
  | 0x0D01 => some coreLinkStatus
  | 0x0D02 => some coreLinkBudget
  | 0x0D03 => some coreLinkDetach
  | 0x0E01 => some coreTestTmux
  | 0x0E02 => some coreTestBist
  | 0x0E03 => some coreTestLoop
  | 0x0E04 => some coreTestResult
  | _ => none

/-- The request of an entry (R489): outside any mailbox, at expert level; a script follows the parameters of
`warden.arm`. -/
def ProfEntry.req (e : ProfEntry) : Req :=
  if e.op == 0x0A11 then
    { mb := 8, target := e.target, params := e.params.take 4, data := e.params.drop 4, hasData := true,
      expert := true, cseq := 0 }
  else
    { mb := 8, target := e.target, params := e.params, data := [], hasData := false, expert := true, cseq := 0 }

/-- The state of a next outcome. -/
def nextState : Out → Option State
  | .next t => some t
  | _ => none

/-- Apply an outcome-valued operation a number of times. -/
def repeatOut (f : State → Out) : Nat → State → State
  | 0, s => s
  | n + 1, s =>
    match f s with
    | .next t => repeatOut f n t
    | _ => s

/-- Posted writes that wait complete, oldest first (R38). -/
def settleWrites (s : State) : State :=
  [0, 1, 2].foldl (fun s d => repeatOut (execPostedWriteComplete (Fin.ofNat 3 d)) s.hrs.posted.length s) s

/-- The completion an entry's command waits for, where the start itself brings it (R490); none where it does
not come within the command's bound. -/
def bootWait (w : Wait) (s : State) : Option State :=
  match w with
  | .rotate => nextState (execRotationCopyDone s)
  | .domain d t =>
    let s := repeatOut (if t == 0 then execWakeComplete (Fin.ofNat 33 d) else execDomainEntry (Fin.ofNat 33 d)) 5 s
    if (s.dom d).st == t then some s else none
  | _ => none

/-- What a decision outside any mailbox comes to: the status it is refused with, if it is, and the state. An entry
that has not completed within its bound counts as refused; its status word is then a free value (R490, R491). -/
def carryOut (c : CmdRes) (s : State) : Option Nat × State :=
  match c with
  | .refuse st _ => (some st.code, s)
  | .noted st _ t => (some st.code, t)
  | .query _ => (none, s)
  | .session _ t => (none, settleWrites t)
  | .commit _ t => (none, settleWrites { t with journal.logged := t.journal.logged + 1 })
  | .commitWith st _ t => (if st == .ok then none else some st.code, settleWrites t)
  | .commitWait w t =>
    match bootWait w { t with journal.logged := t.journal.logged + 1 } with
    | some t => (none, settleWrites t)
    | none => (some (s.free.toNat % 256), s.drawn)

/-- An entry whose opcode is a command's (R489): the shape tests of R286, then the command's own. -/
def applyCommand (e : ProfEntry) (s : State) : Option Nat × State :=
  match opInfo e.op, coreOf e.op with
  | some i, some core =>
    let r := e.req
    if tChip e.target != s.domain.chipNum || 240 < r.params.length || shapeBad s i r ||
        (i.zero.any fun z => !allZero r.params z.1 z.2) then (some 2, s)
    else carryOut (core r s) s
  | _, _ => (some 2, s)

/-- Entry 0xF001: both fields of the safety set are written and it is armed (R52, R53, R489). -/
def applySafetySet (e : ProfEntry) (s : State) : Option Nat × State :=
  let g := u8 e.params 0
  if e.params.length < 2 || 7 < g || (g != 7 && s.nGroups ≤ g) then (some 2, s)
  else (none, ((s.setReg 0x30C g).setReg 0x310 (u8 e.params 1)).setFlag 0x314 0)

/-- Entry 0xF005: each port takes the mode of its bit, as `port.mode` sets it (R150, R489). -/
def applyModes (e : ProfEntry) (s : State) : Option Nat × State :=
  if e.params.length < 6 then (some 2, s)
  else
    (List.range s.nPorts).foldl (fun (x : Option Nat × State) p =>
      let want := bit (u48 e.params 0) p
      if (x.2.port p).usb.transparent == want ||
          (x.2.boot.rescue.isSome && (x.2.portDoms p).any fun d => (x.2.dom d).st != 0) then x
      else
        let r : Req := { mb := 8, target := s.domain.chipNum * 2 ^ 26 + 2 * 2 ^ 22 + p,
                         params := [byte (b2n want), 0, 0, 0], data := [], hasData := false, expert := true, cseq := 0 }
        let y := carryOut (corePortMode r x.2) x.2
        (x.1.orElse fun _ => y.1, y.2)) (none, s)

/-- One entry: none where it applied, else the low byte of the status word that refuses it (R489 to R491). -/
def applyEntry (e : ProfEntry) (s : State) : Option Nat × State :=
  let n := e.params.length
  if e.op == 0xF001 then applySafetySet e s
  else if e.op == 0xF002 then
    (if n < 9 || u8 e.params 8 == 0 || 63 < u8 e.params 8 then some 2 else none, s)
  else if e.op == 0xF003 then (if n < 4 then some 2 else none, s)
  else if e.op == 0xF004 then
    (if n < 12 || u8 e.params 11 == 0 || 8 < u8 e.params 11 then some 2 else none, s)
  else if e.op == 0xF005 then applyModes e s
  else if e.op == 0xF006 then
    let v := (u8 e.params 0 + 256 * u8 e.params 1) &&& 0x77F
    if n < 2 then (some 2, s) else (none, s.setReg 0x6004 v)
  else if e.op == 0xF007 then
    if n < 1 || 1 < u8 e.params 0 then (some 2, s)
    else (none, s.setFld 0x2400 0 0 (u8 e.params 0))
  else applyCommand e s

/-- The entries Yarrow applies at step 2 of R486 (R490). -/
def ProfEntry.yarrows (e : ProfEntry) : Bool :=
  e.op == 0xF001 || e.op == 0x0A11 || e.op == 0x0A02 || e.op == 0xF006 ||
    ((e.op == 0x0801 || e.op == 0x0802 || e.op == 0x0803) && tScope e.target == 4 && tIndex e.target == 0)

/-- The entry's domains are absent in a rescue start: it is skipped without a word (R499). -/
def ProfEntry.absent (e : ProfEntry) (s : State) : Bool :=
  s.boot.rescue.isSome && (s.needDoms e.op e.req).any fun d => (s.dom d).st != 0

/-- The entry names TRANSPARENT for a hub with an SPI host (R16). -/
def ProfEntry.namesTransparent (e : ProfEntry) (s : State) : Bool :=
  !s.usbHost && ((e.op == 0x0201 && u8 e.params 0 == 1) || (e.op == 0xF005 && !(bitList s.nPorts (u48 e.params 0)).isEmpty))

/-- Such an entry as it is read (R16): CONCENTRATED for every port it names. -/
def ProfEntry.concentrated (e : ProfEntry) : ProfEntry :=
  { e with params := if e.op == 0x0201 then e.params.set 0 0 else zeros 6 ++ e.params.drop 6 }

/-- An entry under R16: its reading, and the warning, whose reason is the status its command would return. -/
def readEntry (e : ProfEntry) (s : State) : ProfEntry × State :=
  if e.namesTransparent s then
    (e.concentrated, raiseEvent 108 1 (le 2 e.idx ++ [byte Status.notPermitted.code]) s)
  else (e, s)

/-- Entries in profile order (R490, R491): those that applied are collected, a refused one posts EV108. Nothing more
applies once the safe state holds every core. -/
def applyEntries (l : List ProfEntry) (s : State) : List ProfEntry × State :=
  l.foldl (fun (x : List ProfEntry × State) e =>
    if x.2.warden.safe || e.absent x.2 then x
    else
      let z := readEntry e x.2
      let y := applyEntry z.1 z.2
      match y.1 with
      | none => (x.1 ++ [e], y.2)
      | some c => (x.1, raiseEvent 108 1 (le 2 e.idx ++ [byte c]) y.2)) ([], s)

/-- The `HRS_LOCK0` bits an applied entry sets (R490): those of its item with `LOCK`, those of its mask for
0xF003. -/
def ProfEntry.lockMask (e : ProfEntry) : Nat :=
  if e.op == 0xF003 then u32 e.params 0 % 1024
  else if !e.lock then 0
  else if e.op == 0xF001 then 1
  else if e.op == 0x0A11 then 2
  else if e.op == 0x0604 then 4
  else if e.op == 0x0605 || e.op == 0x0606 then 8
  else if e.op == 0xF007 then 16
  else if 0x0801 ≤ e.op && e.op ≤ 0x0808 && tIndex e.target == 0 then 32
  else if e.op == 0x0A02 then 64
  else 0

/-- The ports whose mode an applied entry locks (R490); a bitmap names the ports whose bits are 1. -/
def ProfEntry.lockPorts (ports : Nat) (e : ProfEntry) : List Nat :=
  if !e.lock then []
  else if e.op == 0x0201 then [tIndex e.target]
  else if e.op == 0xF005 then bitList ports (u48 e.params 0)
  else []

/-- The lock bits of the entries applied are set (R490). -/
def lockEntries (l : List ProfEntry) (s : State) : State :=
  let m := l.foldl (fun m e => m ||| e.lockMask) 0
  let p := maskOf (l.map (ProfEntry.lockPorts s.nPorts)).flatten
  setLocks 0x308 (p / 4294967296) (setLocks 0x304 (p % 4294967296) (setLocks 0x300 m s))

end Sys2Proof.Machine
end

