-- ==== Sys2Proof/Machine/Start.lean ====
section
/-!
DEFINITION. Resets and starts (chapter 16): what each kind of reset clears and keeps (R483, R485), the boot
sequence (R486 to R488), trial, revert and activation of images (R494 to R497), loader mode (R498), rescue starts
(R499, R500), and the loss of supply (R481).
-/

namespace Sys2Proof.Machine

/-! ### What a reset keeps -/

/-- A port after a start that resets the port dies (R483): off. A hold lives in the state area (R488). -/
def portCleared (hold : Bool) (x : PortSt) : PortSt := { pw := { held := hold && x.pw.held } }

/-- A port over a chip reset (R483, R485): one that was `POWERED` or later, or whose ramp runs, keeps its power and
contract and starts from `POWERED`; cool-down timers and latches stay; the ladder returns to 0 (R321). -/
def portOverReset (hold : Bool) (x : PortSt) : PortSt :=
  let w := { x.pw with waiting := none, booked := none, shed := false, railLost := 0, groupOff := false, ladder := 0,
                       replugs := 0, held := hold && x.pw.held }
  let d := { x.pd with offerHi := true, maxMa := 3000, frsArm := false, threshold := 200, interval := 30,
                       profileMode := 0, check := false, swapping := false, entering := 0 }
  let st := x.usb.st
  if 6 ≤ st || (st == 5 && w.path != 0) then { usb := { st := min st 6, ccAtt := true }, pw := w, pd := d }
  else
    let gone : PortPower := { latch := w.latch, safeLatch := w.safeLatch, coolUntil := w.coolUntil, held := w.held
                              voMv := w.voMv }
    let stays := 2 ≤ st && st ≤ 4
    { usb := { st := if stays then st else 0, ccAtt := stays && x.usb.ccAtt }, pw := gone }

/-- The ports of a table, each through a function. -/
def mapPorts (f : PortSt → PortSt) (n : Nat) (s : State) : Tbl PortSt :=
  (List.range n).foldl (fun t p => Tbl.setD {} t p (f (s.port p))) []

/-- The keeper at a start (R473): as it was, or, where its check fails, all 0 but for the epoch and the wall time,
which come from NOR. -/
def keeperStart (kept : Bool) (s : State) : Keeper :=
  if kept then { s.keeper with chkOk := true }
  else
    { epoch := s.boot.norEpoch, wallNs := s.boot.norWall, chkOk := false, vbakLow := s.keeper.vbakLow,
      rtc := 2 ^ 48 - s.tick * 32768 / 100000000 % 2 ^ 48 }

/-- The wall clock at a start (R474): the stored time plus the RTC periods since, or the time of NOR. After a cold
start it is not `VALID` (R122). -/
def wallStart (kept warm : Bool) (s : State) : Wall :=
  if kept then
    let periods := (s.rtcNow + 2 ^ 48 - s.keeper.wallRtc % 2 ^ 48) % 2 ^ 48
    { ns := (s.keeper.wallNs + periods * 1953125 / 64) % 2 ^ 64, valid := s.keeper.wallValid && warm }
  else { ns := s.boot.norWall }

/-- The bank the retirement list names, which stays in `B16` at every start (R414). -/
def Boot.listedBank (b : Boot) : Option Nat := (b.retireList.find? fun e => e.1 == 0x100).map (·.2)

/-- Pages of a region the retirement list names. -/
def Boot.listed (b : Boot) (r : Nat) : Nat := (b.retireList.filter fun e => e.1 == r).length

/-- Teasel at a start (R414, R420): a warm one keeps external memory with its tags, retirements and `MIXED` states,
and the bank in `B16`; every other region begins at its defaults; what the retirement list names stays out. -/
def integStart (warm journalKept : Bool) (s : State) : Integ :=
  let i := (rsEnd 1 s).integ
  let bank := match s.boot.listedBank with
    | some b => b
    | none => if journalKept then s.keeper.b16Bank else 0x1F
  let base : Integ := {
    rotPhase := if bank == 0x1F then 0 else 2, rotBank := bank
    rotRetired := s.boot.listedBank.isSome || (journalKept && s.keeper.b16Retired) }
  if warm then
    { base with
      regions := (i.regions.filter fun e => isExt e.1).map fun e => (e.1, { e.2 with corr := 0, ue := 0 })
      notes := i.notes.filter fun n => isExt n.region || n.region == 0x0E
      spareUsed := i.spareUsed, spareLow := i.spareLow, toNor := i.toNor }
  else
    { base with
      regions := [0x10, 0x11, 0x12].foldl (fun t r => Tbl.setD {} t r { retired := s.boot.listed r }) []
      spareUsed := s.boot.listed 0x10 + s.boot.listed 0x11 + s.boot.listed 0x12 }

/-- The devices at a start (R488): a warm one keeps the table, each entry to be enumerated again; an entry that was
`GONE` is freed, since its channels are closed. -/
def devicesStart (warm : Bool) (s : State) : Tbl Device :=
  if warm then
    (s.devices.filter fun e => e.2.used && !e.2.gone).map fun e => (e.1, { e.2 with restored := true, child := none })
  else []

/-- Local IDs free at a start (R180): none used since the reset, the lowest first. -/
def freeIds (devs : Tbl Device) : List Nat := (List.range 256).filter fun n => !(devs.any fun e => e.1 == n)

/-- The latched ports' sources stand at fault (R426) from the start on. -/
def latchInputs (n : Nat) (ports : Tbl PortSt) : Tbl FaultSrc :=
  (List.range n).foldl (fun t p =>
    let x : PortSt := Tbl.getD {} ports p
    if (x.usb.st == 3 || x.usb.st == 4) && !x.pw.safeLatch then Tbl.setD {} t p { pair := 2 } else t) []

/-- Domains this part does not have are OFF as long as it is powered (R3, R10), and so is an empty `B16` (R457). -/
def domsStart (v : Variant) (b16 : Bool) : Tbl Domain :=
  (List.range 33).foldl (fun t d =>
    if !domainExists v d || (d == 0x20 && !b16) then Tbl.setD {} t d { st := 2 } else t) []

/-- Group engines this part does not have stay in reset (R10). -/
def groupsStart (v : Variant) : Tbl Group :=
  if v = .svh48 then [] else [2, 3, 4, 5].map fun g => (g, { engine := 2 })

/-- What a chip-level start leaves (R483): everything is cleared but the queue of commands, time, NOR and OTP, the
keeper, what the state area keeps, and over a chip reset the port dies. `full` is a power-on or pin reset. The
closing summary of an epoch that was running is built here (R280). DESIGN CHOICE (log 55): `HRS_RSTCAUSE.LIGHTNING`
is latched here from the keeper's count, so a strike during the run or `LTN_CLR` does not change it. -/
def chipCleared (cause : Nat) (full keeperKept journalKept : Bool) (s : State) : State :=
  let jk := journalKept && !s.keeper.retLow
  let warm := keeperKept && jk
  let k := keeperStart keeperKept s
  let i := integStart warm jk { s with keeper := k }
  let k := { k with b16Bank := i.rotBank, b16Retired := i.rotRetired, wakeOff := k.wakeOff
                    holdTimes := if full then [] else k.holdTimes }
  let devs := devicesStart warm s
  let ports := mapPorts (if full then portCleared warm else portOverReset warm) s.nPorts s
  let closing := if s.boot.up then
      closingSummary 1 s.cci.cseqHi (min s.undelivered 65535) (b2n s.keeper.sealValid) 1 false s
    else s.cci.closing
  { pending := s.pending, tick := s.tick, freeCtr := s.freeCtr, variant := s.variant, straps := s.straps
    hrs := { cause := cause, cold := !warm, pfwSeen := keeperKept && k.sealValid, lightning := k.ltnCount != 0 }
    cci := { closing := closing }
    campion := { srcs := latchInputs s.nPorts ports }
    power := { doms := domsStart s.variant (i.rotPhase == 2) }
    groups := groupsStart s.variant
    keeper := k
    boot := { s.boot with loader := false, rescue := none, up := false, resetReq := none, dark := false
                          trial := false, keeperKept := keeperKept, journalKept := jk }
    chicory := { wall := wallStart keeperKept warm { s with keeper := k } }
    ports := ports
    clover := { feeds := s.clover.feeds, rails := s.clover.rails.map fun e => (e.1, { e.2 with removed := false })
                carrying := s.clover.carrying, overV := s.clover.overV
                gmgOn := if full then [] else s.clover.gmgOn }
    rescue := if full then {} else s.rescue
    devices := devs
    sched := { freedIds := freeIds devs, usedIds := 256 }
    integ := i }

/-- A chip-level start up to the release of the reset (R483). A change of strength under way ends (R418). -/
def chipStart (cause : Nat) (full keeperKept journalKept : Bool) (s : State) : State :=
  let t := chipCleared cause full keeperKept journalKept s
  if s.integ.rsActive then
    raiseEvent 68 3 ([byte s.integ.rsRegion, 1, 0, 0] ++ le 4 s.integ.rsDone) t
  else t

/-! ### Resets -/

/-- R482, R483. `VDD18` or `VCORE` rises into range: the straps are sampled as `RESET_N` rises. Whether keeper and
journal held their supplies is told by their own checks. -/
def execPowerOnReset (straps : Straps) (keeperKept journalKept : Bool) (s : State) : Out :=
  .next (chipStart 0 true keeperKept journalKept { s with straps := straps })

/-- A chip reset has begun: its request, or its seal, stands at or before the present tick (R484). -/
def State.resetUnderWay (s : State) : Bool :=
  match s.boot.resetReq with
  | some (_, t) => t ≤ s.tick
  | none => false

/-- R482 to R484. `RESET_N` is low for 10 µs and rises: it also takes over a chip reset under way, whose cause is
then `PIN`. Out of the safe state the cause is that of its end (R49). -/
def execPinReset (straps : Straps) (s : State) : Out :=
  if s.boot.dark then .next s
  else
    .next (chipStart (if s.warden.safe && !s.resetUnderWay then 3 else 1) true true true { s with straps := straps })

/-- All supplies but `VBAK` are gone (R481): the keeper, NOR and what the journal's supply retains are left. -/
def loseSupply (s : State) : State :=
  let t := chipStart s.hrs.cause true true true s
  { t with boot := { t.boot with dark := true }, integ := s.integ }

/-- R480, R481. The supplies leave their range. -/
def execSupplyLoss (s : State) : Out := if s.boot.dark then .next s else .next (loseSupply s)

/-- One boot failure of the image on trial (R495): the third fails the slot and turns to the other one. The answer
is the cause of the chip reset that follows. -/
def bootFailed (cause : Nat) (s : State) : Nat × State :=
  let n := s.boot.running
  let x := s.boot.slot n
  let x := { x with failures := x.failures + 1 }
  if x.failures < 3 then
    (cause, { s with boot := { s.boot.setSlot n x with nextSlot := some n, trial := false } })
  else
    let s := dropActivation n s
    (4, { s with boot := { s.boot.setSlot n { x with st := 6 } with nextSlot := some (!n), confirmed := !n
                                                                    reverted := some n, trial := false } })

/-- The image on trial has failed: a management restart or a safe state came (R495). -/
def State.trialFailed (s : State) : Bool := s.boot.trial && (s.mgmtDown.isSome || s.warden.safe)

/-- A feed is present (R304). -/
def State.fed (s : State) : Bool := (s.feed 0).present || (s.feed 1).present

/-- A rescue start ends (R499): with a feed present in a chip reset to a normal start, else by loss of supply. -/
def leaveRescue (s : State) : State :=
  let s := { s with rescue := {} }
  if s.fed then chipStart 2 false true true s else loseSupply s

/-- R450, R483 to R485. A chip reset asked for begins at its tick: one of the first three triggers seals the journal
first. Where it takes an image on trial out of the safe state, that counts as its failure (R495). -/
def execChipReset (s : State) : Out :=
  match s.boot.resetReq with
  | none => .next s
  | some (c, t) =>
    if s.boot.dark then .next s
    else
      let s := s.waitUntil t
      let s := if c == 2 || c == 3 then sealNow s else s
      let (c, s) := if s.trialFailed then bootFailed c s else (c, s)
      if s.boot.rescue.isSome && c == 2 then .next (leaveRescue s)
      else .next (chipStart c false true true s)

/-! ### Images -/

/-- R495. An image on trial fails: a chip reset into the same slot, or into the other one after the third. -/
def execBootFailure (s : State) : Out :=
  if !s.trialFailed then .next s
  else
    let c := match s.boot.resetReq with
      | some (c, _) => c
      | none => if s.warden.safe then 3 else 2
    let x := bootFailed c s
    .next (chipStart x.1 false true true x.2)

/-- R495. Management has run for 60 s: the image is confirmed, and the thermometer follows its rollback index. -/
def execImageConfirm (s : State) : Out :=
  if !s.boot.trial || !s.boot.up || s.mgmtDown.isSome || s.warden.safe || s.warden.mode then .next s
  else
    let s := s.waitUntil (s.boot.trialAt + ticksS 60)
    let n := s.boot.running
    let x := s.boot.slot n
    let y := s.boot.slot (!n)
    let b := (s.boot.setSlot n { x with st := 5, failures := 0 }).setSlot (!n)
      { y with st := if y.st == 5 then 4 else y.st }
    .next { s with boot := { b with trial := false, confirmed := n, nextSlot := none
                                    otpThermo := max b.otpThermo x.rollback } }

/-- R497. The wall clock reaches the time of an activation: a chip reset, sealed first. In warden mode it waits; in
the safe state it applies at the start that ends it. -/
def execActivationDue (s : State) : Out :=
  match s.boot.pendingAct with
  | some (_, 2, t) =>
    if !s.boot.up || s.warden.mode || s.warden.safe then .next s
    else match s.reach 4 t with
    | none => .next s
    | some s => .next (chipStart 2 false true true (sealNow s))
  | _ => .next s

/-- The slot a due activation names (R497). -/
def State.dueSlot (s : State) : Option Bool :=
  match s.boot.pendingAct with
  | some (n, m, t) => if m ≤ 1 || t ≤ s.wallUs then some n else none
  | none => none

/-- The slot to boot (R494): that of a due activation, the one on trial or reverted to, or the one last confirmed;
the other where it is not valid; none where neither is. -/
def State.chooseSlot (s : State) : Option Bool :=
  let want := s.dueSlot.getD (s.boot.nextSlot.getD s.boot.confirmed)
  if s.imageValid want then some want else if s.imageValid (!want) then some (!want) else none

/-- The chosen image runs, on trial unless it is the one confirmed already (R495); an activation that was due is
spent. -/
def bootImage (n : Bool) (s : State) : State :=
  { s with boot := { s.boot with
      running := n, trial := !(n == s.boot.confirmed && (s.boot.slot n).st == 5), trialAt := s.tick, fwMinor := (s.boot.slot n).minor
      pendingAct := if s.dueSlot.isSome then none else s.boot.pendingAct
      nextSlot := if n == s.boot.confirmed then none else some n } }

/-! ### The boot sequence -/

/-- The enables boot firmware sets (R35, R172, R338, R425, R478): every front end and fuse, Clover, Teasel and the
power controller. -/
def bootEnables (s : State) : State :=
  let s := (List.range s.nPorts).foldl (fun s p =>
    if s.boot.rescue.isSome && (s.portDoms p).any fun d => (s.dom d).st != 0 then s
    else (portFrontOn p (s.setFlag (0x2000 + 16 * p) 0)).setFlag (fuseBase p) 0) s
  [0x3C04, 0x5000, 0x6000].foldl (fun s c => s.setFlag c 0) s

/-- The new epoch (R280, R486 step 5): the closing summary stands, the epoch goes to the keeper and to NOR, and the
journal begins anew; the mark of the seal is cleared (R272). -/
def newEpoch (s : State) : State :=
  let k := s.keeper
  let cold := s.hrs.cold
  let e := nextEpoch (if cold then s.boot.norEpoch else k.epoch)
  let closing := if cold then
      closingSummary 2 (if k.sealValid then k.sealCseq else 0) 0xFFFF (b2n k.sealValid) 0 true
        { s with keeper.epoch := s.boot.norEpoch }
    else if s.cci.closing.length == 16 then s.cci.closing.take 12 ++ le 4 s.time32
    else closingSummary 1 0 0 (b2n k.sealValid) 1 false s
  { s with
    cci.closing := closing
    keeper := { k with epoch := e, sealValid := false }
    boot := { s.boot with norEpoch := e, norWall := s.chicory.wall.ns, norWallAt := s.tick }
    journal := { checkpointAt := s.tick } }

/-- Loader mode (R498): every gate off, `SAFE_N` and `DEGRADED_N` asserted, `ALIVE` toggling, no profile. -/
def bootLoader (s : State) : State :=
  let s := newEpoch s
  { s with
    ports := mapPorts (portOverReset true) s.nPorts { s with ports := s.ports.map fun e =>
      (e.1, { e.2 with usb := { e.2.usb with st := if 5 ≤ e.2.usb.st then 0 else e.2.usb.st } }) }
    clover.gmgOn := []
    warden := { s.warden with aliveRun := true, edgeAt := s.tick, heartbeat := s.tick }
    boot := { s.boot with loader := true, up := true } }

/-- A profile written since the last start replaces the active one, which is kept beside it (R299). -/
def turnProfile (s : State) : State :=
  match s.boot.nextProfile with
  | some p => { s with boot := { s.boot with profile := p, previous := s.boot.profile, nextProfile := none } }
  | none => s

/-- What is told of the profile (R491): a failed check of the active one, of both, and the one applied. An empty
NOR fails the check. -/
def profileTold (s : State) : State :=
  let bad := !profileOk s.variant s.boot.profile
  let s := if bad then raiseEvent 108 1 [0, 0, 0xF0] s else s
  let s := if bad && !profileOk s.variant s.boot.previous then raiseEvent 108 1 [0, 0, 0xF1] s else s
  match s.inForce with
  | some p => raiseEvent 121 2 (le 4 (u32 p 8)) s
  | none => s

/-- EV106 of a warm start (R102, R279). -/
def warmTold (s : State) : State :=
  if s.hrs.cold then s else raiseEvent 106 1 (le 4 s.keeper.epoch ++ [1]) s

/-- A revert is told (R495). -/
def revertTold (s : State) : State :=
  match s.boot.reverted with
  | some n => raiseEvent 120 4 [byte (b2n n)] { s with boot.reverted := none }
  | none => s

/-- The edges latched without supply (R475). -/
def wakesTold (s : State) : State :=
  let s := (bitList 4 s.keeper.wakeOff).foldl (fun s i =>
    raiseEvent 101 1 ([byte i, 0, 0, 0] ++ le 4 s.keeper.wakeTime) s) s
  { s with keeper.wakeOff := 0 }

/-- What a start posts of what came before it: EV106 of a warm start, a revert, edges latched without supply. -/
def startEvents (s : State) : State := wakesTold (revertTold (warmTold s))

/-- Steps 2 and 3 of R486: Yarrow's entries, then `ALIVE` and `SAFE_N`. -/
def bootYarrow (n : Bool) (s : State) : List ProfEntry × State :=
  let s := turnProfile (bootImage n s)
  let y := applyEntries (s.entries.filter ProfEntry.yarrows) s
  (y.1, { y.2 with warden := { y.2.warden with aliveRun := !y.2.warden.safe, safePin := y.2.warden.safe
                                               edgeAt := y.2.tick, heartbeat := y.2.tick } })

/-- Steps 4 and 5 of R486: the new epoch, the anchor channel (R124), the enables and management's entries. -/
def bootManagement (s : State) : List ProfEntry × State :=
  let s := { newEpoch s with chans := [(0, { st := 1, gen := 1, deliver := 1 })] }
  applyEntries (s.entries.filter fun e => !e.yarrows) (profileTold (bootEnables (startEvents s)))

/-- Step 6 of R486: the host link. `OC_MODE` is sampled as it connects (R157). -/
def bootLink (s : State) : State :=
  if s.warden.safe then s
  else
    let s := coverCheck (sampleOc s)
    { s with warden := { s.warden with degraded := s.warden.mode }, boot := { s.boot with up := true } }

/-- Steps 2 to 6 of R486 with an image. -/
def bootNormal (n : Bool) (s : State) : State :=
  let y := bootYarrow n s
  let z := bootManagement y.2
  bootLink (lockEntries (y.1 ++ z.1) z.2)

/-- R486. The boot sequence runs, from the release of a reset to the host link. A regulator whose mode is not linear
raises FS94 (R469); `BOOTSEL1`, or no valid image, leads to loader mode (R494, R498). -/
def execBootSequence (linearVout : Bool) (s : State) : Out :=
  if s.boot.up || s.boot.dark || s.warden.safe then .next s
  else
    let s := if linearVout then s else faultPulse 94 s
    if s.warden.safe then .next s
    else if s.straps.bootsel1 then .next (bootLoader s)
    else match s.chooseSlot with
    | none => .next (bootLoader s)
    | some n => .next (bootNormal n s)

/-! ### Rescue -/

/-- The domains a rescue start powers (R499). -/
def rescueOn (p d : Nat) : Bool :=
  d ≤ 2 || d == 3 + p / 8 || d == (if p < 24 then 10 else 11) || (0x1C ≤ d && d ≤ 0x1F)

/-- A rescue start up to the boot sequence (R359 step 5, R499): only the rescue island is powered. -/
def rescueStart (p : Nat) (s : State) : State :=
  let t := chipStart 5 true (!s.keeper.vbakLow || !s.boot.dark) true s
  let own := s.port p
  let t := t.setPort p { usb := { ccAtt := true }, pd := own.pd }
  { t with
    power := { t.power with doms := (List.range 33).foldl (fun d n =>
      if domainExists s.variant n && rescueOn p n then d else Tbl.setD {} d n { st := 2 }) [] }
    rescue := { port := some p, step := 5, en := true }
    boot := { t.boot with rescue := some p } }

/-- R499. The rescue sequence has the converter in regulation: the rescue start. -/
def execRescueStart (s : State) : Out :=
  match s.rescue.port with
  | some p => if s.rescue.step == 5 && s.boot.rescue.isNone && !s.boot.up then .next (rescueStart p s) else .next s
  | none => .next s

/-- R499. The rescue port detaches. -/
def execRescuePortDetach (s : State) : Out := if s.boot.rescue.isNone then .next s else .next (leaveRescue s)

/-- R500. After a fast role swap: a feed is back and both rails have stood in band for 1 s, and Yarrow drops
`RESCUE_EN`; or `PGOOD_IN` falls, or 2 s pass without a feed, and the hub seals the journal and makes a rescue
start. -/
def execFrsFeedReturn (feedPresent : Bool) (s : State) : Out :=
  match s.rescue.port with
  | none => .next s
  | some p =>
    if !s.rescue.frs then .next s
    else if feedPresent then
      if !s.fed || !(s.rail 0).inBand || !(s.rail 1).inBand then .next s
      else
        let s := s.waitUntil (max (s.rail 0).since (s.rail 1).since + ticksS 1)
        .next (coverCheck { s with rescue := {} })
    else .next (rescueStart p (sealNow s))

end Sys2Proof.Machine
end

