-- ==== Sys2Proof/Machine/Dispatch.lean ====
section
/-! DEFINITION. The meaning of each command: one arm per constructor, each one direct call of its
meaning. A command not reached yet is refused by name. -/

namespace Sys2Proof.Machine

/-- The effect of a command on everything but the queue. -/
def exec (i : Instr) (s : State) : Host.Outcome State Fault Refusal :=
  match i with
  | .sysHello mb => Sys2Proof.Machine.execSysHello mb s
  | .sysResync mb => Sys2Proof.Machine.execSysResync mb s
  | .sysInfo mb => Sys2Proof.Machine.execSysInfo mb s
  | .sysAbort mb => Sys2Proof.Machine.execSysAbort mb s
  | .sysExpert mb => Sys2Proof.Machine.execSysExpert mb s
  | .sysReset mb => Sys2Proof.Machine.execSysReset mb s
  | .angConfig mb => Sys2Proof.Machine.execAngConfig mb s
  | .angEnable mb => Sys2Proof.Machine.execAngEnable mb s
  | .angStatus mb => Sys2Proof.Machine.execAngStatus mb s
  | .timeSet mb => Sys2Proof.Machine.execTimeSet mb s
  | .timeAdjust mb => Sys2Proof.Machine.execTimeAdjust mb s
  | .timeDisc mb => Sys2Proof.Machine.execTimeDisc mb s
  | .phaseSet mb => Sys2Proof.Machine.execPhaseSet mb s
  | .phasePsync mb => Sys2Proof.Machine.execPhasePsync mb s
  | .phaseCapture mb => Sys2Proof.Machine.execPhaseCapture mb s
  | .phaseLink mb => Sys2Proof.Machine.execPhaseLink mb s
  | .portMode mb => Sys2Proof.Machine.execPortMode mb s
  | .portReset mb => Sys2Proof.Machine.execPortReset mb s
  | .portSuspend mb => Sys2Proof.Machine.execPortSuspend mb s
  | .portResume mb => Sys2Proof.Machine.execPortResume mb s
  | .portStatus mb => Sys2Proof.Machine.execPortStatus mb s
  | .portCfg mb => Sys2Proof.Machine.execPortCfg mb s
  | .devList mb => Sys2Proof.Machine.execDevList mb s
  | .devInfo mb => Sys2Proof.Machine.execDevInfo mb s
  | .devPolicy mb => Sys2Proof.Machine.execDevPolicy mb s
  | .chanOpen mb => Sys2Proof.Machine.execChanOpen mb s
  | .chanClose mb => Sys2Proof.Machine.execChanClose mb s
  | .chanPause mb => Sys2Proof.Machine.execChanPause mb s
  | .chanResume mb clearOk => Sys2Proof.Machine.execChanResume mb clearOk s
  | .chanStopGroup mb => Sys2Proof.Machine.execChanStopGroup mb s
  | .chanStartGroup mb => Sys2Proof.Machine.execChanStartGroup mb s
  | .chanCtrl mb => Sys2Proof.Machine.execChanCtrl mb s
  | .chanWrite mb => Sys2Proof.Machine.execChanWrite mb s
  | .chanInfo mb => Sys2Proof.Machine.execChanInfo mb s
  | .chanLatest mb => Sys2Proof.Machine.execChanLatest mb s
  | .chanHistory mb => Sys2Proof.Machine.execChanHistory mb s
  | .chanAck mb => Sys2Proof.Machine.execChanAck mb s
  | .chanRewind mb => Sys2Proof.Machine.execChanRewind mb s
  | .schedBegin mb => Sys2Proof.Machine.execSchedBegin mb s
  | .schedAdd mb => Sys2Proof.Machine.execSchedAdd mb s
  | .schedChange mb => Sys2Proof.Machine.execSchedChange mb s
  | .schedCommit mb => Sys2Proof.Machine.execSchedCommit mb s
  | .schedCancel mb => Sys2Proof.Machine.execSchedCancel mb s
  | .schedReport mb => Sys2Proof.Machine.execSchedReport mb s
  | .pwrOn mb => Sys2Proof.Machine.execPwrOn mb s
  | .pwrOff mb => Sys2Proof.Machine.execPwrOff mb s
  | .pwrClear mb => Sys2Proof.Machine.execPwrClear mb s
  | .pwrCurve mb => Sys2Proof.Machine.execPwrCurve mb s
  | .pwrRails mb => Sys2Proof.Machine.execPwrRails mb s
  | .pwrPriority mb => Sys2Proof.Machine.execPwrPriority mb s
  | .pwrStagger mb => Sys2Proof.Machine.execPwrStagger mb s
  | .pwrStatus mb => Sys2Proof.Machine.execPwrStatus mb s
  | .pdStatus mb => Sys2Proof.Machine.execPdStatus mb s
  | .pdCaps mb => Sys2Proof.Machine.execPdCaps mb s
  | .pdHardreset mb => Sys2Proof.Machine.execPdHardreset mb s
  | .pdSwap mb => Sys2Proof.Machine.execPdSwap mb s
  | .pdFrs mb => Sys2Proof.Machine.execPdFrs mb s
  | .pdMoist mb => Sys2Proof.Machine.execPdMoist mb s
  | .pdAltmode mb => Sys2Proof.Machine.execPdAltmode mb s
  | .canConfig mb => Sys2Proof.Machine.execCanConfig mb s
  | .canEnable mb => Sys2Proof.Machine.execCanEnable mb s
  | .canFilter mb => Sys2Proof.Machine.execCanFilter mb s
  | .canTx mb => Sys2Proof.Machine.execCanTx mb s
  | .canTxabort mb => Sys2Proof.Machine.execCanTxabort mb s
  | .canRecover mb => Sys2Proof.Machine.execCanRecover mb s
  | .canAutobaud mb => Sys2Proof.Machine.execCanAutobaud mb s
  | .canStatus mb => Sys2Proof.Machine.execCanStatus mb s
  | .integStatus mb => Sys2Proof.Machine.execIntegStatus mb s
  | .integRegion mb => Sys2Proof.Machine.execIntegRegion mb s
  | .integRestrength mb => Sys2Proof.Machine.execIntegRestrength mb s
  | .integScrub mb => Sys2Proof.Machine.execIntegScrub mb s
  | .integLog mb => Sys2Proof.Machine.execIntegLog mb s
  | .integRotate mb => Sys2Proof.Machine.execIntegRotate mb s
  | .integInject mb => Sys2Proof.Machine.execIntegInject mb s
  | .faultStatus mb => Sys2Proof.Machine.execFaultStatus mb s
  | .faultConfig mb => Sys2Proof.Machine.execFaultConfig mb s
  | .faultClear mb => Sys2Proof.Machine.execFaultClear mb s
  | .faultForce mb => Sys2Proof.Machine.execFaultForce mb s
  | .wardenArm mb => Sys2Proof.Machine.execWardenArm mb s
  | .wardenEnter mb => Sys2Proof.Machine.execWardenEnter mb s
  | .wardenLeave mb => Sys2Proof.Machine.execWardenLeave mb s
  | .wardenStatus mb => Sys2Proof.Machine.execWardenStatus mb s
  | .domList mb => Sys2Proof.Machine.execDomList mb s
  | .domEvent mb => Sys2Proof.Machine.execDomEvent mb s
  | .domForget mb => Sys2Proof.Machine.execDomForget mb s
  | .domPstate mb => Sys2Proof.Machine.execDomPstate mb s
  | .domPcfg mb => Sys2Proof.Machine.execDomPcfg mb s
  | .domStatus mb => Sys2Proof.Machine.execDomStatus mb s
  | .domKeeper mb => Sys2Proof.Machine.execDomKeeper mb s
  | .fwInfo mb => Sys2Proof.Machine.execFwInfo mb s
  | .fwBegin mb => Sys2Proof.Machine.execFwBegin mb s
  | .fwWrite mb => Sys2Proof.Machine.execFwWrite mb s
  | .fwVerify mb => Sys2Proof.Machine.execFwVerify mb s
  | .fwActivate mb => Sys2Proof.Machine.execFwActivate mb s
  | .fwCancel mb => Sys2Proof.Machine.execFwCancel mb s
  | .profRead mb => Sys2Proof.Machine.execProfRead mb s
  | .profWrite mb => Sys2Proof.Machine.execProfWrite mb s
  | .linkStatus mb => Sys2Proof.Machine.execLinkStatus mb s
  | .linkBudget mb => Sys2Proof.Machine.execLinkBudget mb s
  | .linkDetach mb => Sys2Proof.Machine.execLinkDetach mb s
  | .testTmux mb => Sys2Proof.Machine.execTestTmux mb s
  | .testBist mb => Sys2Proof.Machine.execTestBist mb s
  | .testLoop mb => Sys2Proof.Machine.execTestLoop mb s
  | .testResult mb => Sys2Proof.Machine.execTestResult mb s
  | .doorbellRing mask => Sys2Proof.Machine.execDoorbellRing mask s
  | .cciDoneWrite mask => Sys2Proof.Machine.execCciDoneWrite mask s
  | .abortReqWrite mask => Sys2Proof.Machine.execAbortReqWrite mask s
  | .dataUnit bytes => Sys2Proof.Machine.execDataUnit bytes s
  | .eventRead words => Sys2Proof.Machine.execEventRead words s
  | .streamRead words => Sys2Proof.Machine.execStreamRead words s
  | .bitAliasWrite off val => Sys2Proof.Machine.execBitAliasWrite off val s
  | .bitAliasRead off => Sys2Proof.Machine.execBitAliasRead off s
  | .lockBitSet off val => Sys2Proof.Machine.execLockBitSet off val s
  | .registerWrite off val => Sys2Proof.Machine.execRegisterWrite off val s
  | .rcFieldRead off => Sys2Proof.Machine.execRcFieldRead off s
  | .loRegisterRead off => Sys2Proof.Machine.execLoRegisterRead off s
  | .ltnClr => Sys2Proof.Machine.execLtnClr s
  | .padHoldRelease val => Sys2Proof.Machine.execPadHoldRelease val s
  | .campClear => Sys2Proof.Machine.execCampClear s
  | .campForce pat => Sys2Proof.Machine.execCampForce pat s
  | .tmuxSelWrite off val => Sys2Proof.Machine.execTmuxSelWrite off val s
  | .regRead off len => Sys2Proof.Machine.execRegRead off len s
  | .regWrite off len data => Sys2Proof.Machine.execRegWrite off len data s
  | .spiReadFrame header statusBytes clocked => Sys2Proof.Machine.execSpiReadFrame header statusBytes clocked s
  | .spiWriteFrame bytes => Sys2Proof.Machine.execSpiWriteFrame bytes s
  | .spiStatusFrame => Sys2Proof.Machine.execSpiStatusFrame s
  | .spiFrameRefused bytes => Sys2Proof.Machine.execSpiFrameRefused bytes s
  | .commandPipeTransfer bytes => Sys2Proof.Machine.execCommandPipeTransfer bytes s
  | .ep1InTransferEnd acked => Sys2Proof.Machine.execEp1InTransferEnd acked s
  | .ep3InEventPacket n acked => Sys2Proof.Machine.execEp3InEventPacket n acked s
  | .mailboxResponse mb => Sys2Proof.Machine.execMailboxResponse mb s
  | .dtimeoutExpiry mb => Sys2Proof.Machine.execDtimeoutExpiry mb s
  | .abortEscalation => Sys2Proof.Machine.execAbortEscalation s
  | .setPortFeaturePortReset h => Sys2Proof.Machine.execSetPortFeaturePortReset h s
  | .clearPortFeaturePortPower h => Sys2Proof.Machine.execClearPortFeaturePortPower h s
  | .setPortFeaturePortPower h => Sys2Proof.Machine.execSetPortFeaturePortPower h s
  | .setPortFeaturePortSuspend h => Sys2Proof.Machine.execSetPortFeaturePortSuspend h s
  | .clearPortFeaturePortSuspend h => Sys2Proof.Machine.execClearPortFeaturePortSuspend h s
  | .clearPortFeaturePortEnable h => Sys2Proof.Machine.execClearPortFeaturePortEnable h s
  | .setPortFeaturePortIndicator h sel => Sys2Proof.Machine.execSetPortFeaturePortIndicator h sel s
  | .setPortFeaturePortTest h sel => Sys2Proof.Machine.execSetPortFeaturePortTest h sel s
  | .alternateSettingChange alt busy => Sys2Proof.Machine.execAlternateSettingChange alt busy s
  | .upstreamReset detach => Sys2Proof.Machine.execUpstreamReset detach s
  | .upstreamAttach highSpeed => Sys2Proof.Machine.execUpstreamAttach highSpeed s
  | .globalSuspend rwake caside => Sys2Proof.Machine.execGlobalSuspend rwake caside s
  | .ccAttach p kind => Sys2Proof.Machine.execCcAttach p kind s
  | .ccDetach p => Sys2Proof.Machine.execCcDetach p s
  | .moistureReading p kohm1 kohm2 => Sys2Proof.Machine.execMoistureReading p kohm1 kohm2 s
  | .moistureInterval p kohm1 kohm2 => Sys2Proof.Machine.execMoistureInterval p kohm1 kohm2 s
  | .connectSensed p pull => Sys2Proof.Machine.execConnectSensed p pull s
  | .connectDebounceEnd p => Sys2Proof.Machine.execConnectDebounceEnd p s
  | .resetEnd p chirp => Sys2Proof.Machine.execResetEnd p chirp s
  | .usbDisconnect p lost => Sys2Proof.Machine.execUsbDisconnect p lost s
  | .remoteWake p => Sys2Proof.Machine.execRemoteWake p s
  | .resumeEnd p => Sys2Proof.Machine.execResumeEnd p s
  | .resumeRecoveryEnd p => Sys2Proof.Machine.execResumeRecoveryEnd p s
  | .surgeSignature p data cc vo => Sys2Proof.Machine.execSurgeSignature p data cc vo s
  | .surgeRecovery p => Sys2Proof.Machine.execSurgeRecovery p s
  | .babble p => Sys2Proof.Machine.execBabble p s
  | .babbleReset p => Sys2Proof.Machine.execBabbleReset p s
  | .staggerSlotOpen p voMv => Sys2Proof.Machine.execStaggerSlotOpen p voMv s
  | .powerGood p gateMv voMv railMv dropMv => Sys2Proof.Machine.execPowerGood p gateMv voMv railMv dropMv s
  | .inrushFail p mA => Sys2Proof.Machine.execInrushFail p mA s
  | .pgLost p voMv => Sys2Proof.Machine.execPgLost p voMv s
  | .itTrip p mA => Sys2Proof.Machine.execItTrip p mA s
  | .fastTrip p mA => Sys2Proof.Machine.execFastTrip p mA s
  | .cooldownExpiry p => Sys2Proof.Machine.execCooldownExpiry p s
  | .ladderReset p => Sys2Proof.Machine.execLadderReset p s
  | .stuckOn p voMv => Sys2Proof.Machine.execStuckOn p voMv s
  | .gmgStuck g => Sys2Proof.Machine.execGmgStuck g s
  | .fetWarn p dropMv mA => Sys2Proof.Machine.execFetWarn p dropMv mA s
  | .feedReverseOff f => Sys2Proof.Machine.execFeedReverseOff f s
  | .feedPresenceChange f mv => Sys2Proof.Machine.execFeedPresenceChange f mv s
  | .feedOv f mv => Sys2Proof.Machine.execFeedOv f mv s
  | .railOutOfBand r mv => Sys2Proof.Machine.execRailOutOfBand r mv s
  | .railPowerRemoval r => Sys2Proof.Machine.execRailPowerRemoval r s
  | .railRestore r => Sys2Proof.Machine.execRailRestore r s
  | .budgetGrant p => Sys2Proof.Machine.execBudgetGrant p s
  | .shed => Sys2Proof.Machine.execShed s
  | .shedRestore => Sys2Proof.Machine.execShedRestore s
  | .sourceCapabilitiesSend p answered => Sys2Proof.Machine.execSourceCapabilitiesSend p answered s
  | .request p rdo pd2 => Sys2Proof.Machine.execRequest p rdo pd2 s
  | .psRdy p => Sys2Proof.Machine.execPsRdy p s
  | .pdResponseTimeout p => Sys2Proof.Machine.execPdResponseTimeout p s
  | .softReset p byPartner => Sys2Proof.Machine.execSoftReset p byPartner s
  | .hardReset p byPartner => Sys2Proof.Machine.execHardReset p byPartner s
  | .hardResetWaitEnd p => Sys2Proof.Machine.execHardResetWaitEnd p s
  | .typeCOnlyFallback p => Sys2Proof.Machine.execTypeCOnlyFallback p s
  | .fallbackReoffer p => Sys2Proof.Machine.execFallbackReoffer p s
  | .hrstReset p => Sys2Proof.Machine.execHrstReset p s
  | .prSwap p partnerStarts answer => Sys2Proof.Machine.execPrSwap p partnerStarts answer s
  | .frSwap p => Sys2Proof.Machine.execFrSwap p s
  | .discoverIdentity p ufp svid modes => Sys2Proof.Machine.execDiscoverIdentity p ufp svid modes s
  | .enterModeAck p ans => Sys2Proof.Machine.execEnterModeAck p ans s
  | .partnerExitMode p => Sys2Proof.Machine.execPartnerExitMode p s
  | .rescueVbus p mv => Sys2Proof.Machine.execRescueVbus p mv s
  | .rescueRegulationCheck p mv => Sys2Proof.Machine.execRescueRegulationCheck p mv s
  | .referenceEvent k chg => Sys2Proof.Machine.execReferenceEvent k chg s
  | .indexEdge k m after hold rising => Sys2Proof.Machine.execIndexEdge k m after hold rising s
  | .reverse k aLeads => Sys2Proof.Machine.execReverse k aLeads s
  | .referenceLoss k => Sys2Proof.Machine.execReferenceLoss k s
  | .holdLimExpiry tb => Sys2Proof.Machine.execHoldLimExpiry tb s
  | .cycleWrap k => Sys2Proof.Machine.execCycleWrap k s
  | .anchorPeriodic tb => Sys2Proof.Machine.execAnchorPeriodic tb s
  | .wallDisciplineEdge after rising => Sys2Proof.Machine.execWallDisciplineEdge after rising s
  | .wallHoldover => Sys2Proof.Machine.execWallHoldover s
  | .linkMark pulse => Sys2Proof.Machine.execLinkMark pulse s
  | .linkFrame pulses => Sys2Proof.Machine.execLinkFrame pulses s
  | .linkTransmit => Sys2Proof.Machine.execLinkTransmit s
  | .captureEdge m after hold rising => Sys2Proof.Machine.execCaptureEdge m after hold rising s
  | .phaseOutputTarget n => Sys2Proof.Machine.execPhaseOutputTarget n s
  | .psyncTarget p => Sys2Proof.Machine.execPsyncTarget p s
  | .targetDue slot => Sys2Proof.Machine.execTargetDue slot s
  | .tokenIssue p => Sys2Proof.Machine.execTokenIssue p s
  | .lateMiss slot => Sys2Proof.Machine.execLateMiss slot s
  | .bestEffortReplaced slot => Sys2Proof.Machine.execBestEffortReplaced slot s
  | .sof p => Sys2Proof.Machine.execSof p s
  | .transactionEnd p outcome => Sys2Proof.Machine.execTransactionEnd p outcome s
  | .recordCommit slot => Sys2Proof.Machine.execRecordCommit slot s
  | .applyPoint => Sys2Proof.Machine.execApplyPoint s
  | .transactionIdleTimeout => Sys2Proof.Machine.execTransactionIdleTimeout s
  | .enumeration p dev => Sys2Proof.Machine.execEnumeration p dev s
  | .enumerationStepFail p step hub1 hub2 => Sys2Proof.Machine.execEnumerationStepFail p step hub1 hub2 s
  | .childJoin join => Sys2Proof.Machine.execChildJoin join s
  | .childLost chip reason => Sys2Proof.Machine.execChildLost chip reason s
  | .cowslipFlush q far sent => Sys2Proof.Machine.execCowslipFlush q far sent s
  | .journalLevel => Sys2Proof.Machine.execJournalLevel s
  | .checkpoint => Sys2Proof.Machine.execCheckpoint s
  | .seal => Sys2Proof.Machine.execSeal s
  | .unseal => Sys2Proof.Machine.execUnseal s
  | .managementRestart cause => Sys2Proof.Machine.execManagementRestart cause s
  | .groupRestart g => Sys2Proof.Machine.execGroupRestart g s
  | .managementRestartTimeout => Sys2Proof.Machine.execManagementRestartTimeout s
  | .groupRestartTimeout g => Sys2Proof.Machine.execGroupRestartTimeout g s
  | .ctrlTmoExpiry slot => Sys2Proof.Machine.execCtrlTmoExpiry slot s
  | .canFrameReceived c frame ticks => Sys2Proof.Machine.execCanFrameReceived c frame ticks s
  | .canArbitrationStart c => Sys2Proof.Machine.execCanArbitrationStart c s
  | .canTxEnd c result => Sys2Proof.Machine.execCanTxEnd c result s
  | .canArmedDue c buf => Sys2Proof.Machine.execCanArmedDue c buf s
  | .busOff c => Sys2Proof.Machine.execBusOff c s
  | .canErrorStateChange c err => Sys2Proof.Machine.execCanErrorStateChange c err s
  | .busOffRecoveryEnd c => Sys2Proof.Machine.execBusOffRecoveryEnd c s
  | .autobaudDwellEnd c => Sys2Proof.Machine.execAutobaudDwellEnd c s
  | .canDisableComplete c => Sys2Proof.Machine.execCanDisableComplete c s
  | .faultEvent src persists => Sys2Proof.Machine.execFaultEvent src persists s
  | .wireFault src high => Sys2Proof.Machine.execWireFault src high s
  | .causeGone src => Sys2Proof.Machine.execCauseGone src s
  | .selfCheckFail => Sys2Proof.Machine.execSelfCheckFail s
  | .wardenHeartbeatMissing => Sys2Proof.Machine.execWardenHeartbeatMissing s
  | .aliveEdge ago => Sys2Proof.Machine.execAliveEdge ago s
  | .wardenCleanup => Sys2Proof.Machine.execWardenCleanup s
  | .scriptStepStart => Sys2Proof.Machine.execScriptStepStart s
  | .scriptFrame buf => Sys2Proof.Machine.execScriptFrame buf s
  | .waitRxMatch frame => Sys2Proof.Machine.execWaitRxMatch frame s
  | .scriptStepEnd => Sys2Proof.Machine.execScriptStepEnd s
  | .safeHoldExpiry => Sys2Proof.Machine.execSafeHoldExpiry s
  | .parityError page errors who => Sys2Proof.Machine.execParityError page errors who s
  | .staleRecompute page => Sys2Proof.Machine.execStaleRecompute page s
  | .staleOvf page => Sys2Proof.Machine.execStaleOvf page s
  | .scrubVisit page errors => Sys2Proof.Machine.execScrubVisit page errors s
  | .restrengthStep errors offset => Sys2Proof.Machine.execRestrengthStep errors offset s
  | .rsEnded => Sys2Proof.Machine.execRsEnded s
  | .rotationCopyDone => Sys2Proof.Machine.execRotationCopyDone s
  | .bankRetired bank => Sys2Proof.Machine.execBankRetired bank s
  | .pageRetired page => Sys2Proof.Machine.execPageRetired page s
  | .retirementListWrite => Sys2Proof.Machine.execRetirementListWrite s
  | .injectionFired page byteOff => Sys2Proof.Machine.execInjectionFired page byteOff s
  | .idleTimerExpiry d => Sys2Proof.Machine.execIdleTimerExpiry d s
  | .domainEntry d => Sys2Proof.Machine.execDomainEntry d s
  | .domainWake d src => Sys2Proof.Machine.execDomainWake d src s
  | .wakeComplete d => Sys2Proof.Machine.execWakeComplete d s
  | .vcoreAck => Sys2Proof.Machine.execVcoreAck s
  | .vcoreAckTimeout statusWord => Sys2Proof.Machine.execVcoreAckTimeout statusWord s
  | .pmAlert statusWord => Sys2Proof.Machine.execPmAlert statusWord s
  | .wakeInput input rising => Sys2Proof.Machine.execWakeInput input rising s
  | .wallPairWrite => Sys2Proof.Machine.execWallPairWrite s
  | .norWallWrite => Sys2Proof.Machine.execNorWallWrite s
  | .palarmDue => Sys2Proof.Machine.execPalarmDue s
  | .postedWriteComplete dom => Sys2Proof.Machine.execPostedWriteComplete dom s
  | .retLow => Sys2Proof.Machine.execRetLow s
  | .vbakLoss => Sys2Proof.Machine.execVbakLoss s
  | .powerOnReset straps keeperKept journalKept => Sys2Proof.Machine.execPowerOnReset straps keeperKept journalKept s
  | .pinReset straps => Sys2Proof.Machine.execPinReset straps s
  | .chipReset => Sys2Proof.Machine.execChipReset s
  | .clock => Sys2Proof.Machine.execClock s
  | .bootSequence linearVout => Sys2Proof.Machine.execBootSequence linearVout s
  | .imageConfirm => Sys2Proof.Machine.execImageConfirm s
  | .bootFailure => Sys2Proof.Machine.execBootFailure s
  | .activationDue => Sys2Proof.Machine.execActivationDue s
  | .eraseEnd slotB => Sys2Proof.Machine.execEraseEnd slotB s
  | .rescueStart => Sys2Proof.Machine.execRescueStart s
  | .rescuePortDetach => Sys2Proof.Machine.execRescuePortDetach s
  | .frsFeedReturn feedPresent => Sys2Proof.Machine.execFrsFeedReturn feedPresent s
  | .bistDone pass signature => Sys2Proof.Machine.execBistDone pass signature s
  | .loopDone packets errors => Sys2Proof.Machine.execLoopDone packets errors s
  | .upstreamResume => Sys2Proof.Machine.execUpstreamResume s
  | .hubSetConfiguration configured => Sys2Proof.Machine.execHubSetConfiguration configured s
  | .partnerSourceCapabilities p pdos => Sys2Proof.Machine.execPartnerSourceCapabilities p pdos s
  | .pdMessageReceived p msg => Sys2Proof.Machine.execPdMessageReceived p msg s
  | .subWindowEnd src => Sys2Proof.Machine.execSubWindowEnd src s
  | .railInBand r mv => Sys2Proof.Machine.execRailInBand r mv s
  | .vbakRestored => Sys2Proof.Machine.execVbakRestored s
  | .supplyLoss => Sys2Proof.Machine.execSupplyLoss s
  | .tapClock tms tdi resetLow => Sys2Proof.Machine.execTapClock tms tdi resetLow s
  | .domainLinkFrame chip frame => Sys2Proof.Machine.execDomainLinkFrame chip frame s
  | .wallSlewEnd => Sys2Proof.Machine.execWallSlewEnd s

end Sys2Proof.Machine
end

