-- ==== Sys2Proof/Machine/Pins.lean ====
section
/-!
DEFINITION. The digital output pins of R523 whose level stands between commands, read off the state: what each drives in
service, at reset and in the safe state (R448, R523, R524).
-/

namespace Sys2Proof.Machine

/-- The output pins whose level the state holds (R523). -/
inductive OutPin where
  | pho (n : Nat) | tmx (n : Nat) | canStb (c : Nat) | gmg (g : Nat)
  | alive | safeN | degradedN | attnN | evqHi | rqHi | rescueEn
  deriving DecidableEq, Repr

/-- Level of an output pin; none where it floats: an open-drain pin released, a phase pin without supply (R467). `ALIVE`
toggles while it runs, and its level is not held. -/
def State.outPin (s : State) (x : OutPin) : Option Bool :=
  match x with
  | .pho n => s.phoPin n
  | .tmx n => some (s.tmxPin n)
  | .canStb c => some (s.canStandby c)
  | .gmg g => some (s.clover.gmgOn.contains g)
  | .alive => none
  | .safeN => some (!s.warden.safePin)
  | .degradedN => some (!s.warden.degraded)
  | .attnN => if s.attn then some false else none
  | .evqHi => some s.cci.evqHi
  | .rqHi => some s.cci.rqHi
  | .rescueEn => some s.rescue.en

end Sys2Proof.Machine
end

