-- ==== Sys2Proof/Safety.lean ====
section
/-!
DEFINITION. The words the statements are written in: a safe run, a catalogue command ready to be
decided, and what two states of one machine have in common.
-/

namespace Sys2Proof

open Sys2Proof.Machine

/-- A run of `k` steps that answers a next state has met no fault and no refusal. -/
def SafeRun (k : Nat) (s : State) : Prop :=
  ∃ t, Host.Core.run Sys2Proof.core k s = .next t

/-- Mailbox `mb` holds the catalogue command `op`, accepted and free to start, and makes the request `r`, whose
scope, index and length are those of the catalogue (R64, R74, R281, R284, R286); no rescue start runs (R499),
and the journal takes a commit (R271). -/
structure Ready (mb op : Nat) (r : Req) (s : State) : Prop where
  runnable : (s.mb mb).runnable = true
  code : (s.mb mb).op = op
  start : s.mayStart mb = true
  rescue : s.boot.rescue = none
  journal : s.journal.sealed = false
  req : (s.mb mb).req mb = r
  shape : ∃ i, opInfo op = some i ∧ shapeBad s i r = false

end Sys2Proof
end

