-- ==== Sys2Proof/Certificates/Slice0/Obligations.lean ====
section
/-!
DEFINITION. The statements for the provers, from the numbered rules of the spec. A clause of a statement about rows
concludes that `exec` answers a next state, and which, for every state and operands that meet its hypotheses.
-/

open Sys2Proof Sys2Proof.Machine

/-- A step takes the command at the front of the queue, and runs it with the queue's rest. -/
def Obligations.StepRunsFrontCommand : Prop :=
  ∀ c l s, s.pending = c :: l → step s = exec c { s with pending := l }

/-- On an empty queue one tick of 10 ns passes: what the clocks, breakers and anchors do in it, and nothing else of
the queue. The model's choice (log 2). -/
def Obligations.EmptyQueuePassesOneTick : Prop :=
  ∀ s, s.pending = [] → step s = .next (s.elapse 1) ∧ (s.elapse 1).tick = s.tick + 1 ∧
    (s.elapse 1).pending = [] ∧ (s.elapse 1).cans = s.cans ∧ (s.elapse 1).devices = s.devices

/-- Right after reset: no command waits, no lock is set, every mailbox is IDLE, every port is OFF and without power,
every event queue and record queue is empty, every fault source is CLEAR, and the hub has still to be started
(R51, R63, R68, R92, R141, R486). Reset values the spec does not give are the model's (log 4). -/
def Obligations.ResetState : Prop :=
  State.reset.pending = [] ∧ State.reset.hrs.lock0 = 0 ∧ State.reset.hrs.portLo = 0 ∧ State.reset.hrs.portHi = 0 ∧
  (∀ n, (State.reset.mb n).state = .idle) ∧ (∀ p, (State.reset.port p).usb.st = 0 ∧ (State.reset.port p).pw.path = 0) ∧
  State.reset.cci.evq = [] ∧ State.reset.cci.ring = [] ∧ State.reset.cci.session = false ∧
  (∀ n, (State.reset.src n).st = 0) ∧ State.reset.boot.up = false ∧ State.reset.warden.mode = false

/-- Every command leaves the rest of the queue, and the part it runs on, as they were; a step takes the front off. -/
def Obligations.QueueAndPartStay : Prop :=
  (∀ c s t, exec c s = .next t → t.pending = s.pending ∧ t.variant = s.variant) ∧
  (∀ s t, step s = .next t → t.pending = s.pending.tail ∧ t.variant = s.variant)

/-- A lock bit that is 1 stays 1 through every step whose command is none of the starts (R40, R51). -/
def Obligations.LockBitsStay : Prop :=
  ∀ s t, (∀ c ∈ s.pending.head?, (match c with
      | .powerOnReset _ _ _ | .pinReset _ | .chipReset | .supplyLoss | .bootFailure
      | .activationDue | .rescueStart | .rescuePortDetach | .frsFeedReturn _ => False
      | _ => True)) →
    step s = .next t →
    s.hrs.lock0 &&& t.hrs.lock0 = s.hrs.lock0 ∧ s.hrs.portLo &&& t.hrs.portLo = s.hrs.portLo ∧
    s.hrs.portHi &&& t.hrs.portHi = s.hrs.portHi

/-- No command is refused, and the only stop is the write that alters a reserved live field (R43): every other
command, in every state, answers a next state. -/
def Obligations.OnlyReservedWritesStop : Prop :=
  ∀ c s, (∃ t, exec c s = .next t) ∨ (exec c s = .fault .reservedLiveWrite ∧ s.hostWrites = true ∧ (match c with
    | .registerWrite _ _ | .lockBitSet _ _ | .tmuxSelWrite _ _ | .padHoldRelease _ | .regWrite _ _ _
    | .spiWriteFrame _ => True
    | _ => False))

/-- A row of the catalogue whose mailbox does not hold its command, or may not start yet, changes nothing; a request
out of the catalogue's scope or length is answered BAD_PARAM and has no other effect; a command that would commit
waits while the journal is sealed (R5, R71, R271, R284, R286). -/
def Obligations.CatalogueRowsWaitOrRefuse : Prop :=
  (∀ mb op core s, (s.mb mb).runnable = false ∨ (s.mb mb).op ≠ op ∨ s.mayStart mb = false →
    runOp mb op core s = .next s) ∧
  (∀ mb op core i s, (s.mb mb).runnable = true → (s.mb mb).op = op → s.mayStart mb = true → opInfo op = some i →
    shapeBad s i ((s.mb mb).req mb) = true →
    runOp mb op core s = .next (answer mb (refusal .badParam [] s) s)) ∧
  (∀ mb op core i res u s, (s.mb mb).runnable = true → (s.mb mb).op = op → s.mayStart mb = true →
    opInfo op = some i → shapeBad s i ((s.mb mb).req mb) = false → s.boot.rescue = none →
    core ((s.mb mb).req mb) s = .commit res u → s.journal.sealed = true → runOp mb op core s = .next s) ∧
  -- a port above P15 is out of scope on the SVH16
  (∀ i chip p s, s.variant = .svh16 → chip < 64 → 16 ≤ p → p < 256 → i.scopes = [2] →
    targetOk s i (chip * 2 ^ 26 + 2 * 2 ^ 22 + p) = false)

/-- What an answer and a commit do (R72, R79, R84, R253 to R256): a refusal changes its mailbox alone; a commit carries
its effect, enters the result cache of 64, moves `CSEQ_HI`, is logged, and reports by events the credits of its data
units. -/
def Obligations.AnswersAndCommits : Prop :=
  (∀ mb st res s, finish mb (.refuse st res) s = answer mb { status := st, results := res, time32 := s.time32 } s ∧
    (∀ k, k ≠ mb → (finish mb (.refuse st res) s).mb k = s.mb k)) ∧
  (∀ mb res u s t, s.journal.sealed = false → t = finish mb (.commit res u) s →
    (t.mb mb).phase = .answered { committed := true, results := res, time32 := s.time32 } ∧
    (∀ k, k ≠ mb → t.mb k = u.mb k) ∧
    (∃ e ∈ t.cci.cache, e.cseq = (s.mb mb).cseq ∧ e.mb = mb) ∧
    (u.cci.cache.length ≤ 64 → t.cci.cache.length ≤ 64) ∧
    t.cci.cseqHi = (if newer32 (s.mb mb).cseq u.cci.cseqHi then (s.mb mb).cseq else u.cci.cseqHi) ∧
    t = { u with hrs := t.hrs, cci := t.cci, journal.logged := u.journal.logged + 1 })

/-- Events are numbered modulo 65,536, queued or dropped, in a queue of 256 records of 16 bytes (R89). Raising one sets
its pending bit, masked or not; with the queue full the record is dropped and counted, with the queue disabled nothing
is queued (R90). -/
def Obligations.EventRecordsAndSequence : Prop :=
  (∀ ev code d s, (raiseEvent ev code d s).cci.eseq = (s.cci.eseq + 1) % 65536) ∧
  (∀ ev code d s, s.cci.evq.length ≤ 256 → (raiseEvent ev code d s).cci.evq.length ≤ 256) ∧
  (∀ ev code d s, s.flag 0x220 0 = true → ev < 128 → s.cci.evq.length < 256 →
    (raiseEvent ev code d s).cci.evq = s.cci.evq ++
      [{ source := ev, code := code, eseq := s.cci.eseq, time32 := s.time32, detail := fit 8 d }]) ∧
  (∀ e : Event, e.source < 128 → e.code < 256 → e.eseq < 65536 → e.time32 < 4294967296 → e.detail.length = 8 →
    e.bytes.length = 16 ∧ u8 e.bytes 0 = e.source ∧ u8 e.bytes 1 = e.code ∧ u16 e.bytes 2 = e.eseq ∧
    u32 e.bytes 4 = e.time32 ∧ slice e.bytes 8 8 = e.detail) ∧
  (∀ ev code d s, ev < 128 → (raiseEvent ev code d s).flag (0x200 + ev / 32 * 4) (ev % 32) = true) ∧
  (∀ ev code d s, ev < 128 → s.flag 0x220 0 = true → 256 ≤ s.cci.evq.length →
    (raiseEvent ev code d s).cci.evq = s.cci.evq ∧ (raiseEvent ev code d s).flag 0x220 11 = true ∧
    (raiseEvent ev code d s).fld 0x228 31 16 = min (s.fld 0x228 31 16 + 1) 65535) ∧
  (∀ ev code d s, ev < 128 → s.flag 0x220 0 = false → (raiseEvent ev code d s).cci.evq = s.cci.evq) ∧
  -- nothing but the registers and the event queue changes
  (∀ ev code d s, raiseEvent ev code d s =
    { s with hrs := (raiseEvent ev code d s).hrs, cci := (raiseEvent ev code d s).cci })

/-- A query never commits: whatever it is asked, it changes its own mailbox at most, and its answer carries
`COMMITTED` 0 (R254). -/
def Obligations.QueryCommandsFrame : Prop :=
  ∀ mb s t c, c ∈ ([.sysInfo mb, .angStatus mb, .portStatus mb, .devList mb, .devInfo mb, .chanInfo mb, .chanLatest mb,
      .chanHistory mb, .pwrStatus mb, .pdStatus mb, .canStatus mb, .integStatus mb, .integLog mb, .faultStatus mb,
      .wardenStatus mb, .domList mb, .domStatus mb, .domKeeper mb, .fwInfo mb, .profRead mb, .linkStatus mb,
      .testResult mb] : List Instr) →
    exec c s = .next t → t = s ∨ ∃ r, r.committed = false ∧ t = answer mb.val r s

/-- In the safe state every host write is ignored, and sets no flag (R449); an SPI write frame leaves its status
byte. -/
def Obligations.SafeStateIgnoresWrites : Prop :=
  (∀ s c off val mask bytes pat, s.warden.safe = true → c ∈ ([.registerWrite off val, .lockBitSet off val,
      .bitAliasWrite off val, .tmuxSelWrite off val, .padHoldRelease val, .ltnClr, .campClear, .campForce pat,
      .doorbellRing mask, .cciDoneWrite mask, .abortReqWrite mask, .dataUnit bytes,
      .commandPipeTransfer bytes] : List Instr) →
    exec c s = .next s) ∧
  -- a vendor request out of range is still answered with a stall of the control pipe (R55)
  (∀ s (off : BitVec 16) len bytes, s.warden.safe = true →
    exec (.regWrite off len bytes) s = .next s ∨
      (rangeBad off.toNat len = true ∧ exec (.regWrite off len bytes) s = .next (pipeAnswer true s))) ∧
  (∀ s b, s.warden.safe = true →
    exec (.spiWriteFrame b) s = .next s ∨ ∃ n, exec (.spiWriteFrame b) s = .next (spiStatus n s))

/-- A write of another value into a reserved live field: the spec gives no behaviour after it, and the model stops
(R43). The field reads 0, so any 1 is another value (log 14). -/
def Obligations.ReservedLiveWriteStops : Prop :=
  (∀ (off : BitVec 16) (val : Word) s, s.hostWrites = true → off.toNat % 4 = 0 → off.toNat < 0x1000 →
    (off.toNat < 0x1C0 ∨ 0x200 ≤ off.toNat) → (off.toNat < 0xE00 ∨ 0xF00 ≤ off.toNat) →
    val.toNat &&& rsvMask s.variant off.toNat ≠ 0 →
    exec (.registerWrite off val) s = .fault .reservedLiveWrite) ∧
  -- an open expert window stops too
  (∀ (off : BitVec 16) (val : Word) s, s.hostWrites = true → off.toNat % 4 = 0 → 0x4000 ≤ off.toNat →
    off.toNat < 0x6000 → s.windowOpen (off.toNat / 0x1000 - 1) = true →
    val.toNat &&& rsvMask s.variant off.toNat ≠ 0 →
    exec (.registerWrite off val) s = .fault .reservedLiveWrite)

/-- 0x7000 to 0x7FFF reads 0 and ignores writes, 0x0F00 to 0x0FFF is reserved live throughout (R33); an alias write of
a reserved live bit is ignored and sets no flag (R47). -/
def Obligations.ReservedRegions : Prop :=
  (∀ (off : BitVec 16) s, s.hostOn = true → off.toNat % 4 = 0 → 0x7000 ≤ off.toNat → off.toNat < 0x8000 →
    Tbl.getD none s.hrs.latched off.toNat = none →
    ∃ t, exec (.rcFieldRead off) s = .next t ∧ t.rdata = [0, 0, 0, 0]) ∧
  (∀ (off : BitVec 16) (val : Word) s, off.toNat % 4 = 0 → 0x7000 ≤ off.toNat → off.toNat < 0x8000 →
    exec (.registerWrite off val) s = .next s) ∧
  (∀ v off, 0xF00 ≤ off → off < 0x1000 → rsvMask v off = 0xFFFFFFFF) ∧
  (∀ (off : BitVec 16) (val : Word) s, off.toNat % 4 = 0 →
    bit (rsvMask s.variant (mirrorBit off.toNat).1) (mirrorBit off.toNat).2 = true →
    exec (.bitAliasWrite off val) s = .next s)

/-- The CRC-8 of the SPI frames is the remainder of the message, eight places up, by x^8 + x^2 + x + 1: the message
and the CRC together are a sum of shifted copies of the polynomial (R58). -/
def Obligations.CrcIsTheRemainder : Prop :=
  ∀ l : List Byte, crc8 l < 256 ∧ ∃ ks : List Nat,
    (l.foldl (fun n b => n * 256 + b.toNat) 0 * 256) ^^^ crc8 l = ks.foldl (fun a k => a ^^^ 0x107 * 2 ^ k) 0

/-- `sys.resync`: it clears `RESYNC_PEND`, and its results stand where R104 has them. -/
def Obligations.ResyncResults : Prop :=
  (∀ i, opInfo 0x0002 = some i → i.pmin = 0 ∧ i.pmax = 0) ∧
  ∀ mb r s, Ready mb.val 0x0002 r s → ∃ res t,
    exec (.sysResync mb) s = .next (finish mb (.session res t) s) ∧
    t.cci.resyncPend = false ∧ t.restarts = 0 ∧ res.length = 24 ∧
    u32 res 0 = s.keeper.epoch % 4294967296 ∧ u32 res 4 = s.cci.cseqHi % 4294967296 ∧
    u32 res 8 = s.cci.evictHi % 4294967296 ∧ u8 res 12 = s.cci.credits % 256 ∧
    u32 res 16 = s.restarts % 4294967296 ∧ u32 res 20 = t.mbstate % 4294967296

/-- What the `can.*`, `ang.*`, `fw.*` and `prof.*` commands leave unchanged, whatever they answer. The `can.*` commands touch
the controllers, their registers, the events and the log (R295, R371 to R388). The `ang.*` commands touch the clocks, no
other clock than the one named, the CAN frames armed on one that is disabled, and through their anchors the records and
events (R115, R125, R288). The `fw.*` and `prof.*` commands touch the images, the profile, the events and the log, and
never which slot runs or is confirmed (R299, R496, R497). -/
def Obligations.CommandFrames : Prop :=
  (∀ mb s t c, c ∈ ([.canConfig mb, .canEnable mb, .canFilter mb, .canTx mb, .canTxabort mb, .canRecover mb,
      .canAutobaud mb, .canStatus mb] : List Instr) →
    exec c s = .next t → t = { s with hrs := t.hrs, cci := t.cci, cans := t.cans, journal := t.journal }) ∧
  (∀ mb s t c, c ∈ ([.angConfig mb, .angEnable mb, .angStatus mb] : List Instr) →
    exec c s = .next t →
    t = { s with hrs := t.hrs, cci := t.cci, chicory := t.chicory, journal := t.journal, chans := t.chans,
                  cans := t.cans, campion := t.campion, power := t.power, integ := t.integ,
                  sched.syncs := t.sched.syncs } ∧
    t.chicory.wall = s.chicory.wall ∧
    (∀ n, (s.phoSpec n).tb ≠ tIndex ((s.mb mb.val).req mb.val).target → t.pho n = s.pho n) ∧
    ∀ k, k ≠ tIndex ((s.mb mb.val).req mb.val).target → t.ang k = s.ang k) ∧
  (∀ mb s t c, c ∈ ([.fwInfo mb, .fwBegin mb, .fwWrite mb, .fwVerify mb, .fwActivate mb, .fwCancel mb, .profRead mb,
      .profWrite mb] : List Instr) →
    exec c s = .next t →
    t = { s with hrs := t.hrs, cci := t.cci, boot := t.boot, journal := t.journal, freeCtr := t.freeCtr } ∧
    t.boot.running = s.boot.running ∧ t.boot.confirmed = s.boot.confirmed ∧ t.boot.otpThermo = s.boot.otpThermo)

/-- A mailbox window holds what is written to it, and no other mailbox changes; a read of one register changes the
registers' own state at most (R34, R63). -/
def Obligations.WindowsReadBack : Prop :=
  (∀ (n : Fin 8) (o : Fin 64) (val : Word) s, s.hostWrites = true → (s.mb n.val).state ≠ .posted → ∃ t,
    exec (.registerWrite (BitVec.ofNat 16 (0x400 + 0x100 * n.val + 4 * o.val)) val) s = .next t ∧
    t.regValue (0x400 + 0x100 * n.val + 4 * o.val) = val.toNat ∧
    ∀ m, m ≠ n.val → t.mb m = s.mb m) ∧
  (∀ (off : BitVec 16) s t, off.toNat < 0x8000 → exec (.rcFieldRead off) s = .next t →
    t = { s with rdata := t.rdata, hrs := t.hrs })

/-- Every chip-level start clears the locks and the session, seals nothing open, leaves the hub to boot, and keeps the
images and the record of its cause (R40, R48, R483). -/
def Obligations.StartsClearLocks : Prop :=
  ∀ cause full kk jk s, (chipStart cause full kk jk s).hrs.lock0 = 0 ∧ (chipStart cause full kk jk s).hrs.portLo = 0 ∧
    (chipStart cause full kk jk s).hrs.cause = cause ∧ (chipStart cause full kk jk s).cci.session = false ∧
    (∀ n, ((chipStart cause full kk jk s).mb n).state = .idle) ∧ (chipStart cause full kk jk s).boot.up = false ∧
    (chipStart cause full kk jk s).boot.slotA = s.boot.slotA ∧ (chipStart cause full kk jk s).boot.slotB = s.boot.slotB ∧
    (chipStart cause full kk jk s).pending = s.pending

/-- A change of a port's state reaches no other port, touches neither its power nor its negotiation, and is posted as
event code 1 of the port's source with the old and the new state (R141, R171). -/
def Obligations.PortStateChange : Prop :=
  (∀ p st cause s, st ≠ (s.port p).usb.st →
    ((setPortState p st cause s).port p).usb.st = st ∧ ((setPortState p st cause s).port p).pw = (s.port p).pw ∧
    ((setPortState p st cause s).port p).pd = (s.port p).pd ∧ (∀ q, q ≠ p → (setPortState p st cause s).port q = s.port q) ∧
    (setPortState p st cause s).cci.eseq = (s.cci.eseq + 1) % 65536) ∧
  (∀ p st cause s, p < 48 → st ≠ (s.port p).usb.st → s.flag 0x220 0 = true → s.cci.evq.length < 256 →
    ∃ e, (setPortState p st cause s).cci.evq = s.cci.evq ++ [e] ∧ e.source = p ∧ e.code = 1 ∧
      slice e.detail 0 2 = [byte (s.port p).usb.st, byte st]) ∧
  (∀ p cause s, setPortState p (s.port p).usb.st cause s = s)

/-- A channel numbers its records one by one modulo 65,536, whatever record commits, and never another channel's; a
record that is neither an equal reading nor without a place takes the next number (R259). -/
def Obligations.RecordNumbers : Prop :=
  (∀ slot r stamp s, (((commitRec slot r stamp s).chan slot).nextSeq = (s.chan slot).nextSeq ∨
      ((commitRec slot r stamp s).chan slot).nextSeq = ((s.chan slot).nextSeq + 1) % 65536) ∧
    ∀ n, n ≠ slot → (commitRec slot r stamp s).chan n = s.chan n) ∧
  (∀ slot r stamp s, (s.chan slot).change = false → s.noPlace slot r = none →
    ((commitRec slot r stamp s).chan slot).nextSeq = ((s.chan slot).nextSeq + 1) % 65536 ∧
    ((commitRec slot r stamp s).chan slot).lastRec =
      some { r with handle := s.handle slot, seq := (s.chan slot).nextSeq })

/-- An epoch break begins the next epoch, never 0, in the keeper and in NOR; the session ends, no transaction is one of
the new epoch (one that warden mode made VOID is still reported after it is left, R244), and `TXN` restarts from 1
(R236, R276 to R280, R292; that a transaction of the epoch before is none of
the new one is DEDUCED, log 22). -/
def Obligations.EpochBreakEffects : Prop :=
  (∀ n, nextEpoch n ≠ 0) ∧
  (∀ cause s, (epochBreak cause s).keeper.epoch = nextEpoch s.keeper.epoch ∧
    (epochBreak cause s).boot.norEpoch = nextEpoch s.keeper.epoch ∧
    (epochBreak cause s).cci.session = false ∧ (epochBreak cause s).cci.resyncPend = false ∧
    (epochBreak cause s).sched.txns = (if cause = 5 then s.sched.txns.filter (·.st == 4) else []) ∧
    (epochBreak cause s).sched.nextTxn = 1)

/-- The `sys.*` commands, decided when ready (R78, R79, R99, R103, R104, R280, R287).

For each of these, `exec` answers a next state under hypotheses on the state and the operands alone: sysHello,
sysResync, sysInfo, sysAbort, sysExpert, sysReset. -/
def Obligations.SessionCommandsComplete : Prop :=
  -- sys.hello opens the session: sequence numbers from its own, all credits, results of R103 and R280
  (∀ mb r s, Ready mb.val 0x0001 r s → s.cci.session = false →
    exec (.sysHello mb) s = .next (finish mb (.session
      (le 4 s.keeper.epoch ++ le 4 (r.cseq - 1) ++ le 4 (r.cseq - 1) ++ [byte 64, 1, 0, 0] ++
        le 4 s.rstcause ++ fit 16 s.cci.closing)
      { s with cci.session := true, cci.cseqHi := r.cseq - 1, cci.evictHi := r.cseq - 1, cci.credits := 64,
               cci.inq := [] }) s)) ∧
  -- on an open session it answers the present numbers and changes nothing
  (∀ mb r s, Ready mb.val 0x0001 r s → s.cci.session = true →
    exec (.sysHello mb) s = .next (finish mb (.session
      (le 4 s.keeper.epoch ++ le 4 s.cci.cseqHi ++ le 4 s.cci.evictHi ++ [byte s.avail, 0, 0, 0] ++
        le 4 s.rstcause ++ fit 16 s.cci.closing) s) s)) ∧
  (∀ mb r s, Ready mb.val 0x0002 r s → ∃ res,
    exec (.sysResync mb) s = .next (finish mb (.session res
      { s with cci.resyncPend := false, hrs.mgmtRestarts := 0, hrs.grpRestarts := 0 }) s) ∧
    slice res 0 13 = le 4 s.keeper.epoch ++ le 4 s.cci.cseqHi ++ le 4 s.cci.evictHi ++ [byte s.avail] ∧
    slice res 16 4 = le 4 s.restarts) ∧
  (∀ mb r s, Ready mb.val 0x0003 r s → ∃ res,
    exec (.sysInfo mb) s = .next (finish mb (.query res) s) ∧
    slice res 0 4 = le 2 0x3A5E ++ le 2 s.product ∧
    slice res 7 2 = [byte s.nPorts, byte s.nGroups]) ∧
  -- sys.abort is for MB7; it names MB0 to MB6
  (∀ r s, Ready 7 0x0004 r s →
    s.abortHeld (u8 r.params 0 % 128) = false →
    exec (.sysAbort 7) s = .next (finish 7 (.session (abortMask (u8 r.params 0 % 128) s).1
      (abortMask (u8 r.params 0 % 128) s).2) s)) ∧
  (∀ mb r s, Ready mb.val 0x0004 r s → mb ≠ 7 →
    exec (.sysAbort mb) s = .next (finish mb (.refuse .notPermitted []) s)) ∧
  -- sys.expert opens or closes one of the groups 0x01 to 0x0E
  (∀ mb r s, Ready mb.val 0x0005 r s → 1 ≤ u8 r.params 0 → u8 r.params 0 ≤ 0x0E → u8 r.params 1 ≤ 1 →
    exec (.sysExpert mb) s = .next (finish mb (.commit []
      (setExpert (u8 r.params 0) (u8 r.params 1 == 1) s)) s)) ∧
  -- sys.reset commits on its key word; the chip reset follows its response
  (∀ mb r s, Ready mb.val 0x0006 r s → u16 r.params 0 = 0x5A5A →
    exec (.sysReset mb) s = .next (finish mb (.commit [] s) s))

/-- The `ang.*` and `time.*` commands, decided when ready (R288, R119, R120).

For each of these, `exec` answers a next state under hypotheses on the state and the operands alone: angConfig,
angEnable, angStatus, timeSet, timeAdjust, timeDisc. -/
def Obligations.ClockCommandsComplete : Prop :=
  (∀ mb r s, Ready mb.val 0x0101 r s → tIndex r.target ≤ 3 → angCfgBad r = false →
    s.angRuns (tIndex r.target) = false →
    exec (.angConfig mb) s = .next (finish mb (.commit [] (angLoad (tIndex r.target) r s)) s)) ∧
  (∀ mb r s, Ready mb.val 0x0102 r s → tIndex r.target ≤ 3 → u8 r.params 0 = 1 →
    exec (.angEnable mb) s = .next (finish mb (.commit [] (angOn (tIndex r.target) s)) s)) ∧
  -- a clock in use is not disabled
  (∀ mb r s, Ready mb.val 0x0102 r s → tIndex r.target ≤ 3 → u8 r.params 0 = 0 →
    exec (.angEnable mb) s = .next (finish mb
      (if s.angRuns (tIndex r.target) && s.inUse (tIndex r.target) then .refuse .wrongState []
       else .commit [] (angOff (tIndex r.target) s)) s)) ∧
  (∀ mb r s, Ready mb.val 0x0103 r s → tIndex r.target ≤ 3 → ∃ res,
    exec (.angStatus mb) s = .next (finish mb (.query res) s) ∧
    slice res 0 1 = [byte (s.ang (tIndex r.target)).st] ∧
    slice res 4 12 = le 4 ((s.ang (tIndex r.target)).rate / 1000000) ++ le 6 (s.ang (tIndex r.target)).cycle ++
      le 2 (s.ang (tIndex r.target)).angle) ∧
  (∀ mb r s, Ready mb.val 0x0111 r s → tIndex r.target = 4 →
    exec (.timeSet mb) s = .next (finish mb (.commit (le 8 s.chicory.wall.ns)
      { wallPair (wallStep (u64 r.params 0) s) with
        chicory := { (wallPair (wallStep (u64 r.params 0) s)).chicory with
          wall := { (wallPair (wallStep (u64 r.params 0) s)).chicory.wall with valid := true } } }) s)) ∧
  -- an offset beyond 1 s is refused; the slew takes the place of one still running
  (∀ mb r s, Ready mb.val 0x0112 r s → tIndex r.target = 4 →
    exec (.timeAdjust mb) s = .next (finish mb
      (if 1000000000 < (signed 64 (u64 r.params 0)).natAbs then .refuse .badParam []
       else .commit (le 4 (((signed 64 (u64 r.params 0)).natAbs + 499) / 500))
         { s with chicory.wall.slew := signed 64 (u64 r.params 0) * 10000000 }) s)) ∧
  (∀ mb r s, Ready mb.val 0x0113 r s → tIndex r.target = 4 → u8 r.params 0 ≤ 2 → u8 r.params 1 ≤ 1 →
    1 ≤ u16 r.params 2 → u16 r.params 2 ≤ 6000 → u8 r.params 4 ≤ 1 → s.flag 0x1100 0 = false →
    exec (.timeDisc mb) s = .next (finish mb (.commit []
      (if u8 r.params 4 = 1
       then wallOn (s.setReg 0x1104 (u8 r.params 0 + u8 r.params 1 * 4 + u16 r.params 2 * 65536))
       else wallOff (s.setReg 0x1104 (u8 r.params 0 + u8 r.params 1 * 4 + u16 r.params 2 * 65536)))) s))

/-- The `phase.*` commands, decided when ready (R131, R132, R133, R138, R288).

For each of these, `exec` answers a next state under hypotheses on the state and the operands alone: phaseSet,
phasePsync, phaseCapture, phaseLink. -/
def Obligations.PhaseCommandsComplete : Prop :=
  (∀ mb r s, Ready mb.val 0x0121 r s → u8 r.params 0 ≤ 15 → u8 r.params 1 ≤ 1 → u8 r.params 3 ≤ 3 →
    u32 r.params 12 < 2 ^ 24 →
    phoBad (u8 r.params 2) (u32 r.params 4) (u32 r.params 8) (u32 r.params 12) (bit (u8 r.params 3) 0) = false →
    ∃ t, exec (.phaseSet mb) s = .next (finish mb (.commit []
        (if u8 r.params 1 = 1 then phoOn (u8 r.params 0) t else phoOff (u8 r.params 0) t)) s) ∧
      t.fld (phoBase (u8 r.params 0)) 4 2 = u8 r.params 2 ∧
      t.reg (phoBase (u8 r.params 0) + 4) = u32 r.params 4 ∧
      t.reg (phoBase (u8 r.params 0) + 8) = u32 r.params 8 ∧
      t.reg (phoBase (u8 r.params 0) + 12) = u32 r.params 12 ∧
      (∀ off, off / 16 ≠ phoBase (u8 r.params 0) / 16 → t.reg off = s.reg off)) ∧
  -- posted: the write waits for the port die
  (∀ mb r s, Ready mb.val 0x0122 r s → u8 r.params 0 ≤ 1 → u8 r.params 1 ≤ 1 → u8 r.params 2 ≤ 1 →
    1 ≤ u16 r.params 4 → s.flag (psyncReg (tIndex r.target)) 0 = false →
    exec (.phasePsync mb) s = .next (finish mb (.commit [] { s with hrs.posted := s.hrs.posted ++
      [{ dom := if tIndex r.target < 24 then 1 else 2, off := 0x1300 + 4 * tIndex r.target
         val := BitVec.ofNat 32 (u8 r.params 0 + u8 r.params 1 * 4 + u8 r.params 2 * 8 +
           u16 r.params 4 * 16) }] }) s)) ∧
  (∀ mb r s, Ready mb.val 0x0123 r s → u8 r.params 0 ≤ 7 → u8 r.params 1 ≤ 1 → u8 r.params 2 ≤ 2 →
    u8 r.params 3 ≤ 4 → s.flag (pcapBase (u8 r.params 0)) 0 = false →
    exec (.phaseCapture mb) s = .next (finish mb (.commit [] (s.setReg (pcapBase (u8 r.params 0))
      (u8 r.params 1 + u8 r.params 2 * 4 + s.fld (pcapBase (u8 r.params 0)) 11 8 * 256 + u8 r.params 3 * 4096 +
        (if r.expert then u8 r.params 4 else 10) * 65536))) s)) ∧
  (∀ mb r s, Ready mb.val 0x0124 r s → u8 r.params 0 ≤ 7 → u8 r.params 1 ≤ 15 → u16 r.params 4 ≤ 4095 →
    ∃ t, exec (.phaseLink mb) s = .next (finish mb (.commit [] t) s) ∧
      t.fld 0x1504 11 0 = u16 r.params 4 ∧ t.fld 0x1504 19 16 = u8 r.params 1 ∧
      t.fld 0x1504 31 24 = u8 r.params 2 ∧
      t.flag 0x1500 0 = bit (u8 r.params 0) 0 ∧ t.flag 0x1500 2 = bit (u8 r.params 0) 1 ∧
      t.flag 0x1504 20 = bit (u8 r.params 0) 2)

/-- The `port.*` commands, decided when ready (R150, R162, R163, R165, R289). `p` is the port the target names.

For each of these, `exec` answers a next state under hypotheses on the state and the operands alone: portMode,
portReset, portSuspend, portResume, portStatus, portCfg. -/
def Obligations.PortCommandsComplete : Prop :=
  -- port.mode to the mode held changes nothing; to TRANSPARENT or back it switches where nothing forbids it
  (∀ mb r s, Ready mb.val 0x0201 r s → u8 r.params 0 ≤ 1 →
    (u8 r.params 0 == 1) = (s.port (tIndex r.target)).usb.transparent →
    exec (.portMode mb) s = .next (finish mb (.commit [] s) s)) ∧
  (∀ mb r s, Ready mb.val 0x0201 r s → u8 r.params 0 = 0 → (s.port (tIndex r.target)).usb.transparent = true →
    (if tIndex r.target < 32 then bit s.hrs.portLo.toNat (tIndex r.target)
      else bit s.hrs.portHi.toNat (tIndex r.target - 32)) = false →
    exec (.portMode mb) s = .next (finish mb (.commit [] (switchMode (tIndex r.target) false s)) s)) ∧
  (∀ mb r s, Ready mb.val 0x0201 r s → u8 r.params 0 = 1 → (s.port (tIndex r.target)).usb.transparent = false →
    (if tIndex r.target < 32 then bit s.hrs.portLo.toNat (tIndex r.target)
      else bit s.hrs.portHi.toNat (tIndex r.target - 32)) = false →
    s.usbHost = true → s.safetyPort (tIndex r.target) = false → s.portSlots (tIndex r.target) = [] →
    s.childBehind (tIndex r.target) = false →
    exec (.portMode mb) s = .next (finish mb
      (if (s.onWire (tIndex r.target)).isSome then .commitWait (.portMode (tIndex r.target)) s
       else .commit [] (switchMode (tIndex r.target) true s)) s)) ∧
  (∀ mb r s, Ready mb.val 0x0202 r s → (s.port (tIndex r.target)).usb.transparent = false →
    7 ≤ (s.port (tIndex r.target)).usb.st →
    exec (.portReset mb) s = .next (finish mb (.commitWait (.portReset (tIndex r.target))
      ((s.portSlots (tIndex r.target)).foldl (fun s k => ctrlEnd k 1 s) (startReset (tIndex r.target) 3 s))) s)) ∧
  (∀ mb r s, Ready mb.val 0x0203 r s → (s.port (tIndex r.target)).usb.transparent = false →
    (s.port (tIndex r.target)).usb.st = 8 →
    (s.portSlots (tIndex r.target)).any (fun k => (s.chan k).st == 1) = false →
    exec (.portSuspend mb) s = .next (finish mb
      (if (s.onWire (tIndex r.target)).isSome then .commitWait (.portSuspend (tIndex r.target)) s
       else .commit [] (setPortState (tIndex r.target) 9 0 s)) s)) ∧
  (∀ mb r s, Ready mb.val 0x0204 r s → (s.port (tIndex r.target)).usb.transparent = false →
    exec (.portResume mb) s = .next (finish mb
      (if (s.port (tIndex r.target)).usb.st = 9 then
         .commitWait (.portResume (tIndex r.target)) (startResume (tIndex r.target) s)
       else .commit [1] s) s)) ∧
  (∀ mb r s, Ready mb.val 0x0205 r s → ∃ res,
    exec (.portStatus mb) s = .next (finish mb (.query res) s) ∧
    slice res 0 4 = [byte (s.port (tIndex r.target)).usb.st, byte (s.port (tIndex r.target)).usb.speed,
      byte (b2n (s.port (tIndex r.target)).usb.transparent), byte (s.port (tIndex r.target)).usb.cause]) ∧
  -- bytes 1 and 2 are honoured at expert level only; else 50 ms and 20 ms
  (∀ mb r s, Ready mb.val 0x0206 r s → u8 r.params 0 ≤ 1 → r.expert = false →
    exec (.portCfg mb) s = .next (finish mb (.commit []
      (s.setReg (portBase (tIndex r.target) + 4) (u8 r.params 0 + 50 * 256 + 20 * 65536))) s)) ∧
  (∀ mb r s, Ready mb.val 0x0206 r s → u8 r.params 0 ≤ 1 → r.expert = true → 10 ≤ u8 r.params 1 →
    u8 r.params 1 ≤ 200 → 10 ≤ u8 r.params 2 → u8 r.params 2 ≤ 20 →
    exec (.portCfg mb) s = .next (finish mb (.commit [] (s.setReg (portBase (tIndex r.target) + 4)
      (u8 r.params 0 + u8 r.params 1 * 256 + u8 r.params 2 * 65536))) s))

/-- The requests to the hub function for a transparent port, and those of the hub itself (R143, R146, R156, R158,
R160, R162, R163).

For each of these, `exec` answers a next state under hypotheses on the state and the operands alone:
setPortFeaturePortReset, setPortFeaturePortSuspend, clearPortFeaturePortSuspend, clearPortFeaturePortEnable,
setPortFeaturePortIndicator, setPortFeaturePortTest, alternateSettingChange, hubSetConfiguration. -/
def Obligations.HubRequestsComplete : Prop :=
  (∀ h s p, s.hubPortOf h.val = some p → h.val ≠ s.embeddedPort → 7 ≤ (s.port p).usb.st →
    exec (.setPortFeaturePortReset h) s = .next (startReset p 2 s)) ∧
  (∀ h s p, s.hubPortOf h.val = some p → h.val ≠ s.embeddedPort → (s.port p).usb.st = 8 →
    exec (.setPortFeaturePortSuspend h) s = .next
      ((setPortState p 9 0 (wireDrop p s)).modUsb p fun u => { u with selSusp := true })) ∧
  (∀ h s p, s.hubPortOf h.val = some p → h.val ≠ s.embeddedPort → (s.port p).usb.st = 9 →
    exec (.clearPortFeaturePortSuspend h) s = .next (startResume p s)) ∧
  (∀ h s p, s.hubPortOf h.val = some p → (s.port p).usb.st = 8 ∨ (s.port p).usb.st = 9 →
    exec (.clearPortFeaturePortEnable h) s = .next
      ((setPortState p 7 0 s).modUsb p fun u => { u with resuming := 0, remoteWake := false, selSusp := false })) ∧
  (∀ h sel s p, s.hubPortOf h.val = some p →
    exec (.setPortFeaturePortIndicator h sel) s = .next (s.modUsb p fun u => { u with indicator := sel.val })) ∧
  (∀ h sel s p, s.hubPortOf h.val = some p →
    exec (.setPortFeaturePortTest h sel) s = .next (s.modUsb p fun u => { u with testSel := sel.val })) ∧
  -- at the end of the split transactions still outstanding, with the translators' buffers discarded
  (∀ alt busy s, exec (.alternateSettingChange alt busy) s = .next { s.elapse busy with
    hub.multiTt := alt.val == 1, hub.splits := 0, hub.tt := [] }) ∧
  (∀ s, s.usbHost = true →
    exec (.hubSetConfiguration false) s = .next { s with hub.configured := false }) ∧
  -- the embedded port: the Caside function suspends alone, and its reset cuts the session
  (∀ h s, h.val = s.embeddedPort → s.usbHost = true →
    exec (.setPortFeaturePortReset h) s = .next (embeddedReset s) ∧
    exec (.setPortFeaturePortSuspend h) s = .next { s with hub.casideSuspended := true } ∧
    exec (.clearPortFeaturePortSuspend h) s = .next { s with hub.casideSuspended := false })

/-- Connection, reset and the speed it settles on a port; suspend of the whole hub, surges and babble (R142 to R148,
R161, R163 to R165, R168 to R170).

For each of these, `exec` answers a next state under hypotheses on the state and the operands alone: connectSensed,
connectDebounceEnd, resetEnd, usbDisconnect, remoteWake, resumeEnd, resumeRecoveryEnd, globalSuspend, upstreamResume,
surgeRecovery, babble, babbleReset. -/
def Obligations.PortConnectionRowsComplete : Prop :=
  (∀ p pull s, (s.port p.val).usb.st = 6 → (s.port p.val).pd.done = true → (s.port p.val).usb.running = true →
    (s.port p.val).usb.transparent = false →
    exec (.connectSensed p pull) s = .next
      (let t := connectWake p.val (s.modUsb p.val fun u => { u with pull := match pull with | .dp => 1 | .dm => 2 })
       t.modUsb p.val fun u => { u with debounce := some t.tick })) ∧
  (∀ p t s, (s.port p.val).usb.debounce = some t → (s.port p.val).usb.transparent = false →
    s.groupUp (p.val / 8) = true →
    exec (.connectDebounceEnd p) s = .next
      (startReset p.val 1 (s.waitUntil (t + ticksMs (s.fld (portBase p.val + 4) 15 8))))) ∧
  -- a chirp the device answers, or that it does not make
  (∀ p chirp s w, (s.port p.val).usb.resetting = some w → chirp ≠ .unswitched →
    exec (.resetEnd p chirp) s = .next
      (let t := s.waitUntil ((s.port p.val).usb.resetAt + ticksMs (s.fld (portBase p.val + 4) 20 16))
       let speed := resetSpeed p.val chirp t
       completeWhere (fun w => w == .portReset p.val) .ok [byte speed]
         (hubChange p.val 16 (setPortState p.val 8 0 (t.modUsb p.val fun u => { u with
           resetting := none, speed := speed, enumerated := false, sofAt := t.tick }))))) ∧
  (∀ p chirp s w, (s.port p.val).usb.resetting = some w →
    ∃ t, exec (.resetEnd p chirp) s = .next t ∧
      (t.port p.val).usb.st = 8 ∧ (t.port p.val).usb.resetting = none ∧
      (t.port p.val).usb.speed = resetSpeed p.val chirp
        (s.waitUntil ((s.port p.val).usb.resetAt + ticksMs (s.fld (portBase p.val + 4) 20 16)))) ∧
  (∀ p s, (s.port p.val).usb.pull ≠ 0 → (s.port p.val).usb.ccAtt = true → 7 ≤ (s.port p.val).usb.st →
    exec (.usbDisconnect p .pullUp) s = .next (setPortState p.val 6 0 (portGone p.val 1
      (((usbEnd p.val 1 s).incFld (portBase p.val + 12) 23 16).modUsb p.val fun u => { u with
        pull := 0, totDisc := satInc u.totDisc 255, selSusp := false })))) ∧
  -- an external hub's port loses its device or trips: every device behind it is gone
  (∀ p hub1 hub2 oc s, (s.port p.val).usb.st = 8 → (s.port p.val).usb.transparent = false →
    (s.port p.val).usb.enumerated = true → s.groupUp (p.val / 8) = true → hub1 ≠ 0 →
    exec (.usbDisconnect p (.hubPort hub1 hub2 oc)) s = .next (hubPortLost p.val hub1 hub2 s)) ∧
  (∀ p s, (s.port p.val).usb.st = 9 → (s.port p.val).usb.transparent = false →
    exec (.remoteWake p) s = .next ((startResume p.val (connectWake p.val s)).modUsb p.val fun u => { u with remoteWake := true })) ∧
  (∀ p s, (s.port p.val).usb.resuming = 1 →
    ∃ t, exec (.resumeEnd p) s = .next t ∧ (t.port p.val).usb.st = 8 ∧
      (t.port p.val).usb.resuming = (if (s.port p.val).usb.transparent then 0 else 2)) ∧
  (∀ p s, (s.port p.val).usb.resuming = 2 →
    exec (.resumeRecoveryEnd p) s = .next (completeWhere (fun w => w == .portResume p.val) .ok [0]
      (activateHeld p.val
        ((s.waitUntil ((s.port p.val).usb.resetAt + ticksMs 10)).modUsb p.val fun u => { u with resuming := 0 })))) ∧
  (∀ rwake caside s, s.usbHost = true → s.hub.suspended = false →
    exec (.globalSuspend rwake caside) s = .next ((List.range s.nPorts).foldl (fun s p =>
      if (s.port p).usb.transparent && (s.port p).usb.st == 8 then setPortState p 9 0 (wireDrop p s) else s)
      { s with hub.suspended := true, hub.rwake := rwake, hub.casideRwake := caside })) ∧
  (∀ s, s.hub.suspended = true →
    exec .upstreamResume s = .next ((List.range s.nPorts).foldl (fun s p =>
      if (s.port p).usb.transparent && (s.port p).usb.st == 9 && !(s.port p).usb.selSusp then
        (setPortState p 8 0 (if (s.port p).usb.remoteWake then hubChange p 4 s else s)).modUsb p fun u =>
          { u with resuming := 0, remoteWake := false }
      else s) { s with hub.suspended := false, hub.resumeUp := false, cci.wakeUp := false })) ∧
  -- after 1 ms without a further signature an enabled concentrated port is reset, and the recovery counts
  (∀ p t s, (s.port p.val).usb.surgeAt = some t → (s.port p.val).usb.st = 8 →
    (s.port p.val).usb.transparent = false →
    recoveryFull p.val ((s.waitUntil (t + ticksMs 1)).modUsb p.val fun u => { u with surgeAt := none }) = false →
    exec (.surgeRecovery p) s = .next
      (let v := (noteRecovery p.val ((s.waitUntil (t + ticksMs 1)).modUsb p.val fun u =>
         { u with surgeAt := none })).incFld (portBase p.val + 12) 15 8
       let w := v.modUsb p.val fun u => { u with totSurgeResets := satInc u.totSurgeResets 255 }
       startReset p.val 4 ((w.portSlots p.val).foldl (fun s k => ctrlEnd k 1 s) w))) ∧
  -- a first babble: ERROR with cause 4, its event, and the hub's one reset to come
  (∀ p s, (s.port p.val).usb.st = 8 → (s.port p.val).usb.transparent = false →
    (s.port p.val).usb.babbleReset = none →
    exec (.babble p) s = .next
      ((setPortState p.val 10 4 (raiseEvent p.val 6 [] ((wireDrop p.val s).setFlag (portBase p.val) 13))).modUsb
        p.val fun u => { u with
          babbleAt := some (setPortState p.val 10 4
            (raiseEvent p.val 6 [] ((wireDrop p.val s).setFlag (portBase p.val) 13))).tick
          babbleReset := none })) ∧
  -- a second within 1 s of that reset: the devices are gone, reason 4, and no reset follows
  (∀ p t s, (s.port p.val).usb.st = 8 → (s.port p.val).usb.transparent = false →
    (s.port p.val).usb.babbleReset = some t →
    (setPortState p.val 10 4 (raiseEvent p.val 6 [] ((wireDrop p.val s).setFlag (portBase p.val) 13))).tick - t <
      ticksS 1 →
    exec (.babble p) s = .next (portGone p.val 4
      ((setPortState p.val 10 4 (raiseEvent p.val 6 [] ((wireDrop p.val s).setFlag (portBase p.val) 13))).modUsb
        p.val fun u => { u with babbleReset := none, babbleAt := none }))) ∧
  (∀ p t s, (s.port p.val).usb.babbleAt = some t → (s.port p.val).usb.st = 10 →
    (s.port p.val).usb.transparent = false →
    exec (.babbleReset p) s = .next
      ((startReset p.val 5 (((s.waitUntil (t + ticksMs 100)).portSlots p.val).foldl (fun s k => ctrlEnd k 1 s)
        (s.waitUntil (t + ticksMs 100)))).modUsb p.val fun u => { u with
          babbleAt := none, babbleReset := some (startReset p.val 5
            (((s.waitUntil (t + ticksMs 100)).portSlots p.val).foldl (fun s k => ctrlEnd k 1 s)
              (s.waitUntil (t + ticksMs 100)))).tick }))

/-- The `pwr.*` commands, decided when ready (R293, R306, R317, R323, R332, R333).

For each of these, `exec` answers a next state under hypotheses on the state and the operands alone: pwrOn, pwrOff,
pwrClear, pwrCurve, pwrRails, pwrPriority, pwrStagger, pwrStatus. -/
def Obligations.PowerCommandsComplete : Prop :=
  -- pwr.on: nothing on a port that is not held; else the hold ends and the order of R20 resumes
  (∀ mb r s, Ready mb.val 0x0601 r s → (s.port (tIndex r.target)).pw.held = false →
    exec (.pwrOn mb) s = .next (finish mb (.commit [] s) s)) ∧
  (∀ mb r s, Ready mb.val 0x0601 r s → (s.port (tIndex r.target)).pw.held = true →
    (s.port (tIndex r.target)).usb.st ≠ 0 →
    exec (.pwrOn mb) s = .next (finish mb (.commit []
      (s.modPw (tIndex r.target) fun w => { w with held := false })) s)) ∧
  -- pwr.off never touches a valid safety port
  (∀ mb r s, Ready mb.val 0x0602 r s →
    exec (.pwrOff mb) s = .next (finish mb
      (if s.safetyPort (tIndex r.target) then .refuse .notPermitted []
       else .commit [] ((commandOff (tIndex r.target) s).modPw (tIndex r.target) fun w =>
         { w with held := true })) s)) ∧
  (∀ mb r s, Ready mb.val 0x0603 r s → (s.port (tIndex r.target)).usb.st = 3 →
    (s.port (tIndex r.target)).pw.voMv ≤ 1000 → (s.src (tIndex r.target)).st = 0 →
    exec (.pwrClear mb) s = .next (finish mb (.commit []
      (resumeCheck (tIndex r.target) (portInput (tIndex r.target) (setPortState (tIndex r.target) 0 0
        (s.modPw (tIndex r.target) fun w => { w with latch := 0, safeLatch := false, ladder := 0 }))))) s)) ∧
  (∀ mb r s, Ready mb.val 0x0604 r s → curveBad r = false → s.hrs.lock0.getLsbD 2 = false →
    ∃ t, exec (.pwrCurve mb) s = .next (finish mb (.commit [] t) s) ∧
      (∀ k < 8, t.reg (fuseBase (tIndex r.target) + 0x1C + 4 * k) =
        u16 r.params (8 + 8 * k) / 25 + u32 r.params (12 + 8 * k) * 512) ∧
      t.fld (fuseBase (tIndex r.target) + 4) 6 0 = u8 r.params 0 ∧
      t.fld (fuseBase (tIndex r.target) + 8) 9 0 = u16 r.params 2) ∧
  (∀ mb r s, Ready mb.val 0x0604 r s → curveBad r = false → s.hrs.lock0.getLsbD 2 = true →
    exec (.pwrCurve mb) s = .next (finish mb (.refuse .locked []) s)) ∧
  (∀ mb r s, Ready mb.val 0x0605 r s → u8 r.params 0 ∈ [9, 15, 20] → s.hrs.lock0.getLsbD 3 = false →
    s.hiInUse = false → ∃ t : State,
    exec (.pwrRails mb) s = .next (finish mb (.commit []
      (coverCheck { t with clover.lastFeed := b2n t.clover.carrying })) s) ∧
    t.reg 0x3C10 = u16 r.params 2 + u16 r.params 4 * 65536 ∧
    t.reg 0x3C14 = u16 r.params 6 + u16 r.params 6 * 65536 ∧
    t.railMv 1 = 1000 * u8 r.params 0) ∧
  -- class 0 is for the ports of the safety set
  (∀ mb r s, Ready mb.val 0x0606 r s → u8 r.params 0 ≤ 7 → s.hrs.lock0.getLsbD 3 = false →
    exec (.pwrPriority mb) s = .next (finish mb
      (if u8 r.params 0 == 0 && !s.isSafetyPort (tIndex r.target) then .refuse .notPermitted []
       else .commit [] (s.setFld (fuseBase (tIndex r.target) + 8) 18 16 (u8 r.params 0))) s)) ∧
  (∀ mb r s, Ready mb.val 0x0607 r s → 5 ≤ u16 r.params 0 → u16 r.params 0 ≤ 200 →
    exec (.pwrStagger mb) s = .next (finish mb (.commit [] (s.setFld 0x3C08 7 0 (u16 r.params 0))) s)) ∧
  (∀ mb r s, Ready mb.val 0x0608 r s → tScope r.target = 0 →
    exec (.pwrStatus mb) s = .next (finish mb (.query (le 2 ((s.feed 0).mv / 10) ++ le 2 ((s.feed 1).mv / 10) ++
      le 2 (s.railLoad 0) ++ le 2 (s.railLoad 1) ++ le 2 s.feedLoad ++ le 2 (s.feedBudget - s.feedLoad))) s)) ∧
  (∀ mb r s, Ready mb.val 0x0608 r s → tScope r.target = 2 → ∃ res,
    exec (.pwrStatus mb) s = .next (finish mb (.query res) s) ∧
    slice res 0 1 = [byte (s.port (tIndex r.target)).usb.st] ∧
    slice res 4 4 = le 2 (s.port (tIndex r.target)).pw.voMv ++ le 2 (s.port (tIndex r.target)).pw.grant)

/-- Grants, ramps and trips of a port, the host's power requests, pass-FET health, feeds, rails and shedding (R159,
R303 to R335).

For each of these, `exec` answers a next state under hypotheses on the state and the operands alone:
clearPortFeaturePortPower, setPortFeaturePortPower, budgetGrant, staggerSlotOpen, powerGood, inrushFail, pgLost,
itTrip, fastTrip, cooldownExpiry, ladderReset, stuckOn, gmgStuck, fetWarn, feedReverseOff, feedPresenceChange, feedOv,
railOutOfBand, railInBand, railPowerRemoval, railRestore, shed, shedRestore. -/
def Obligations.PortPowerRowsComplete : Prop :=
  (∀ h s p, s.hubPortOf h.val = some p → s.safetyPort p = false →
    exec (.clearPortFeaturePortPower h) s = .next
      ((commandOff p s).modUsb p fun u => { u with hostOff := true })) ∧
  (∀ h s p, s.hubPortOf h.val = some p → (s.port p).usb.hostOff = true → (s.port p).usb.st ≠ 0 →
    exec (.setPortFeaturePortPower h) s = .next (s.modUsb p fun u => { u with hostOff := false })) ∧
  -- the first waiting port is granted 2.5 W on the low rail, and its slot booked
  (∀ p w s, (s.port p.val).pw.waiting = some w → s.cloverRuns = true → s.firstWaiting p.val = true →
    s.fits p.val 0 25 = true → Tbl.getD none s.sched.inrush p.val = none →
    exec (.budgetGrant p) s = .next
      (grantPort p.val { s with sched.inrush := Tbl.setD none s.sched.inrush p.val none })) ∧
  (∀ p voMv b s, (s.port p.val).pw.booked = some (b, 0) → (s.port p.val).pw.grant ≠ 0 →
    s.flag (fuseBase p.val) 0 = true → (s.port p.val).pw.path = 0 → (s.port p.val).usb.st = 0 → senseVo voMv < 800 →
    exec (.staggerSlotOpen p voMv) s = .next (setPortState p.val 5 0
      ((gmgOn (p.val / 8) (s.waitUntil b)).modPw p.val fun w => { w with
        path := 1, toward := 0, limiting := true, rampAt := (s.waitUntil b).tick, voMv := senseVo voMv
        rampInrush := (s.waitUntil b).fld (fuseBase p.val + 4) 6 0
        rampTimer := (s.waitUntil b).fld (fuseBase p.val + 4) 14 8, coolUntil := none }))) ∧
  -- the gate 7 V above VO and VO at 93 % of the rail: power-good, POWERED
  (∀ p gateMv voMv railMv dropMv s, (s.port p.val).usb.st = 5 → senseVo voMv + 7000 ≤ gateMv →
    railMv * 93 ≤ senseVo voMv * 100 →
    ∃ t, exec (.powerGood p gateMv voMv railMv dropMv) s = .next t ∧ (t.port p.val).usb.st = 6 ∧
      (t.port p.val).pw.pgood = true ∧ (t.port p.val).pw.voMv = senseVo voMv ∧ (t.port p.val).pw.drop = dropMv) ∧
  (∀ p mA s, (s.port p.val).usb.st = 5 → 100 * (s.port p.val).pw.rampInrush ≤ mA →
    exec (.inrushFail p mA) s = .next (trip p.val 1 (senseMa mA) s)) ∧
  (∀ p voMv s, (s.port p.val).pw.pgood = true → (s.port p.val).pw.path = 1 → (s.rail 0).inBand = true →
    exec (.pgLost p voMv) s = .next (trip p.val 4 (s.port p.val).pw.mA.natAbs
      (s.modPw p.val fun w => { w with voMv := senseVo voMv }))) ∧
  (∀ p mA n s, (s.port p.val).pw.pgood = true → (s.port p.val).usb.st ≠ 4 →
    s.samplesToTrip p.val (senseMa mA) = some n →
    exec (.itTrip p mA) s = .next (trip p.val 2 (senseMa mA)
      ((s.modPw p.val fun w => { w with mA := (senseMa mA : Nat) }).elapse (1000 * n)))) ∧
  (∀ p mA s, (s.port p.val).pw.pgood = true → (s.port p.val).usb.st ≠ 4 →
    100 * s.fld (fuseBase p.val + 4) 22 16 ≤ mA →
    exec (.fastTrip p mA) s = .next (trip p.val 3 (senseMa mA) s)) ∧
  -- the timer of a held port expires: COOLDOWN ends in OFF, cause 2
  (∀ p t s, (s.port p.val).pw.coolUntil = some t →
    (s.port p.val).usb.st = 2 → (s.port p.val).pw.held = true →
    exec (.cooldownExpiry p) s = .next (setPortState p.val 0 2
      ((s.waitUntil t).modPw p.val fun w => { w with coolUntil := none }))) ∧
  (∀ p t s, (s.port p.val).pw.goodSince = some t →
    exec (.ladderReset p) s = .next ((s.waitUntil (t + ticksS 600)).modPw p.val fun w => { w with ladder := 0 })) ∧
  (∀ p voMv s, p.val < s.nPorts → (s.port p.val).pw.path = 0 → 1000 < senseVo voMv →
    (s.port p.val).usb.st ≠ 4 → (s.port p.val).pd.sink = false →
    exec (.stuckOn p voMv) s = .next (faultHold p.val (overCurrent p.val
      (raiseEvent p.val 0x11 ([1, 0] ++ le 2 (senseVo voMv) ++ [0])
        ((powerOff p.val 4 0 2 false s).modPw p.val fun w => { w with latch := 2, voMv := senseVo voMv }))))) ∧
  (∀ g i s, s.safetyGroup g.val = false → s.clover.gmgOn.contains g.val = true →
    (List.range 8).find? (fun k => (s.port (8 * g.val + k)).usb.st == 4) = some i →
    exec (.gmgStuck g) s = .next
      (let t := groupGatesOff g.val 3 (fun q => q == 8 * g.val + i) ((gmgOff g.val s).setFlag 0x3C00 (8 + g.val))
       raiseEvent (8 * g.val + i) 0x11 ([1, 0] ++ le 2 (t.port (8 * g.val + i)).pw.voMv ++ [1]) t)) ∧
  (∀ p dropMv mA s, 6 ≤ (s.port p.val).usb.st → 500 ≤ senseMa mA → s.fld (fuseBase p.val + 0x18) 9 0 < dropMv →
    exec (.fetWarn p dropMv mA) s = .next (raiseEvent p.val 0x12 ([0, 0] ++ le 2 dropMv ++ le 2 (senseMa mA))
      ((s.modPw p.val fun w => { w with drop := dropMv, mA := (senseMa mA : Nat) }).setFlag (fuseBase p.val) 12))) ∧
  (∀ f s, exec (.feedReverseOff f) s = .next (s.setFeed f.val { s.feed f.val with conducting := false })) ∧
  (∀ f mv s, 18000 ≤ mv → mv ≤ 60000 → (s.feed f.val).present = false → (s.feed f.val).overV = false →
    exec (.feedPresenceChange f mv) s = .next
      (let t := feedsSettle s (s.setFeed f.val { s.feed f.val with present := true, mv := mv })
       raiseEvent (60 + f.val) 1 ([byte 1, byte (b2n (t.clover.carrying == (f.val == 1)))] ++ le 2 (mv / 10))
         { t with clover.lastFeed := f.val })) ∧
  -- after an over-voltage: on again once the anode has stayed in range for 1 s
  (∀ f mv s, 18000 ≤ mv → mv ≤ 60000 → (s.feed f.val).present = true → (s.feed f.val).overV = true →
    exec (.feedPresenceChange f mv) s = .next
      (let t := (feedsSettle s (s.setFeed f.val { s.feed f.val with present := true, mv := mv })).elapse (ticksS 1)
       ovEnd f.val t)) ∧
  (∀ f mv s, 62000 < mv → (s.feed f.val).overV = false →
    exec (.feedOv f mv) s = .next (raiseEvent (60 + f.val) 2 ([0, 0] ++ le 2 (mv / 10))
      (faultPulse (60 + f.val) (s.setFeed f.val { s.feed f.val with overV := true, conducting := false, mv := mv })))) ∧
  (∀ r mv s, s.bandOk r.val mv = false → (s.rail r.val).inBand = true → r.val = 0 →
    exec (.railOutOfBand r mv) s = .next (raiseEvent (62 + r.val) 1 ([0, 0] ++ le 2 mv)
      (faultPulse (62 + r.val) (s.setRail r.val { s.rail r.val with inBand := false, mv := mv, since := s.tick })))) ∧
  (∀ r mv s, s.bandOk r.val mv = true → (s.rail r.val).inBand = false →
    exec (.railInBand r mv) s = .next
      (let t := raiseEvent (62 + r.val) 1 ([1, 0] ++ le 2 mv)
         (s.setRail r.val { s.rail r.val with inBand := true, mv := mv, since := s.tick })
       if r.val = 1 then reofferAll t else t)) ∧
  (∀ r s, (s.rail r.val).inBand = false → (s.rail r.val).removed = false →
    exec (.railPowerRemoval r) s = .next
      (let t := s.waitUntil ((s.rail r.val).since + ticksMs 100)
       ((t.ports.filter fun e => onRail e.2 r.val).map (·.1)).foldl
         (fun s p => (powerOff p 0 3 2 false s).modPw p fun w => { w with railLost := r.val + 1 })
         (t.setRail r.val { t.rail r.val with removed := true }))) ∧
  (∀ r s, (s.rail r.val).inBand = true → (s.rail r.val).removed = true →
    exec (.railRestore r) s = .next
      (let t := s.waitUntil ((s.rail r.val).since + ticksS 1)
       ((t.ports.filter fun e => e.2.pw.railLost == r.val + 1).map (·.1)).foldl (fun s p =>
         if ((s.modPw p fun w => { w with railLost := 0 }).port p).usb.st == 0 &&
             (s.modPw p fun w => { w with railLost := 0 }).mayPower p then
           requestGrant p (s.modPw p fun w => { w with railLost := 0 })
         else s.modPw p fun w => { w with railLost := 0 })
         (t.setRail r.val { t.rail r.val with removed := false }))) ∧
  -- the budget lies below the load: classes are shed from 7 down, counted, and told
  (∀ s, s.feedBudget < s.feedLoad → (shedDown 7 [] s).1 ≠ [] →
    exec .shed s = .next
      (let l := (shedDown 7 [] s).1
       let t := (shedDown 7 [] s).2
       let u := State.incFld { t with
         clover.shed := l.foldl (fun t c => addSorted c t) t.clover.shed
         clover.overV := !(t.feedLoad ≤ t.feedBudget), journal.logged := t.journal.logged + 1 } 0x3C20 31 16
       coverCheck (raiseEvent (60 + u.clover.lastFeed) 3 ([byte (maskOf l), 0] ++ le 2 u.feedBudget) u))) ∧
  (∀ s, s.clover.shed ≠ [] → s.covers = true → ∃ t,
    exec .shedRestore s = .next t ∧ t.clover.shed = [])

/-- The `pd.*` commands, decided when ready (R345, R350, R351, R355, R357, R360 to R363, R294).

For each of these, `exec` answers a next state under hypotheses on the state and the operands alone: pdStatus, pdCaps,
pdHardreset, pdSwap, pdFrs, pdMoist, pdAltmode. -/
def Obligations.NegotiationCommandsComplete : Prop :=
  (∀ mb r s, Ready mb.val 0x0701 r s → exec (.pdStatus mb) s = .next (finish mb (.query
    (let d := (s.port (tIndex r.target)).pd
     [byte d.contract, byte d.pos, byte d.rev, byte (b2n d.sink)] ++ le 2 d.mv ++ le 2 d.mA ++
       [byte d.mode, byte d.sbu, byte (b2n d.wetNow)])) s)) ∧
  (∀ mb r s, Ready mb.val 0x0702 r s → u8 r.params 0 ≤ 1 → 500 ≤ u16 r.params 2 → u16 r.params 2 ≤ 3000 →
    (s.port (tIndex r.target)).pw.pgood = false →
    exec (.pdCaps mb) s = .next (finish mb (.commit [] (s.modPd (tIndex r.target) fun d =>
      { d with offerHi := u8 r.params 0 == 1, maxMa := u16 r.params 2 })) s)) ∧
  (∀ mb r s, Ready mb.val 0x0703 r s → (s.port (tIndex r.target)).pd.partner = true →
    (s.port (tIndex r.target)).pw.path ≠ 0 →
    exec (.pdHardreset mb) s = .next (finish mb (.commit [] (hardReset (tIndex r.target) false 4 s)) s)) ∧
  (∀ mb r s, Ready mb.val 0x0704 r s → s.servicePort (tIndex r.target) = true →
    (s.port (tIndex r.target)).pd.contract = 2 → (s.port (tIndex r.target)).pd.sink = false →
    (s.port (tIndex r.target)).pd.swapping = false → (s.port (tIndex r.target)).pd.await = 0 →
    exec (.pdSwap mb) s = .next (finish mb (.commitWait (.pdSwap (tIndex r.target))
      ((ownSequence (tIndex r.target) (pdSend (tIndex r.target) .prSwap [] s)).modPd (tIndex r.target) fun d =>
        { d with swapping := true, await := 5 })) s)) ∧
  (∀ mb r s, Ready mb.val 0x0705 r s → u8 r.params 0 ≤ 1 →
    exec (.pdFrs mb) s = .next (finish mb
      (if s.servicePort (tIndex r.target) then .commit [] (frsCheck (tIndex r.target)
         (s.modPd (tIndex r.target) fun d => { d with frsArm := u8 r.params 0 == 1 }))
       else .refuse .notPermitted []) s)) ∧
  (∀ mb r s, Ready mb.val 0x0706 r s → 20 ≤ u16 r.params 0 → u16 r.params 0 ≤ 2000 → 1 ≤ u16 r.params 2 →
    u16 r.params 2 ≤ 3600 →
    exec (.pdMoist mb) s = .next (finish mb (.commit [] (s.modPd (tIndex r.target) fun d =>
      { d with threshold := u16 r.params 0, interval := u16 r.params 2 })) s)) ∧
  -- pd.altmode into a mode the partner listed and whose shape fits; FIELD_CAN on eight ports at most
  (∀ mb r v s, Ready mb.val 0x0707 r s → 1 ≤ u8 r.params 0 → u8 r.params 0 ≤ 2 →
    (s.port (tIndex r.target)).pd.contract = 2 → (s.port (tIndex r.target)).pd.entering = 0 →
    (s.port (tIndex r.target)).pd.await = 0 → u8 r.params 0 ≠ (s.port (tIndex r.target)).pd.mode →
    (s.port (tIndex r.target)).pd.vdo (u8 r.params 0) = some v →
    s.shapeOk (tIndex r.target) (u8 r.params 0) v = true →
    exec (.pdAltmode mb) s = .next (finish mb
      (if u8 r.params 0 == 2 && 8 ≤ s.fieldCanPorts then .refuse .noResource []
       else .commitWait (.altMode (tIndex r.target))
         (takeMode (tIndex r.target) (u8 r.params 0) s)) s))

/-- CC attach and detach, moisture and surge signatures (R20, R147, R166, R167, R322, R351 to R353).

For each of these, `exec` answers a next state under hypotheses on the state and the operands alone: ccAttach,
ccDetach, moistureReading, moistureInterval, surgeSignature. -/
def Obligations.AttachRowsComplete : Prop :=
  (∀ p s, (s.port p.val).usb.ccAtt = false → p.val < s.nPorts → (s.port p.val).pw.latch = 0 →
    (s.port p.val).pw.coolUntil = none →
    exec (.ccAttach p .sink) s = .next (resumeCheck p.val
      ((attachWake p.val (s.modUsb p.val fun u => { u with ccAtt := true })).modPd p.val fun d => { d with
        flipped := false, dry := 0, wetRun := 0 }))) ∧
  (∀ p s, (s.port p.val).usb.ccAtt = true →
    exec (.ccDetach p) s = .next
      ((portInput p.val (powerOff p.val 0 1 1 false (s.modUsb p.val fun u => { u with ccAtt := false }))).modPd
        p.val fun d => { d with
          hrst := 0, partner := false, rejects := 0, reoffers := 0, fallbackReason := 0, cycling := false
          check := false, dry := 0, wetRun := 0, wetNow := false })) ∧
  -- a pin at 80 % of the threshold or below is wet: the port enters WET and power is withheld
  (∀ p k1 k2 s, (s.port p.val).pd.check = true → s.warden.safe = false → 1 ≤ (s.port p.val).pd.threshold →
    5 * k1 ≤ 4 * (s.port p.val).pd.threshold → 4 * k2 ≥ 5 * (s.port p.val).pd.threshold →
    exec (.moistureReading p k1 k2) s = .next
      (let t := ((s.elapse (ticksMs 2)).modPd p.val fun d => { d with wetNow := true, readAt := (s.elapse (ticksMs 2)).tick })
       attachHeld p.val 3 (raiseEvent p.val 0x24 [1, byte 1, 0, 0] (setPortState p.val 1 0
         (t.modPd p.val fun d => { d with check := false, dry := 0 }))))) ∧
  -- in WET: after the third dry reading running the port leaves for OFF
  (∀ p k1 k2 s, (s.port p.val).usb.st = 1 → (s.port p.val).pd.dry = 2 → 1 ≤ (s.port p.val).pd.threshold →
    4 * k1 ≥ 5 * (s.port p.val).pd.threshold → 4 * k2 ≥ 5 * (s.port p.val).pd.threshold →
    ∃ t, exec (.moistureInterval p k1 k2) s = .next t ∧ (t.port p.val).usb.st = 0 ∧
      (t.port p.val).pd.wetNow = false) ∧
  (∀ p data cc vo s, p.val < s.nPorts → (data || cc) = true → (s.port p.val).usb.surgeAt = none →
    (s.port p.val).pd.atomic = false →
    exec (.surgeSignature p data cc vo) s = .next
      (let t := loopStop p.val 2 (wireDrop p.val s)
       let t := t.modUsb p.val fun u => { u with surgeAt := some t.tick }
       let t := (t.setFlag (portBase p.val) 11).incFld (portBase p.val + 12) 7 0
       let t := t.modUsb p.val fun u => { u with totSurges := satInc u.totSurges 255 }
       faultPulse p.val (strikeTest p.val true (raiseEvent p.val 2
         [byte (b2n data + 2 * b2n cc + 4 * b2n (vo && 6 ≤ (s.port p.val).usb.st))] t))))

/-- Offers, requests and contracts (R343 to R350).

For each of these, `exec` answers a next state under hypotheses on the state and the operands alone:
sourceCapabilitiesSend, request, psRdy, pdResponseTimeout, softReset, hardReset, hardResetWaitEnd, typeCOnlyFallback,
fallbackReoffer, hrstReset. -/
def Obligations.ContractRowsComplete : Prop :=
  (∀ p t s, s.offerDue p.val = some t → (s.port p.val).pd.rp ≠ 2 →
    exec (.sourceCapabilitiesSend p true) s = .next ((offer p.val (s.waitUntil (max t s.tick))).modPd p.val
      fun d => { d with partner := true, sends := 0, await := 2, atomic := true }) ∧
    exec (.sourceCapabilitiesSend p false) s = .next ((offer p.val (s.waitUntil (max t s.tick))).modPd p.val
      fun d => { d with sends := d.sends + 1, await := 1 })) ∧
  -- at SinkTxOk, SinkTxNG stands 20 ms before the offer
  (∀ p t s, s.offerDue p.val = some t → (s.port p.val).pd.rp = 2 →
    exec (.sourceCapabilitiesSend p true) s = .next
      ((offer p.val (s.waitUntil (max t s.tick + ticksMs 20))).modPd p.val
        fun d => { d with partner := true, sends := 0, await := 2, atomic := true })) ∧
  -- a request for object 1 within its ceiling, and the budget, on a port that stands on the low rail
  (∀ p rdo s, (s.port p.val).pw.pgood = true → (s.port p.val).pw.path = 1 → (s.port p.val).pd.sink = false →
    (s.port p.val).pd.await = 2 → (s.port p.val).pd.fallbackReason = 0 → bits rdo.toNat 30 28 = 1 →
    (s.port p.val).pd.offer1 ≠ 0 → bits rdo.toNat 19 10 ≤ (s.port p.val).pd.offer1 →
    bits rdo.toNat 9 0 ≤ (s.port p.val).pd.offer1 →
    (s.modPd p.val fun d => { d with partner := true, rev := 3, await := 0, atomic := false, sends := 0 }).fits
      p.val 0 (reqGrant 5000 (bits rdo.toNat 19 10)) = true →
    ∃ t, exec (.request p rdo false) s = .next t ∧ (t.port p.val).pd.sent = .accept ∧
      (t.port p.val).pd.await = 4 ∧ (t.port p.val).pd.newPos = 1 ∧ (t.port p.val).pd.newMv = 5000 ∧
      (t.port p.val).pd.newMa = 10 * bits rdo.toNat 19 10 ∧
      (t.port p.val).pw.grant = reqGrant 5000 (bits rdo.toNat 19 10)) ∧
  -- PS_RDY makes the accepted contract explicit, with its event
  (∀ p s, (s.port p.val).pd.newPos = 1 → (s.port p.val).pd.pos = 2 → (s.port p.val).pd.await = 4 →
    (s.port p.val).pw.pgood = true → (s.port p.val).pw.path = 1 → (s.port p.val).pd.frsArm = false →
    ∃ t, exec (.psRdy p) s = .next t ∧ (t.port p.val).pd.contract = 2 ∧ (t.port p.val).pd.pos = 1 ∧
      (t.port p.val).pd.mv = (s.port p.val).pd.newMv ∧ (t.port p.val).pd.mA = (s.port p.val).pd.newMa ∧
      (t.port p.val).pd.await = 0) ∧
  (∀ p s, (s.port p.val).pd.await = 2 → exec (.pdResponseTimeout p) s =
    .next (hardReset p.val false 1 (s.waitUntil ((s.port p.val).pd.sentAt + ticksMs 30)))) ∧
  (∀ p s, (s.port p.val).pd.await = 6 → exec (.pdResponseTimeout p) s =
    .next (enterFailed p.val (s.waitUntil ((s.port p.val).pd.sentAt + ticksMs 30)))) ∧
  (∀ p s, (s.port p.val).pw.pgood = true → (s.port p.val).pd.silent = false → exec (.softReset p true) s =
    .next (softReset p.val true 2 (s.modPd p.val fun d => { d with partner := true }))) ∧
  (∀ p s, (s.port p.val).pw.path ≠ 0 → (s.port p.val).pd.sink = false → s.rescue.port = none →
    exec (.hardReset p true) s = .next (hardReset p.val true 1 s)) ∧
  (∀ p s, (s.port p.val).pd.cycling = true → (s.port p.val).usb.ccAtt = false →
    exec (.hardResetWaitEnd p) s = .next ((s.waitUntil ((s.port p.val).pd.fellAt + ticksMs 700)).modPd p.val
      fun d => { d with cycling := false })) ∧
  (∀ p s, (s.port p.val).pw.pgood = true → (s.port p.val).pd.sink = false → (s.port p.val).pd.contract = 0 →
    (s.port p.val).pd.fallbackReason = 2 →
    exec (.typeCOnlyFallback p) s = .next (fallback p.val 2 s)) ∧
  (∀ p s, (s.port p.val).pw.pgood = true → (s.port p.val).pd.sink = false → (s.port p.val).pd.contract = 1 →
    (s.port p.val).pd.fallbackReason ≠ 2 → (s.port p.val).pd.reoffers < 10 →
    (s.port p.val).pd.await ≤ 1 →
    exec (.fallbackReoffer p) s = .next
      (let t := offer p.val (s.waitUntil (s.port p.val).pd.sendAt)
       t.modPd p.val fun d => { d with reoffers := d.reoffers + 1, await := 1, sendAt := t.tick + ticksS 2 })) ∧
  (∀ p s, (s.port p.val).pd.contract = 2 → (s.port p.val).pd.sink = false →
    exec (.hrstReset p) s = .next ((s.waitUntil ((s.port p.val).pd.explicitAt + ticksS 10)).modPd p.val
      fun d => { d with hrst := 0 }))

/-- Role swaps, modes, messages without a row of their own, and the rescue sequence (R340, R354 to R363).

For each of these, `exec` answers a next state under hypotheses on the state and the operands alone: prSwap, frSwap,
discoverIdentity, enterModeAck, partnerExitMode, pdMessageReceived, partnerSourceCapabilities, rescueVbus,
rescueRegulationCheck. -/
def Obligations.RoleAndModeRowsComplete : Prop :=
  (∀ p a s, (s.port p.val).pw.pgood = true → (s.port p.val).pd.silent = false → s.servicePort p.val = true →
    (s.port p.val).pd.swapping = false → (s.port p.val).pd.contract = 2 → (s.port p.val).pd.sink = false →
    exec (.prSwap p true a) s = .next
      (if (s.feed 0).present || (s.feed 1).present then raiseEvent p.val 0x23 [1, 1, 0] (pdSend p.val .reject [] s)
       else raiseEvent p.val 0x23 [1, 0, 1] (toSink p.val (pdSend p.val .accept [] s)))) ∧
  (∀ p s, (s.port p.val).pw.pgood = true → (s.port p.val).pd.silent = false → (s.port p.val).pd.swapping = true →
    exec (.prSwap p false .reject) s = .next (swapEnd p.val 1 (s.waitUntil (s.port p.val).pd.sentAt)) ∧
    exec (.prSwap p false .waitAnswer) s = .next (swapEnd p.val 2 (s.waitUntil (s.port p.val).pd.sentAt))) ∧
  (∀ p s, (s.port p.val).pd.frsEnabled = true →
    exec (.frSwap p) s = .next
      (let t := (toSink p.val (pdSend p.val .accept [] s)).modPd p.val fun d => { d with
         frsDone := true, mv := 5000, contract := 2, pos := 1 }
       raiseEvent p.val 0x23 [2, 0, 1] { t with rescue := { t.rescue with port := some p.val, en := true, frs := true } })) ∧
  -- a partner that is no UFP of this domain's SVID lists no mode
  (∀ p svid modes s, (s.port p.val).pd.discover = true → (s.port p.val).pd.contract = 2 →
    (s.port p.val).pd.await = 0 →
    exec (.discoverIdentity p false svid modes) s = .next
      ((pdSend p.val .discoverIdentity []
        (if (s.port p.val).pd.rp = 2 then s.elapse (ticksMs 20) else s)).modPd p.val
        fun d => { d with discover := false, vdo1 := none, vdo2 := none })) ∧
  (∀ p s, (s.port p.val).pd.await = 6 → (s.port p.val).pd.entering = 1 →
    ∃ t, exec (.enterModeAck p .ack) s = .next t ∧ (t.port p.val).pd.mode = 1 ∧ (t.port p.val).pd.sbu = 2 ∧
      (t.port p.val).pd.entering = 0) ∧
  (∀ p s, (s.port p.val).pd.mode ≠ 0 →
    exec (.partnerExitMode p) s = .next (pdSend p.val .vdmAck [] (sbuOpen p.val 4 s))) ∧
  (∀ p s, (s.port p.val).pw.pgood = true → (s.port p.val).pd.silent = false →
    exec (.pdMessageReceived p .unknown) s = .next (pdSend p.val .notSupported [] s) ∧
    exec (.pdMessageReceived p .drSwap) s = .next (pdSend p.val .reject [] s) ∧
    ((s.port p.val).pd.await = 1 → exec (.pdMessageReceived p .goodCrc) s =
      .next (s.modPd p.val fun d => { d with partner := true, sends := 0, await := 2, atomic := true })) ∧
    (s.servicePort p.val = true → exec (.pdMessageReceived p .getSinkCap) s =
      .next (pdSend p.val .sinkCapabilities [2 ^ 29 + 100 * 1024 + 300] s))) ∧
  -- outside a rescue a sink port requests object 1 at its full current up to 3 A
  (∀ p o l s, (s.port p.val).pd.sink = true → s.boot.up = true →
    ∃ t, exec (.partnerSourceCapabilities p (o :: l)) s = .next t ∧ (t.port p.val).pd.sent = .request ∧
      (t.port p.val).pd.await = 8 ∧ (t.port p.val).pd.newMv = 5000 ∧
      (t.port p.val).pd.newMa = min 3000 (10 * bits o.toNat 9 0)) ∧
  (∀ p mv s, s.boot.up = false → 4000 < mv → s.servicePort p.val = true → s.rescue.port = none →
    (s.feed 0).present = false → (s.feed 1).present = false →
    exec (.rescueVbus p mv) s = .next { toSink p.val (s.modUsb p.val fun u => { u with ccAtt := true }) with
      rescue := { port := some p.val, step := 1 } }) ∧
  (∀ p mv s, s.rescue.port = some p.val → s.rescue.step = 4 → s.rescue.en = true → 855 ≤ mv → mv ≤ 945 →
    exec (.rescueRegulationCheck p mv) s = .next { s.elapse (ticksMs 20) with
      rescue := { s.rescue with step := 5 } })

/-- The `chan.*` commands that open, close, pause and resume, decided when ready (R186 to R192, R199 to R202).

For each of these, `exec` answers a next state under hypotheses on the state and the operands alone: chanOpen,
chanClose, chanPause, chanResume, chanStopGroup, chanStartGroup. -/
def Obligations.ChannelLifeCommandsComplete : Prop :=
  -- an open whose parameters and admission pass takes the next slot; its handle and bound are told
  (∀ mb r c n t s, Ready mb.val 0x0401 r s → openParse s r.target r.params = .ok c →
    admitBoth s none c = 0 → c.periodic = true →
    openCommit (admitted (s.chanSet.map (·.2)) c) s = some (n, t) →
    exec (.chanOpen mb) s = .next (finish mb (.commit (le 4 (t.handle n) ++
      le 4 (admitted (s.chanSet.map (·.2)) c).lateBound ++ le 4 (admitted (s.chanSet.map (·.2)) c).pool ++
      zeros 4) t) s)) ∧
  -- one that fails admission is refused with the check's number, and nothing changes
  (∀ mb r c s, Ready mb.val 0x0401 r s → openParse s r.target r.params = .ok c → admitBoth s none c ≠ 0 →
    exec (.chanOpen mb) s = .next (finish mb (.refuse .noResource (zeros 15 ++ [byte (admitBoth s none c)])) s)) ∧
  (∀ mb r n s, Ready mb.val 0x0402 r s → u8 r.params 0 = 0 → s.slotOf r.target = some n → n ≠ 0 →
    exec (.chanClose mb) s = .next (finish mb (.commit (le 4 0)
      (if (s.chan n).st = 4 then s else closeNow n s)) s)) ∧
  -- with ABORT, no transaction on the wire: the records are discarded and counted, the slot closes
  (∀ mb r n s, Ready mb.val 0x0402 r s → u8 r.params 0 = 1 → s.slotOf r.target = some n → n ≠ 0 →
    s.slotOnWire n = false →
    exec (.chanClose mb) s = .next (finish mb
      (let t := (ctrlEnd n 4 (s.setChan n { s.chan n with closing := false, pausing := false })).modChan n
         fun c => { c with st := 4, due := [], built := [] }
       .commit (le 4 (discardRecords n t).1) (closeSlot n (discardRecords n t).2)) s)) ∧
  (∀ mb r n s, Ready mb.val 0x0403 r s → s.slotOf r.target = some n → n ≠ 0 → (s.chan n).st = 1 →
    exec (.chanPause mb) s = .next (finish mb
      (if s.slotOnWire n then .commitWait (.paused [n] []) (s.setChan n { s.chan n with pausing := true, due := [] })
       else .commit [] (s.setChan n { s.chan n with st := 2, due := [] })) s)) ∧
  (∀ mb ok r n s, Ready mb.val 0x0404 r s → s.slotOf r.target = some n → n ≠ 0 → (s.chan n).st = 2 →
    s.groupStopped (s.chan n).grp = false →
    exec (.chanResume mb ok) s = .next (finish mb (.commit [] (settlePauses (goOn n s))) s)) ∧
  -- a channel halted by a STALL resumes only once the device has cleared its endpoint, from DATA0
  (∀ mb ok r n s, Ready mb.val 0x0404 r s → s.slotOf r.target = some n → n ≠ 0 → (s.chan n).st = 3 →
    (s.chan n).cause = 2 → s.groupStopped (s.chan n).grp = false →
    exec (.chanResume mb ok) s = .next (finish mb
      (if ok then .commit [] (goOn n (s.setChan n { s.chan n with toggle := false })) else .refuse .wrongState []) s)) ∧
  (∀ mb r s, Ready mb.val 0x0405 r s → (s.group (tIndex r.target)).stopped = false →
    (s.chanSet.filter fun e => e.2.grp == tIndex r.target && e.2.st ≤ 1) = [] →
    exec (.chanStopGroup mb) s = .next (finish mb (.commit (le 2 0) (groupEvent (tIndex r.target) 8 [1]
      (s.setGroup (tIndex r.target) { s.group (tIndex r.target) with stopped := true }))) s)) ∧
  (∀ mb r s, Ready mb.val 0x0406 r s → (s.group (tIndex r.target)).stopped = true →
    exec (.chanStartGroup mb) s = .next (finish mb
      (let slots := (s.chanSet.filter fun e => e.2.grp == tIndex r.target && e.2.byStop &&
         (e.2.st == 2 || (e.2.st ≤ 1 && e.2.pausing))).map (·.1)
       .commit (le 2 slots.length) (groupEvent (tIndex r.target) 8 [0] (settlePauses (slots.foldl (fun s n =>
         goOn n s) (s.setGroup (tIndex r.target) { s.group (tIndex r.target) with stopped := false }))))) s))

/-- The `chan.*` commands that carry data, decided when ready (R195, R197, R198, R203, R263 to R266, R291).

For each of these, `exec` answers a next state under hypotheses on the state and the operands alone: chanCtrl,
chanWrite, chanInfo, chanLatest, chanHistory, chanAck, chanRewind. -/
def Obligations.ChannelDataCommandsComplete : Prop :=
  (∀ mb r n s, Ready mb.val 0x0407 r s → r.hasData = false → r.params.length ≤ 232 → u16 r.params 6 ≤ 2048 →
    s.slotOf r.target = some n → (s.chan n).kind = 3 → (s.chan n).st = 1 → (s.chan n).ctrl = none →
    exec (.chanCtrl mb) s = .next (finish mb (.commitWait (.ctrl n) (s.setChan n { s.chan n with
      ctrl := some { setup := r.params.take 8, out := r.params.drop 8
                     deadline := s.tick + ticksMs (50 * (s.chan n).ctrlTmo) } })) s)) ∧
  (∀ mb r n s, Ready mb.val 0x0408 r s → r.hasData = false → u16 r.params 0 = (r.params.drop 8).length →
    u8 r.params 2 ≤ 1 → s.slotOf r.target = some n → (s.chan n).kind = 2 → (s.chan n).ringed = false →
    (r.params.drop 8).length ≤ (s.chan n).payload → (s.chan n).st ≠ 4 → (s.chan n).unsent = none →
    exec (.chanWrite mb) s = .next (finish mb (.commit (le 4 0) (storeMem n 0 0 (r.params.drop 8).length
      (s.setChan n { s.chan n with outVal := r.params.drop 8, unsent := some (r.params.drop 8, false) }))) s)) ∧
  (∀ mb r n s, Ready mb.val 0x0409 r s → r.params = [] → s.slotOf r.target = some n → (s.chan n).st ≠ 4 →
    ∃ res, exec (.chanInfo mb) s = .next (finish mb (.query res) s) ∧
      slice res 0 8 = [byte (s.chan n).kind, byte (s.chan n).st,
        byte (if (s.chan n).st = 3 then (s.chan n).cause else 0), byte (s.chan n).deliver] ++
        le 2 (s.chan n).nextSeq ++ le 2 (s.chan n).oldest ∧ res.length = 60) ∧
  (∀ mb r n s, Ready mb.val 0x040A r s → s.slotOf r.target = some n → (s.chan n).toLatest = true →
    (s.chan n).st ≠ 4 →
    exec (.chanLatest mb) s = .next (finish mb (.query (match (s.chan n).latest with
      | none => zeros 16
      | some x => x.header ++ slice x.data (u16 r.params 0) 224)) s)) ∧
  (∀ mb r n s, Ready mb.val 0x040B r s → s.slotOf r.target = some n → (s.chan n).toHistory = true →
    (s.chan n).st ≠ 4 → (s.chan n).history = [] →
    exec (.chanHistory mb) s = .next (finish mb (.query []) s)) ∧
  (∀ mb r n x l s, Ready mb.val 0x040B r s → s.slotOf r.target = some n → (s.chan n).toHistory = true →
    (s.chan n).st ≠ 4 → (s.chan n).history = x :: l → x.seq = u16 r.params 0 → x.data.length ≤ 224 →
    exec (.chanHistory mb) s = .next (finish mb (.query (wholeRecords 240 (x :: l))) s)) ∧
  -- one range of delivered numbers of one channel
  (∀ mb r n s, Ready mb.val 0x0410 r s → u8 r.params 0 = 1 → r.params.length = 16 →
    tChip (u32 r.params 8) = tChip r.target → (u16 r.params 14 + 65536 - u16 r.params 12) % 65536 ≤ 32766 →
    s.slotOf (u32 r.params 8) = some n → n = hSlot (u32 r.params 8) →
    (rangeSeqs (ackRange r.params 0)).any (fun q => (s.chan n).notYet q) = false →
    exec (.chanAck mb) s = .next (finish mb
      (let t := ackSeqs n ((rangeSeqs (ackRange r.params 0)).filter fun q => (s.chan n).acksNow q) s
       .commit ([byte 1, 0xFF] ++ (zeros 2 ++ le 4 t.journal.free)) t) s)) ∧
  (∀ mb r n s, Ready mb.val 0x0411 r s → s.slotOf r.target = some n → (s.chan n).stream = true →
    (s.chan n).st ≠ 4 →
    exec (.chanRewind mb) s = .next (finish mb (.commit
      (le 2 (match (rewind n s).1 with
        | x :: _ => x.seq
        | [] => (s.chan n).nextSeq) ++ le 2 (rewind n s).1.length) (rewind n s).2) s))

/-- The `sched.*` commands, decided when ready (R236 to R245, R292).

For each of these, `exec` answers a next state under hypotheses on the state and the operands alone: schedBegin,
schedAdd, schedChange, schedCommit, schedCancel, schedReport. -/
def Obligations.ScheduleCommandsComplete : Prop :=
  -- one transaction at a time; its number is the next of the epoch, and 0 is never given
  (∀ mb r s, Ready mb.val 0x0501 r s → s.presentTxn = none →
    exec (.schedBegin mb) s = .next (finish mb (.commit (le 4 s.sched.nextTxn) { s with
      sched.txns := { txn := s.sched.nextTxn, lastUse := s.tick } ::
        s.sched.txns.filter (·.txn != s.sched.nextTxn)
      sched.nextTxn := if s.sched.nextTxn == 4294967295 then 1 else s.sched.nextTxn + 1 }) s)) ∧
  (∀ mb r i t s, Ready mb.val 0x0502 r s → parseItem s r = .ok i → s.namedTxn (u32 r.params 0) = some t →
    t.st = 0 → t.items.length < 64 →
    exec (.schedAdd mb) s = .next (finish mb (.commit [byte t.items.length]
      (s.setTxn { t with items := t.items ++ [i], lastUse := s.tick })) s)) ∧
  (∀ mb r p n t s, Ready mb.val 0x0503 r s → parseSpec (r.params.drop 8) = some p →
    s.slotOf r.target = some n → (s.chan n).periodic = true → (s.chan n).sched.tb = p.tb → (s.chan n).st ≠ 4 →
    s.namedTxn (u32 r.params 0) = some t → t.st = 0 → t.items.length < 64 →
    exec (.schedChange mb) s = .next (finish mb (.commit [byte t.items.length]
      (s.setTxn { t with items := t.items ++ [{ code := 6, target := r.target, body := r.params.drop 8
                                                spec := p, handle := r.target }]
                         lastUse := s.tick })) s)) ∧
  -- an empty transaction commits: PENDING at its apply point
  (∀ mb r t a s, Ready mb.val 0x0504 r s → u8 r.params 4 ≤ 1 → u8 r.params 5 ≤ 4 →
    s.namedTxn (u32 r.params 0) = some t → t.st = 0 → t.items = [] →
    resolveApply s (u8 r.params 4) (u8 r.params 5) (u64 r.params 8) = some a →
    exec (.schedCommit mb) s = .next (finish mb (.commit (le 4 t.txn ++ le 8 a ++ le 2 0 ++ [byte 0xFF, byte 0])
      (s.setTxn { t with st := 1, applyTb := u8 r.params 5, applyAt := a, lastUse := s.tick })) s)) ∧
  (∀ mb r t s, Ready mb.val 0x0505 r s → s.namedTxn (u32 r.params 0) = some t → t.st = 0 →
    exec (.schedCancel mb) s = .next (finish mb (.commit [] (s.setTxn { t with st := 3 })) s)) ∧
  (∀ mb r s, Ready mb.val 0x0506 r s → u32 r.params 0 = 0 → tScope r.target = 2 →
    exec (.schedReport mb) s = .next (finish mb (.query (portReport s (tIndex r.target))) s)) ∧
  (∀ mb r t s, Ready mb.val 0x0506 r s → u32 r.params 0 ≠ 0 → tScope r.target = 0 →
    s.sched.txns.find? (fun t => t.txn == u32 r.params 0) = some t → t.items = [] → t.st ≠ 0 →
    exec (.schedReport mb) s = .next (finish mb (.query
      ([byte t.st, 0, 0, 0] ++ le 8 t.applyAt ++ zeros 4)) s))

/-- Targets, tokens, transactions on a port's bus and the commit of their records (R192 to R196, R203, R204, R214,
R217 to R221, R237, R242).

For each of these, `exec` answers a next state under hypotheses on the state and the operands alone: targetDue,
tokenIssue, lateMiss, bestEffortReplaced, sof, transactionEnd, recordCommit, ctrlTmoExpiry, applyPoint,
transactionIdleTimeout. -/
def Obligations.ServiceRowsComplete : Prop :=
  -- a pending transaction whose apply point comes no later than the target applies first
  (∀ slot t s, (applyFirst slot.val s).tansyServes slot.val = true →
    (applyFirst slot.val s).reach ((applyFirst slot.val s).chan slot.val).sched.tb
      ((applyFirst slot.val s).chan slot.val).next = some t →
    exec (.targetDue slot) s = .next (atTarget slot.val t)) ∧
  -- the first idle moment of the bus: the one due target of the port's one channel gets its token
  (∀ p n c d s, s.busFree p.val = true → s.portSlots p.val = [n] → s.chan n = c → c.due = [d] →
    d.expired s.tick = false → (d.hard || s.beforeSof p.val c.txTime) = true → s.journal.level = 0 →
    c.noHalf = false →
    exec (.tokenIssue p) s = .next ((dropDue n d s).setWire p.val
      (some { slot := n, angle := s.angStamp c.sched.tb, time32 := s.time32, holdover := s.holdover c.sched.tb
              stamp := d.target }))) ∧
  (∀ slot d s, (s.chan slot.val).due.find? (·.hard) = some d →
    exec (.lateMiss slot) s = .next (missLate slot.val d (s.waitUntil (d.lateAt + 1)))) ∧
  (∀ slot t s, s.tansyServes slot.val = true → (s.chan slot.val).due.all (·.hard) = false →
    s.reach (s.chan slot.val).sched.tb (s.chan slot.val).next = some t →
    exec (.bestEffortReplaced slot) s = .next (atTarget slot.val t)) ∧
  -- the next start of frame; one that finds a transaction on the wire waits for its end
  (∀ p s, (s.port p.val).usb.transparent = false → (s.port p.val).usb.st = 8 → s.groupUp (p.val / 8) = true →
    exec (.sof p) s = .next
      (let t := s.waitUntil ((s.port p.val).usb.sofAt + (s.port p.val).usb.sofTicks)
       if (t.onWire p.val).isSome then t.modUsb p.val fun u => { u with sofPend := true } else sofNow p.val t)) ∧
  (∀ p o w s, s.onWire p.val = some w →
    exec (.transactionEnd p o) s = .next
      (afterBus p.val (afterWire w.slot (endOn w.slot w o (landPackets w.slot o (s.setWire p.val none)))))) ∧
  -- the oldest record a channel has built commits, or the target that made it is accounted for
  (∀ slot r l s, (s.chan slot.val).built = r :: l → (s.chan slot.val).periodic = true →
    s.earlier slot.val r.stamp = false →
    exec (.recordCommit slot) s = .next (afterCommit slot.val r (s.chan slot.val)
      (commitRec slot.val r r.stamp (s.setChan slot.val { s.chan slot.val with built := l })))) ∧
  (∀ slot q s, (s.chan slot.val).ctrl = some q → q.phase ≠ 2 →
    exec (.ctrlTmoExpiry slot) s = .next
      (let t := s.waitUntil q.deadline
       ctrlEnd slot.val 2 (match t.onWire (t.chan slot.val).port with
         | some w => if w.slot == slot.val then
             afterBus (t.chan slot.val).port (t.setWire (t.chan slot.val).port none)
           else t
         | none => t))) ∧
  (∀ t u s, s.pendingTxn = some t → s.warden.mode = false → s.reach t.applyTb t.applyAt = some u →
    exec .applyPoint s = .next (applyTxn t.applyAt t u)) ∧
  (∀ t s, s.presentTxn = some t → t.st = 0 →
    exec .transactionIdleTimeout s = .next ((s.waitUntil (t.lastUse + ticksS 60)).setTxn { t with st := 3 }))

/-- The `dev.*` commands, and `dom.list`, `dom.event` and `dom.forget`, decided when ready (R179, R208, R290, R298).

For each of these, `exec` answers a next state under hypotheses on the state and the operands alone: devList, devInfo,
devPolicy, domList, domEvent, domForget. -/
def Obligations.DeviceAndDomainCommandsComplete : Prop :=
  (∀ mb r s, Ready mb.val 0x0301 r s → s.devices = [] →
    exec (.devList mb) s = .next (finish mb (.query (le 2 0xFFFF ++ [byte 0] ++ zeros 13)) s)) ∧
  -- an entry's 16 bytes stand in the list, lowest ID first
  (∀ mb r id d l s, Ready mb.val 0x0301 r s → u8 r.params 0 ≤ id → d.used = true → s.devices = (id, d) :: l →
    ∃ res, exec (.devList mb) s = .next (finish mb (.query res) s) ∧
      slice res 16 16 = devEntry s id) ∧
  (∀ mb r s, Ready mb.val 0x0302 r s → (s.dev (tIndex r.target)).used = true → ∃ res,
    exec (.devInfo mb) s = .next (finish mb (.query res) s) ∧
    slice res 0 4 = le 4 (s.dev (tIndex r.target)).serialCrc ∧
    slice res 8 18 = fit 18 (s.dev (tIndex r.target)).desc.devDesc ∧
    slice res 34 206 = ((s.dev (tIndex r.target)).desc.cfgDesc.drop (u16 r.params 0)).take 206) ∧
  (∀ mb r s, Ready mb.val 0x0303 r s → u8 r.params 0 ≤ 2 → (s.port (tIndex r.target)).usb.transparent = false →
    exec (.devPolicy mb) s = .next (finish mb (.commit []
      { s with policies := Tbl.setD 0 s.policies (tIndex r.target) (u8 r.params 0) }) s)) ∧
  (∀ mb r s, Ready mb.val 0x0B01 r s → s.domain.children = [] → u8 r.params 0 = 0 →
    exec (.domList mb) s = .next (finish mb (.query
      ([byte 1, byte 1] ++ zeros 6 ++ [0, 0, 0, 0, 0, byte s.nPorts, 0, 0])) s)) ∧
  -- the oldest event of a child's mirror leaves it
  (∀ mb r e l s, Ready mb.val 0x0B02 r s → (s.child (tChip r.target)).mirror = e :: l →
    exec (.domEvent mb) s = .next (finish mb (.commit
      (fit 16 e ++ [byte l.length, byte (min (s.child (tChip r.target)).lost 255)])
      (s.setChild (tChip r.target) { s.child (tChip r.target) with mirror := l })) s)) ∧
  -- forgetting a lost child is an epoch break of the root
  (∀ mb r s, Ready mb.val 0x0B03 r s → (s.child (tChip r.target)).joined = false →
    exec (.domForget mb) s = .next (epochBreak 6 (finish mb (.commit []
      (let v := s.setChild (tChip r.target) {}
       { v with devices := v.devices.map fun e =>
           (e.1, if e.2.child == some (tChip r.target) then { e.2 with child := none } else e.2) })) s)))

/-- Enumeration and the domain's rows (R95, R174, R175, R205 to R208).

For each of these, `exec` answers a next state under hypotheses on the state and the operands alone: enumeration,
enumerationStepFail, childJoin, childLost, domainLinkFrame, cowslipFlush. -/
def Obligations.EnumerationAndDomainRowsComplete : Prop :=
  (∀ p d s, (s.port p.val).usb.transparent = false → (s.port p.val).usb.st = 8 → s.groupUp (p.val / 8) = true →
    d.tier = 1 → (s.port p.val).usb.enumerated = false →
    exec (.enumeration p d) s = .next (settleDevice p.val d (forgetAddrs p.val d.hub1 d.hub2
      (s.modUsb p.val fun u => { u with
        enumerated := true, enumTries := Tbl.erase u.enumTries (d.hub1 * 256 + d.hub2) })))) ∧
  -- the first two failures reset the port, the third ends its enumeration in ERROR
  (∀ p k s, (s.port p.val).usb.transparent = false → (s.port p.val).usb.st = 8 → s.groupUp (p.val / 8) = true →
    k.val ≠ 0 → (s.port p.val).usb.enumerated = false →
    exec (.enumerationStepFail p k 0 0) s = .next
      (if Tbl.getD 0 (s.port p.val).usb.enumTries 0 < 2 then
         startReset p.val 1 (s.modUsb p.val fun u => { u with enumTries := Tbl.modD 0 u.enumTries 0 (· + 1) })
       else setPortState p.val 10 6 (wireDrop p.val (groupEvent (p.val / 8) 5 [0, 0, byte p.val, byte k.val, 1]
         (s.modUsb p.val fun u => { u with enumTries := Tbl.erase u.enumTries 0 }))))) ∧
  -- behind an external hub the third failure disables the hub port; the port stays as it is
  (∀ p k hub1 s, (s.port p.val).usb.transparent = false → (s.port p.val).usb.st = 8 →
    s.groupUp (p.val / 8) = true → k.val ≠ 0 → (s.port p.val).usb.enumerated = true → hub1 ≠ 0 →
    s.hubAbove p.val { tier := 2, hub1 := hub1, hub2 := 0 } = true →
    2 ≤ Tbl.getD 0 (s.port p.val).usb.enumTries (hub1 * 256) →
    exec (.enumerationStepFail p k hub1 0) s = .next (forgetAddrs p.val hub1 0
      ((groupEvent (p.val / 8) 5 [0, 0, byte p.val, byte k.val, 2]
        (s.modUsb p.val fun u => { u with enumTries := Tbl.erase u.enumTries (hub1 * 256) })).modUsb p.val
        fun u => { u with hubOff := addSorted (hub1 * 256) u.hubOff }))) ∧
  (∀ p c id n s, s.isRoot = true → (s.portDevs p.val).filter
      (fun id => isOtind (s.dev id).desc && !(s.dev id).gone) = [id] → c.parent = 0 →
    childNumber c.serial s = some n → s.child n = {} → s.chipsKnown < 64 →
    exec (.childJoin (.child p c)) s = .next
      (let t := s.setChild n { known := true, joined := true, parent := 0, parentPort := c.parentPort
                               tier := 1, ports := c.ports, serial := c.serial }
       abortsResume n (raiseEvent 113 1 [byte n, byte 0, byte c.parentPort, byte 1, byte 0]
         (t.setDev id { t.dev id with child := some n })))) ∧
  -- a chip below a parent takes the number and the tier it is given
  (∀ number tier s, s.isRoot = false → number.val ≠ 0 → tier.val ≠ 0 →
    exec (.childJoin (.own number tier)) s = .next { s with
      domain := { s.domain with chipNum := number.val, joined := true, tier := tier.val } }) ∧
  (∀ chip why s, (s.child chip.val).joined = true →
    exec (.childLost chip why) s = .next (raiseEvent 114 1
      ([byte chip.val, byte (s.child chip.val).parentPort] ++ le 2 (s.relayed chip.val).length)
      (s.setChild chip.val { s.child chip.val with joined := false }))) ∧
  -- a child's event enters the 64-record mirror, or is counted as lost
  (∀ chip b s, (s.child chip.val).joined = true →
    exec (.domainLinkFrame chip (.event b)) s = .next (raiseEvent 112 1
      ([byte chip.val, byte (u8 b 0), byte (u8 b 1)] ++ slice b 8 5)
      (s.setChild chip.val (if (childLoads b (s.child chip.val)).mirror.length < 64 then
        { childLoads b (s.child chip.val) with mirror := (childLoads b (s.child chip.val)).mirror ++ [fit 16 b] }
       else { childLoads b (s.child chip.val) with lost := (childLoads b (s.child chip.val)).lost + 1 })))) ∧
  -- a flush of the event queue drops its records and counts them; FS83 counts
  (∀ far sent s, exec (.cowslipFlush 3 far sent) s = .next (faultPulse 83 (State.evqLevel
    ({ s with cci.evq := [] }.setFld 0x228 31 16 (min (s.fld 0x228 31 16 + s.cci.evq.length) 65535))))) ∧
  -- a flush of the relay tells the chip at its far end and how many items go again; FS85 counts
  (∀ far sent s, exec (.cowslipFlush 5 far sent) s =
    .next (faultPulse 85 (raiseEvent 116 1 ([byte far.val] ++ le 2 sent) s)))

/-- The upstream link and the journal (R157, R158, R231, R268 to R273, R275, R300).

For each of these, `exec` answers a next state under hypotheses on the state and the operands alone: linkStatus,
linkBudget, linkDetach, upstreamReset, upstreamAttach, journalLevel, checkpoint, seal, unseal. -/
def Obligations.LinkAndJournalRowsComplete : Prop :=
  (∀ mb r s, Ready mb.val 0x0D01 r s → ∃ res,
    exec (.linkStatus mb) s = .next (finish mb (.query res) s) ∧
    slice res 1 1 = [byte s.hub.upSpeed] ∧ slice res 4 4 = le 4 s.upBudget) ∧
  (∀ mb r s, Ready mb.val 0x0D02 r s → u32 r.params 0 ≤ s.budgetDefault →
    exec (.linkBudget mb) s = .next (finish mb
      (if u32 r.params 0 * 1000 < s.loadOf (s.chanSet.map (·.2)) then .refuse .noResource []
       else .commit [] { s with sched.budget := some (u32 r.params 0) }) s)) ∧
  (∀ mb r s, Ready mb.val 0x0D03 r s → 10 ≤ u16 r.params 0 → u16 r.params 0 ≤ 1000 → s.straps.hostsel = false →
    exec (.linkDetach mb) s = .next (finish mb (.commit [] { upstreamCut true s with
      hub.detachedUntil := some ((upstreamCut true s).tick + ticksMs (u16 r.params 0)) }) s)) ∧
  (∀ d s, s.usbHost = true → s.boot.up = true → exec (.upstreamReset d) s = .next (upstreamCut d s)) ∧
  (∀ hs s, s.usbHost = true → s.boot.up = true → s.hub.upSpeed = 0 → s.hub.detachedUntil = none → s.chanSet = [] →
    s.relayedHandles = [] →
    exec (.upstreamAttach hs) s = .next (sampleOc { s with
      hub.upSpeed := if hs then 3 else 2, hub.detachedUntil := none })) ∧
  (∀ s, s.journal.levelNow ≠ s.journal.level → exec .journalLevel s = .next (changeLevel s.journal.levelNow s)) ∧
  -- 1,000 entries of the command log call for a checkpoint at once, else one follows 1 s after the last
  (∀ s, s.mgmtUp = true → s.journal.sealed = false →
    exec .checkpoint s = .next
      (let t := if 1000 ≤ s.journal.logged then s else s.waitUntil (s.journal.checkpointAt + ticksS 1)
       { t with journal := { t.journal with logged := 0, checkpointAt := t.tick
                                            checkpoints := t.journal.checkpoints + 1 } })) ∧
  (∀ s, s.journal.sealed = false → s.openSlots = [] →
    exec .seal s = .next { s with journal.sealed := true, keeper.sealCseq := s.cci.cseqHi, keeper.sealValid := true }) ∧
  (∀ s, s.journal.sealed = true → s.warden.safe = false → s.boot.resetReq = none →
    exec .unseal s = .next (s.openSlots.foldl (fun s n => settlePassed n s)
      { s with journal.sealed := false, keeper.sealValid := false }))

/-- Restarts of the management pair and of a group engine (R23, R24, R100, R101, R274, R426).

For each of these, `exec` answers a next state under hypotheses on the state and the operands alone:
managementRestart, managementRestartTimeout, abortEscalation, groupRestart, groupRestartTimeout. -/
def Obligations.RestartRowsComplete : Prop :=
  (∀ c t s, s.boot.up = true → s.warden.safe = false → s.warden.mode = false → s.mgmtDown = some t →
    s.boot.trial = false → exec (.managementRestart c) s = .next (mgmtRestarted s)) ∧
  (∀ t s, s.mgmtDown = some t →
    exec .managementRestartTimeout s = .next (startMgmt 2 (faultPulse 106 (s.waitUntil (t + ticksMs 20))))) ∧
  -- an abort unresolved for 1 ms: ESC of the mailboxes it names, and a management restart
  (∀ s, s.warden.mode = false → s.warden.safe = false → s.boot.up = true → s.mgmtDown = none →
    maskOf ((bitList 8 s.cci.abortReq).filter fun n => !s.abortWaits n) ≠ 0 → (s.mb 7).state ≠ .posted →
    exec .abortEscalation s = .next
      (let t := s.waitUntil (s.cci.abortSince + ticksMs 1)
       let u := t.setFld 0x10C 15 8 (t.fld 0x10C 15 8 |||
         maskOf ((bitList 8 s.cci.abortReq).filter fun n => !s.abortWaits n))
       if u.mgmtDown.isSome then { u with mgmtWhy := 3 } else mgmtFault 3 u)) ∧
  (∀ g s, g.val < s.nGroups → s.warden.safe = false → s.boot.up = true → (s.dom (3 + g.val)).st = 0 →
    (s.group g.val).engine = 1 → exec (.groupRestart g) s = .next (groupRestarted g.val s)) ∧
  (∀ g s, (s.group g.val).engine = 1 →
    exec (.groupRestartTimeout g) s = .next
      (let t := s.waitUntil ((s.group g.val).restartAt + ticksMs 15)
       faultHold (48 + g.val) (faultPulse 107 (groupEvent g.val 8 [3]
         (t.setGroup g.val { t.group g.val with engine := 2 })))))

/-- The `can.*` commands, decided when ready (R371 to R388, R295). `LK_CANA` covers the first controller.

For each of these, `exec` answers a next state under hypotheses on the state and the operands alone: canConfig,
canEnable, canFilter, canTx, canTxabort, canRecover, canAutobaud, canStatus. -/
def Obligations.CanCommandsComplete : Prop :=
  (∀ mb r s, Ready mb.val 0x0801 r s → u8 r.params 0 < 8 → u8 r.params 1 ≤ 15 → r.expert = false →
    (timingOf (r.params.drop 2)).inRange (bit (u8 r.params 0) 0) = true →
    (timingOf (r.params.drop 2)).ok (bit (u8 r.params 0) 0) = true →
    s.canLocked (tIndex r.target) = false → (s.can (tIndex r.target)).running = false →
    (s.can (tIndex r.target)).st ≠ 4 →
    exec (.canConfig mb) s = .next (finish mb (.commit []
      (loadTiming (tIndex r.target) (timingOf (r.params.drop 2)) (bit (u8 r.params 0) 0)
        (s.setReg (canBase (tIndex r.target) + 4) (u8 r.params 0 + 8 + u8 r.params 1 * 16 +
          s.fld (canBase (tIndex r.target) + 4) 10 8 * 256 + 30 * 65536)))) s)) ∧
  (∀ mb r s, Ready mb.val 0x0802 r s → u8 r.params 0 = 1 → (s.can (tIndex r.target)).running = false →
    (s.can (tIndex r.target)).st ≠ 4 →
    (s.canTiming (tIndex r.target)).ok (s.canFd (tIndex r.target)) = true →
    exec (.canEnable mb) s = .next (finish mb (.commit (le 4 0) (canStart (tIndex r.target) s)) s)) ∧
  (∀ mb r s, Ready mb.val 0x0802 r s → u8 r.params 0 = 0 → (s.can (tIndex r.target)).running = true →
    (s.can (tIndex r.target)).st ≠ 4 →
    exec (.canEnable mb) s = .next (finish mb (.commitWait
      (.canDisable (tIndex r.target) ((s.can (tIndex r.target)).mask [1, 2, 3])) (canDisable (tIndex r.target) s)) s)) ∧
  (∀ mb r s, Ready mb.val 0x0803 r s → u8 r.params 0 ≤ 63 → u8 r.params 1 ≤ 3 → u8 r.params 2 ≤ 1 →
    u32 r.params 4 < 2 ^ 29 → u32 r.params 8 < 2 ^ 29 →
    exec (.canFilter mb) s = .next (finish mb
      (if s.canLocked (tIndex r.target) then .refuse .locked []
       else .commit [] (((s.setReg (pairBase (tIndex r.target) (u8 r.params 0)) (u8 r.params 1 + 4 * u8 r.params 2)).setReg
         (pairBase (tIndex r.target) (u8 r.params 0) + 4) (u32 r.params 4)).setReg
         (pairBase (tIndex r.target) (u8 r.params 0) + 8) (u32 r.params 8))) s)) ∧
  -- a classic frame of standard format, not armed, into an empty buffer
  (∀ mb r s, Ready mb.val 0x0804 r s → u8 r.params 0 < 32 → u8 r.params 1 = 0 → u8 r.params 2 < 16 →
    u32 r.params 4 < 2 ^ 11 → (r.params.drop 16).length = min (u8 r.params 2) 8 →
    s.canListen (tIndex r.target) = false → (s.can (tIndex r.target)).running = true →
    (s.can (tIndex r.target)).stopping = false → (s.can (tIndex r.target)).st ≠ 3 →
    exec (.canTx mb) s = .next (finish mb
      (if ((s.can (tIndex r.target)).buf (u8 r.params 0)).st = 0 then .commit []
         (s.setCan (tIndex r.target) ((s.can (tIndex r.target)).setBuf (u8 r.params 0) { st := 1, frame := {
           id := u32 r.params 4, dlc := u8 r.params 2, data := r.params.drop 16 } }))
       else .refuse .busy []) s)) ∧
  (∀ mb r s, Ready mb.val 0x0805 r s → (s.can (tIndex r.target)).onBus = none →
    exec (.canTxabort mb) s = .next (finish mb (.commit
      (le 4 (u32 r.params 0 &&& (s.can (tIndex r.target)).mask [1, 2, 3]) ++ le 4 0)
      (abortBufs (tIndex r.target) (u32 r.params 0) 3 s)) s)) ∧
  (∀ mb r s, Ready mb.val 0x0806 r s →
    exec (.canRecover mb) s = .next (finish mb
      (if (s.can (tIndex r.target)).st = 3 then .commit []
         (s.setCan (tIndex r.target) { s.can (tIndex r.target) with recovering := true, recoverAt := s.tick })
       else .refuse .wrongState []) s)) ∧
  -- one candidate, of 12 bytes
  (∀ mb r s, Ready mb.val 0x0807 r s → u8 r.params 0 = 1 → 10 ≤ u8 r.params 1 → r.params.length = 16 →
    (timingOf (slice r.params 4 12)).inRange (s.canFd (tIndex r.target)) = true →
    (timingOf (slice r.params 4 12)).ok (s.canFd (tIndex r.target)) = true → u16 (slice r.params 4 12) 10 = 0 →
    s.canLocked (tIndex r.target) = false → (s.can (tIndex r.target)).running = false →
    (s.can (tIndex r.target)).st ≠ 4 →
    exec (.canAutobaud mb) s = .next (finish mb (.commitWait (.autobaud (tIndex r.target))
      (canState (tIndex r.target) 4 (s.setCan (tIndex r.target) { s.can (tIndex r.target) with
        cands := [slice r.params 4 12], candIdx := 0, candGood := 0, candBrs := false, candAt := s.tick
        dwell := ticksMs (10 * u8 r.params 1) }))) s)) ∧
  (∀ mb r s, Ready mb.val 0x0808 r s → exec (.canStatus mb) s = .next (finish mb (.query
    (let x := s.can (tIndex r.target)
     [byte x.st, byte (min x.tec 255), byte (min x.rxErr 255), 0] ++ le 4 (x.mask [1, 2, 3, 4]) ++
       le 4 (x.mask [2]) ++ le 2 x.rxq0.length ++ le 2 x.rxq1.length ++ le 4 x.txcnt ++ le 4 x.errcnt)) s))

/-- What happens on a CAN bus (R375 to R389).

For each of these, `exec` answers a next state under hypotheses on the state and the operands alone: canFrameReceived,
canArbitrationStart, canTxEnd, canArmedDue, busOff, canErrorStateChange, busOffRecoveryEnd, autobaudDwellEnd,
canDisableComplete. -/
def Obligations.CanBusRowsComplete : Prop :=
  -- a frame that no pair matches is dropped and counted
  (∀ c f n t s, s.canLive c.val = true → f.fd = false → s.elapse n = t →
    (t.can c.val).rxErr = 0 →
    (List.range 64).find? (fun k => pairMatches (canCounters c.val (t.can c.val).tec 0 t) c.val k f) = none →
    exec (.canFrameReceived c f n) s = .next
      ((canCounters c.val (t.can c.val).tec 0 t).incFld (canBase c.val + 0x24) 15 0)) ∧
  -- one that a pair routes to queue 0 enters it with the stamps of its start
  (∀ c f n k t s, s.canLive c.val = true → f.fd = false → s.elapse n = t →
    (t.can c.val).rxErr = 0 →
    (List.range 64).find? (fun k => pairMatches (canCounters c.val (t.can c.val).tec 0 t) c.val k f) = some k →
    (canCounters c.val (t.can c.val).tec 0 t).fld (pairBase c.val k) 1 0 = 0 →
    exec (.canFrameReceived c f n) s = .next
      (rxPush c.val 0 (rxRec s c.val k f) (canCounters c.val (t.can c.val).tec 0 t))) ∧
  -- the pending buffer of highest priority, once the controller takes part
  (∀ c b t s, s.canUp c.val = true → (s.can c.val).stopping = false → (s.can c.val).onBus = none →
    s.canListen c.val = false → topBuf ((s.can c.val).bufs.filter fun e => e.2.st == 1) = some (b, t) →
    t.frame.fd = false →
    exec (.canArbitrationStart c) s = .next
      (let u := s.waitUntil (s.can c.val).joinAt
       u.setCan c.val ((u.can c.val).setBuf b { t with
         st := 4, sofAt := u.tick, frame := { t.frame with esi := false } }))) ∧
  (∀ c b s, s.canLive c.val = true → (s.can c.val).onBus = some b →
    (∀ n < 8, (s.mb n).state ≠ .posted) → (txSent c.val b s).cci.mbs = s.cci.mbs →
    exec (.canTxEnd c .sent) s = .next (txSent c.val b s)) ∧
  (∀ c b t s, ((s.can c.val).buf b.val).st = 2 → s.warden.safe = false → ((s.can c.val).buf b.val).tb = 4 →
    s.reach 4 ((s.can c.val).buf b.val).target = some t →
    exec (.canArmedDue c b) s = .next (t.setCan c.val ((t.can c.val).setBuf b.val
      { (s.can c.val).buf b.val with
        st := 1, dueAt := t.tick, late := t.chicory.wall.ns - 1000 * ((s.can c.val).buf b.val).target }))) ∧
  (∀ c s, s.canLive c.val = true → exec (.busOff c) s = .next (canCounters c.val 256 (s.can c.val).rxErr s)) ∧
  -- an error seen as a receiver, a dominant bit after its error flag, and as a transmitter
  (∀ c err s, s.canLive c.val = true →
    exec (.canErrorStateChange c err) s = .next (match err with
      | .received kind => canCounters c.val (s.can c.val).tec ((s.can c.val).rxErr + 1) (canError c.val kind s)
      | .receiverFlag => canCounters c.val (s.can c.val).tec ((s.can c.val).rxErr + 8) s
      | .transmitterFlag => canCounters c.val ((s.can c.val).tec + 8) (s.can c.val).rxErr s)) ∧
  (∀ c s, (s.can c.val).st = 3 → (s.can c.val).recovering = true → s.warden.safe = false →
    exec (.busOffRecoveryEnd c) s = .next
      (let t := s.waitUntil ((s.can c.val).recoverAt + s.canBits c.val 1408)
       faultGone (92 + c.val) (canState c.val 1
         (t.setCan c.val { t.can c.val with tec := 0, rxErr := 0, recovering := false })))) ∧
  (∀ c s, (s.can c.val).st = 4 → s.warden.safe = false →
    (s.can c.val).cands.length ≤ (s.can c.val).candIdx + 1 →
    exec (.autobaudDwellEnd c) s = .next (autobaudEnd c.val 0xFF false
      (s.waitUntil ((s.can c.val).candAt + (s.can c.val).dwell)))) ∧
  (∀ c s, (s.can c.val).stopping = true → (s.can c.val).onBus = none → s.warden.safe = false →
    exec (.canDisableComplete c) s = .next
      (canStopped c.val (if (s.can c.val).st = 3 then faultGone (92 + c.val) s else s)))

/-- The `fault.*` and `warden.*` commands, decided when ready (R297, R428, R432, R434, R437, R440, R447).

For each of these, `exec` answers a next state under hypotheses on the state and the operands alone: faultStatus,
faultConfig, faultClear, faultForce, wardenArm, wardenEnter, wardenLeave, wardenStatus. -/
def Obligations.FaultAndWardenCommandsComplete : Prop :=
  (∀ mb r s, Ready mb.val 0x0A01 r s → u8 r.params 0 ≤ 112 → u8 r.params 0 % 16 = 0 → ∃ res,
    exec (.faultStatus mb) s = .next (finish mb (.query res) s) ∧ slice res 0 1 = [byte (u8 r.params 0)] ∧
    slice res 16 8 = srcEntry s (u8 r.params 0) ∧ res.length = 144) ∧
  -- a source whose class is fixed is not configured; LK_CAMPION locks them all
  (∀ mb r s, Ready mb.val 0x0A02 r s → u8 r.params 0 ≤ 127 → u8 r.params 1 ≠ 0 →
    classFits (u8 r.params 0) (u8 r.params 2) = true → 1 ≤ u32 r.params 4 → u32 r.params 4 ≤ 86400000 →
    exec (.faultConfig mb) s = .next (finish mb
      (if s.hrs.lock0.getLsbD 6 then .refuse .locked [] else if srcFixed (u8 r.params 0) then .refuse .notPermitted []
       else .commit [] (setSrcCfg (u8 r.params 0) (u8 r.params 1, u8 r.params 2, u32 r.params 4) s)) s)) ∧
  -- a source whose cause is present is not cleared
  (∀ mb r s, Ready mb.val 0x0A03 r s → u8 r.params 0 ≤ 127 →
    exec (.faultClear mb) s = .next (finish mb
      (if (s.src (u8 r.params 0)).st = 3 then .refuse .wrongState [] else .commit [] (clearSrc (u8 r.params 0) s)) s)) ∧
  (∀ mb r s, Ready mb.val 0x0A04 r s → u8 r.params 0 ≤ 127 → u8 r.params 1 ≤ 3 →
    (s.safetyValid && srcFixed (u8 r.params 0)) = false →
    exec (.faultForce mb) s = .next (finish mb (.commit [] (forceSrc (u8 r.params 0) (u8 r.params 1) s)) s)) ∧
  (∀ mb r s, Ready mb.val 0x0A11 r s → scriptOk (u8 r.params 0) r.data = true →
    exec (.wardenArm mb) s = .next (finish mb
      (if s.hrs.lock0.getLsbD 1 then .refuse .locked [] else if s.warden.mode then .refuse .wrongState []
       else .commit (le 4 (crc32 r.data)) (armScript (u8 r.params 0) r.data s)) s)) ∧
  -- entry by command records the source 0xFF; result 1 with a valid safety set, else 2
  (∀ mb r s, Ready mb.val 0x0A12 r s → s.warden.mode = false →
    exec (.wardenEnter mb) s = .next (finish mb
      (.commit [if s.safetyValid then 1 else 2] (wardenEnter 0xFF s)) s)) ∧
  -- leaving is an epoch break; a source whose cause is present forbids it
  (∀ mb r s, Ready mb.val 0x0A13 r s → s.warden.mode = true → s.warden.cause = 0xFF → s.warden.run ≠ 2 →
    exec (.wardenLeave mb) s = .next (epochBreak 5 (wardenLeft (finish mb (.commit [] s) s)))) ∧
  (∀ mb r s, Ready mb.val 0x0A14 r s → ∃ res,
    exec (.wardenStatus mb) s = .next (finish mb (.query res) s) ∧
    slice res 0 1 = [byte (b2n s.warden.mode)] ∧ slice res 3 5 = byte s.warden.cause :: le 4 s.warden.entryTime)

/-- Fault sources, the self-check and the clock monitor (R426 to R430, R436, R483).

For each of these, `exec` answers a next state under hypotheses on the state and the operands alone: faultEvent,
wireFault, causeGone, selfCheckFail, clock, subWindowEnd. -/
def Obligations.FaultRowsComplete : Prop :=
  -- a port's source: the event is counted, and holds where the pair stays at fault
  (∀ src per s, src.val < 48 → s.srcRaised src.val = true → s.srcMasked src.val = false →
    (s.src src.val).input = 1 → s.warden.safe = false →
    exec (.faultEvent src per) s = .next (let t := if per then faultHold src.val s else faultPulse src.val s
      builtIn src.val t)) ∧
  (∀ src high s, (s.src src.val).input = 1 ∨ (s.src src.val).input = 2 →
    exec (.wireFault src high) s = .next (wireFault src.val (if high then 3 else 0) s)) ∧
  (∀ src s, 56 ≤ src.val → (s.src src.val).pair ≠ 1 →
    exec (.causeGone src) s = .next (faultGone src.val s)) ∧
  (∀ s, exec .selfCheckFail s = .next (faultPulse 58 { s with campion.selfOk := false })) ∧
  (∀ s, (s.src 95).input = 1 → exec .clock s = .next
    (let t := faultPulse 95 s
     { t with boot.resetReq := some (6, t.tick + ticksMs 1) })) ∧
  -- a counting source whose last sub-window runs empty is CLEAR again
  (∀ src s, ∃ t, exec (.subWindowEnd src) s = .next t ∧
    ((t.src src.val).st = 1 → t.srcCount src.val ≠ 0))

/-- Warden mode step by step, `ALIVE`, and the hold of the safe state (R437, R442 to R446, R450, R451).

For each of these, `exec` answers a next state under hypotheses on the state and the operands alone: wardenCleanup,
scriptStepStart, scriptFrame, waitRxMatch, scriptStepEnd, wardenHeartbeatMissing, aliveEdge, safeHoldExpiry. -/
def Obligations.WardenRowsComplete : Prop :=
  (∀ s, s.warden.mode = true → s.warden.cleanup = true → s.warden.safe = false →
    exec .wardenCleanup s = .next
      (let t := wardenDoms (canDisable 1 (rsEnd 2 (closeExpert (voidTxns (settlePosted 7 (bistAbandon s))))))
       let u := { t with warden := { t.warden with cleanup := false } }
       raiseEvent 81 1 ([byte u.warden.cause, 0, 0, 0] ++ le 4 u.scriptCrc) u)) ∧
  -- a lone step that takes no mirror starts: its event, and its frames from 0
  (∀ x s, s.scriptLive = true → s.warden.started = false → s.tick = s.warden.startAt → s.scriptGroup = [x] →
    x.mirror = false → x.op ≠ 6 → (s.can 0).st ≠ 3 →
    exec .scriptStepStart s = .next (raiseEvent 81 2 [byte s.warden.stepIdx, byte x.op]
      { s with warden := { s.warden with run := 2, started := true, frames := [], matched := [] } })) ∧
  (∀ buf x s, s.scriptGroup[buf.val]? = some x → s.scriptLive = true → s.warden.started = true →
    Tbl.getD 0 s.warden.frames buf.val < x.frames → ((s.can 0).buf buf.val).st ≠ 4 →
    s.tick = s.warden.startAt + ticksMs (Tbl.getD 0 s.warden.frames buf.val * x.period) →
    (s.can 0).running = true → (s.can 0).st ≠ 3 →
    exec (.scriptFrame buf) s = .next
      (let k := Tbl.getD 0 s.warden.frames buf.val
       let t := { s with warden.frames := Tbl.setD 0 s.warden.frames buf.val (k + 1) }
       t.setCan 0 ((t.can 0).setBuf buf.val { st := 1, frame := t.scriptFrame x k }))) ∧
  -- the frame a lone WAIT_RX waits for, its field at or below the limit
  (∀ f x s, s.scriptGroup = [x] → s.scriptLive = true → s.warden.started = true → s.canLive 0 = true →
    x.op = 5 → s.warden.matched = [] → x.id = f.id → x.ext = f.ext → x.fpos + x.width ≤ f.data.length →
    x.readField f.data ≤ x.limit → s.tick ≤ s.stepEnd x →
    exec (.waitRxMatch f) s = .next (scriptGo (s.warden.stepIdx + 1) s.tick
      { s with warden.matched := [(0, s.tick)] })) ∧
  (∀ x s, s.scriptLive = true → s.warden.started = true → s.scriptGroup = [x] → x.op = 4 →
    s.warden.matched = [] →
    exec .scriptStepEnd s = .next (scriptGo ((s.waitUntil (s.stepEnd x)).warden.stepIdx + 1) (s.stepEnd x)
      (s.waitUntil (s.stepEnd x)))) ∧
  (∀ s, s.warden.safe = false → s.warden.aliveRun = true →
    exec .wardenHeartbeatMissing s = .next (faultPulse 57 (s.waitUntil (s.warden.heartbeat + ticksMs 2)))) ∧
  -- an edge within 500 µs of a heartbeat is made, and one without the self-check omitted
  (∀ ago s, s.warden.safe = false → s.warden.aliveRun = true → s.campion.selfOk = true → ago ≤ ticksUs 500 →
    ∃ t, exec (.aliveEdge ago) s = .next t ∧ t.warden.aliveLevel = !s.warden.aliveLevel ∧
      t.warden.toggles = (s.warden.toggles + 1) % 65536) ∧
  (∀ ago s, s.warden.safe = false → s.warden.aliveRun = true → s.campion.selfOk = false →
    ∃ t, exec (.aliveEdge ago) s = .next t ∧ t.warden.aliveLevel = s.warden.aliveLevel ∧
      t.warden.toggles = s.warden.toggles) ∧
  (∀ s, s.warden.safe = true → s.fld 0xC48 11 0 ≠ 0 → s.keeper.holdTimes.length < 3 → s.boot.resetReq = none →
    exec .safeHoldExpiry s = .next
      (let t := s.waitUntil (s.warden.safeAt + ticksS (s.fld 0xC48 11 0))
       { t with boot.resetReq := some (3, t.tick) }))

/-- The `integ.*` commands, decided when ready (R296, R407, R409, R415, R416, R421).

For each of these, `exec` answers a next state under hypotheses on the state and the operands alone: integStatus,
integRegion, integRestrength, integScrub, integLog, integRotate, integInject. -/
def Obligations.IntegrityCommandsComplete : Prop :=
  (∀ mb r s, Ready mb.val 0x0901 r s → u8 r.params 0 < 0x14 → ∃ res,
    exec (.integStatus mb) s = .next (finish mb (.query res) s) ∧
    slice res 0 4 = [byte (s.rgnState (u8 r.params 0)), byte (s.rgnT (u8 r.params 0)),
      byte (s.rgnMode (u8 r.params 0)), byte (s.rgnRetain (u8 r.params 0))] ∧
    slice res 4 4 = le 4 (s.regionPages (u8 r.params 0))) ∧
  (∀ mb r s, Ready mb.val 0x0902 r s → u8 r.params 0 ≤ 0x0D → u8 r.params 1 ≤ 1 → u8 r.params 2 ≤ 1 →
    s.rgnState (u8 r.params 0) = 0 →
    exec (.integRegion mb) s = .next (finish mb (.commit []
      (setRegionMode (u8 r.params 0) (u8 r.params 1) (u8 r.params 2) s)) s)) ∧
  -- a region already at the strength asked for: the change starts and is done at once, 0 pages
  (∀ mb r s, Ready mb.val 0x0903 r s → u8 r.params 0 ≤ 0x0D → u8 r.params 1 ≤ 32 → u8 r.params 1 % 4 = 0 →
    u16 r.params 2 = 0 → s.integ.rsActive = false →
    runCount (u8 r.params 1) (s.regionPages (u8 r.params 0)) (s.rgnRuns (u8 r.params 0)) =
      s.regionPages (u8 r.params 0) →
    ∃ t, exec (.integRestrength mb) s = .next (finish mb (.commit (le 4 0 ++ le 4 0) t) s) ∧
      t.integ.rsActive = false) ∧
  -- one with pages to convert runs from its first page, at 1,000 pages a second where no rate is given
  (∀ mb r s n, Ready mb.val 0x0903 r s → u8 r.params 0 ≤ 0x0D → u8 r.params 1 ≤ 32 → u8 r.params 1 % 4 = 0 →
    u16 r.params 2 = 0 → s.integ.rsActive = false →
    n = s.regionPages (u8 r.params 0) -
      runCount (u8 r.params 1) (s.regionPages (u8 r.params 0)) (s.rgnRuns (u8 r.params 0)) → n ≠ 0 →
    ∃ t, exec (.integRestrength mb) s = .next (finish mb (.commit (le 4 n ++ le 4 ((8 * n + 6999) / 7000)) t) s) ∧
      t.integ.rsActive = true ∧ t.integ.rsRegion = u8 r.params 0 ∧ t.integ.rsT = u8 r.params 1 ∧
      t.integ.rsTotal = n ∧ t.integ.rsDone = 0) ∧
  (∀ mb r s, Ready mb.val 0x0904 r s → u8 r.params 0 ≤ 1 → u16 r.params 2 ≠ 0 →
    exec (.integScrub mb) s = .next (finish mb (.commit []
      (if u8 r.params 0 = 0 then s.setFld 0x5004 15 0 (u16 r.params 2)
       else s.setFld 0x5004 31 16 (u16 r.params 2))) s)) ∧
  (∀ mb r s, Ready mb.val 0x0905 r s → exec (.integLog mb) s = .next (finish mb (.query
    (let l := (s.integ.log.drop (u8 r.params 0)).take 14
     byte l.length :: zeros 15 ++ (l.map LogEnt.bytes).flatten)) s)) ∧
  (∀ mb r s, Ready mb.val 0x0906 r s → u8 r.params 0 ≤ 15 → u8 r.params 1 = 0 →
    exec (.integRotate mb) s = .next (finish mb
      (if s.integ.rotPhase = 0 then .commitWait .rotate (startRotation (u8 r.params 0) 1 s)
       else .refuse .busy []) s)) ∧
  (∀ mb r s, Ready mb.val 0x0907 r s → u8 r.params 0 < 0x14 → u8 r.params 0 ≠ 0x0F →
    u32 r.params 4 < s.regionPages (u8 r.params 0) → u16 r.params 8 < 4096 → s.rgnState (u8 r.params 0) = 0 →
    ∃ t, exec (.integInject mb) s = .next (finish mb (.commit [] t) s) ∧ t.flag 0x5040 0 = true ∧
      t.fld 0x5040 12 8 = u8 r.params 0 ∧ t.fld 0x5048 11 0 = u16 r.params 8 ∧ t.fld 0x5048 23 16 = u8 r.params 10)

/-- Parity errors, stale pages, the scrub, changes of strength, rotation and retirement (R400 to R407, R409, R412 to
R418).

For each of these, `exec` answers a next state under hypotheses on the state and the operands alone: parityError,
staleOvf, staleRecompute, scrubVisit, injectionFired, restrengthStep, rsEnded, rotationCopyDone, bankRetired,
pageRetired, retirementListWrite. -/
def Obligations.PageRowsComplete : Prop :=
  -- at most t bits in error are corrected; more, or a page that is stale or poisoned, cannot be
  (∀ g n who s, s.pageOk g = true → n ≠ 0 → s.lineValid g.region g.page g.offset = true →
    exec (.parityError g n who) s = .next
      (if (s.note g.region g.page).stale || (s.note g.region g.page).poisoned || s.pageT g.region g.page < n then
         ueOutcome g who (uncorrectable g (reqCode who).1 (reqCode who).2 s)
       else correctPage g n (reqCode who).1 (reqCode who).2 s)) ∧
  -- a write to a lazy page: its line is valid, and the page stale
  (∀ g t s, s.pageOk g = true → s.lazyNow g.region g.page = true → (s.note g.region g.page).stale = false →
    writeLine g.region g.page (g.offset / 64 % 64) s = t →
    (t.staleOf (isExt g.region)).length < t.staleDepth (isExt g.region) →
    exec (.staleOvf g) s = .next (t.setNote { s.note g.region g.page with stale := true })) ∧
  (∀ g n l s, s.staleOf (isExt g.region) = n :: l → n.region = g.region → n.page = g.page → s.warden.safe = false →
    exec (.staleRecompute g) s = .next (s.setNote { n with stale := false })) ∧
  (∀ g s, s.pageOk g = true → s.flag 0x5000 0 = true → (s.note g.region g.page).stale = false →
    (s.note g.region g.page).poisoned = false → s.visitDue g.region g.page = true →
    exec (.scrubVisit g 0) s = .next ((visitPage g.region g.page s).setNote
      { s.note g.region g.page with visits := 0 })) ∧
  (∀ g byteOff s, s.flag 0x5040 0 = true → s.fld 0x5040 12 8 = g.region → s.fld 0x5044 23 0 = g.page →
    s.fld 0x5048 11 0 = byteOff → s.warden.safe = false →
    exec (.injectionFired g byteOff) s = .next
      (writeLine g.region g.page (byteOff / 64 % 64) ((s.clrFlag 0x5040 0).setFlag 0x5040 1))) ∧
  (∀ e o p s, s.integ.rsActive = true → s.flag 0x5000 0 = true → s.warden.mode = false → s.warden.safe = false →
    s.integ.rsStep ≠ 7 →
    nextOff s.integ.rsT s.integ.rsNext (s.region s.integ.rsRegion).runs = some p →
    p < s.regionPages s.integ.rsRegion →
    exec (.restrengthStep e o) s = .next
      (let t := restrengthPage s.integ.rsRegion p e o
         (walkTo (memOf s.integ.rsRegion) (s.walkNext (memOf s.integ.rsRegion)) s)
       if t.integ.rsDone = t.integ.rsTotal then rsDone t else t)) ∧
  (∀ s, s.warden.safe = false → s.warden.mode = true → exec .rsEnded s = .next (rsEnd 2 s)) ∧
  (∀ s, s.warden.safe = false → s.warden.mode = false → s.flag 0x5000 0 = false →
    exec .rsEnded s = .next (rsEnd 3 s)) ∧
  (∀ s, s.warden.safe = false → s.integ.rotPhase = 1 → s.integ.rotRetire = false → s.integ.rotBank < 14 →
    exec .rotationCopyDone s = .next (completeWhere (fun w => w == .rotate) .ok []
      (raiseEvent 69 1 [byte s.integ.rotBank, 1]
        (let t := [0, 4, 8].foldl (fun t o => t.setReg (0x6300 + o) (t.reg (0x6100 + 16 * (0x10 + s.integ.rotBank) + o)))
           { s with integ.rotPhase := 2, keeper.b16Bank := s.integ.rotBank, keeper.b16Retired := false }
         logInteg { kind := 4, region := s.integ.rotBank, t := t.rgnT s.integ.rotBank
                    page := s.integ.rotBank } t)))) ∧
  (∀ b s, s.integ.due.contains (0x100, b.val) = true → s.warden.safe = false → s.integ.rotRetired = false →
    s.integ.rotPhase = 0 →
    exec (.bankRetired b) s = .next (startRotation b.val 1 { s with integ.rotRetire := true })) ∧
  -- with no spare frame left the page stays, FS74 counts and the event tells
  (∀ g s, s.integ.due.contains (g.region, g.page) = true → s.warden.safe = false → isExt g.region = true →
    ({ s with integ.due := s.integ.due.filter (· != (g.region, g.page)) } : State).sparesLeft = 0 →
    exec (.pageRetired g) s = .next (raiseEvent 69 5 ([byte g.region, 0, 0, 0] ++ le 4 g.page)
      (faultPulse 74 { s with integ.due := s.integ.due.filter (· != (g.region, g.page)) }))) ∧
  -- with one, the page is copied into it and counts as retired
  (∀ g s, s.integ.due.contains (g.region, g.page) = true → s.warden.safe = false → isExt g.region = true →
    ({ s with integ.due := s.integ.due.filter (· != (g.region, g.page)) } : State).sparesLeft ≠ 0 →
    ∃ t, exec (.pageRetired g) s = .next t ∧ t.integ.spareUsed = s.integ.spareUsed + 1 ∧
      t.integ.toNor = s.integ.toNor ++ [(g.region, g.page)]) ∧
  (∀ s, exec .retirementListWrite s = .next { s with
    boot.retireList := s.boot.retireList ++ s.integ.toNor, integ.toNor := [] })

/-- `dom.pstate` to `dom.keeper`, decided when ready (R298, R457, R462, R463, R466). `d` is the domain the target names.

For each of these, `exec` answers a next state under hypotheses on the state and the operands alone: domPstate,
domPcfg, domStatus, domKeeper. -/
def Obligations.PowerDomainCommandsComplete : Prop :=
  -- to ON, or to the state it holds: nothing to do
  (∀ mb r s, Ready mb.val 0x0B10 r s → u8 r.params 0 = 0 → domLists (tIndex r.target) 0 = true →
    tIndex r.target ≠ 0x20 → (s.dom (tIndex r.target)).st = 0 → (s.dom (tIndex r.target)).entry = none →
    exec (.domPstate mb) s = .next (finish mb (.commit [] s) s)) ∧
  -- out of ON, where R455 lets it go: entry begins; management's own answer comes first
  (∀ mb r s, Ready mb.val 0x0B10 r s → 1 ≤ u8 r.params 0 → u8 r.params 0 ≤ 2 →
    domLists (tIndex r.target) (u8 r.params 0) = true → tIndex r.target ≠ 0x20 →
    (s.dom (tIndex r.target)).st = 0 → (s.dom (tIndex r.target)).entry = none →
    (s.dom (tIndex r.target)).wake = none → s.mayLeave (some r.mb) (tIndex r.target) (u8 r.params 0) = true →
    exec (.domPstate mb) s = .next (finish mb
      (if tIndex r.target = 2 then .commit [] (startEntry (tIndex r.target) (u8 r.params 0) 0 s)
       else .commitWait (.domain (tIndex r.target) (u8 r.params 0))
         (startEntry (tIndex r.target) (u8 r.params 0) 0 s)) s)) ∧
  (∀ mb r s, Ready mb.val 0x0B11 r s → 100 ≤ u32 r.params 0 → u32 r.params 0 ≤ 60000000 → 1 ≤ u8 r.params 4 →
    u8 r.params 4 ≤ 2 → u32 r.params 8 < 64 → domLists (tIndex r.target) (u8 r.params 4) = true →
    exec (.domPcfg mb) s = .next (finish mb (.commit []
      (let b := domBase (tIndex r.target)
       let t := (((s.setFld b 3 2 (u8 r.params 4)).setFld (b + 8) 5 0 (u32 r.params 8)).setFld (b + 4) 25 0
         (u32 r.params 0)).setFlag b 0
       t.setDom (tIndex r.target) { t.dom (tIndex r.target) with idleAt := t.tick })) s)) ∧
  (∀ mb r s, Ready mb.val 0x0B12 r s → ∃ res,
    exec (.domStatus mb) s = .next (finish mb (.query res) s) ∧
    slice res 0 1 = [byte (s.dom (tIndex r.target)).st] ∧ slice res 16 16 = (s.dom (tIndex r.target)).lastWake) ∧
  (∀ mb r s, Ready mb.val 0x0B13 r s → exec (.domKeeper mb) s = .next (finish mb (.query
    (le 4 s.keeper.epoch ++ le 4 s.keeper.ltnCount ++ le 8 s.keeper.ltnWall ++ le 8 s.rtcNow ++
      le 4 s.keeper.sealCseq ++ [byte (b2n s.keeper.sealValid + 2 * b2n s.keeper.retLow)])) s))

/-- Entries, wakes, the core supply, and the keeper's rows (R278, R459 to R465, R469 to R471, R473 to R477).

For each of these, `exec` answers a next state under hypotheses on the state and the operands alone: domainEntry,
domainWake, wakeComplete, idleTimerExpiry, vcoreAck, vcoreAckTimeout, pmAlert, wakeInput, wallPairWrite, norWallWrite,
palarmDue, retLow, vbakLoss, vbakRestored. -/
def Obligations.PowerDomainAndKeeperRowsComplete : Prop :=
  -- from AP0 to AP3 one stage at a time
  (∀ d t why s, (s.dom d.val).entry = some (t, why) → s.warden.safe = false → s.warden.mode = false →
    (s.dom d.val).ap < 3 →
    exec (.domainEntry d) s = .next
      (let u := s.setDom d.val { s.dom d.val with ap := (s.dom d.val).ap + 1 }
       if (s.dom d.val).ap = 1 then padHold d.val true u else u)) ∧
  -- at AP3 a bank or port die is lowered: counted, told, and its command answered
  (∀ d t why s, (s.dom d.val).entry = some (t, why) → s.warden.safe = false → (s.dom d.val).ap = 3 →
    isGrp d.val = false → (s.dom d.val).wakeAfter = none →
    exec (.domainEntry d) s = .next (completeWhere (fun w => w == .domain d.val t) .ok []
      (raiseEvent (domEv d.val) 1 [byte d.val, byte (s.dom d.val).st, byte t, byte why]
        ((s.setDom d.val { s.dom d.val with st := t, entry := none
                                            entries := ((s.dom d.val).entries + 1) % 4294967296 }).incFld
          (domBase d.val + 12) 31 16)))) ∧
  (∀ d src s, domainExists s.variant d.val = true → s.boot.up = true → s.wakeEnabled d.val src.val = true →
    exec (.domainWake d src) s = .next (domWake d.val src.val s)) ∧
  (∀ d src t0 s, (s.dom d.val).wake = some (src, t0) → s.warden.safe = false → isGrp d.val = false → d.val ≠ 2 →
    (s.dom d.val).deferred = none → s.variant = .svh16 →
    exec (.wakeComplete d) s = .next (completeWhere (fun w => w == .domain d.val 0) .ok []
      (unprepareDom d.val (raiseEvent (domEv d.val) 1
        [byte d.val, byte (s.dom d.val).st, 0, byte (if src == 24 then 3 else 2)]
        (domReset d.val (s.dom d.val).st (s.setDom d.val { s.dom d.val with
          st := 0, ap := 0, wake := none, deferred := none, idleAt := s.tick
          wakeUs := (s.tick - t0) / 100 })))))) ∧
  -- an idle domain that may leave goes to the state its register names
  (∀ d s, s.idleRuns d.val = true → (s.dom d.val).st = 0 → (s.dom d.val).entry = none →
    (s.dom d.val).wake = none → s.tick = (s.dom d.val).idleAt + ticksUs (s.fld (domBase d.val + 4) 25 0) →
    domLists d.val (s.fld (domBase d.val) 3 2) = true → s.mayLeave none d.val (s.fld (domBase d.val) 3 2) = true →
    exec (.idleTimerExpiry d) s = .next (startEntry d.val (s.fld (domBase d.val) 3 2) 1 s)) ∧
  (∀ mv k s, s.power.vcorePend = some (mv, k) →
    exec .vcoreAck s = .next (vcoreGo (raiseEvent 102 1 ([0, 0] ++ le 2 mv ++ [byte k])
      { s with power.vcorePend := none, power.vcoreMv := mv }))) ∧
  -- 2 ms of silence: the first writes the value again, the second is FS94
  (∀ w mv s, s.power.vcorePend = some (mv, 1) →
    exec (.vcoreAckTimeout w) s = .next
      (let t := s.waitUntil (s.power.vcoreAt + ticksMs 2)
       { t with power.vcorePend := some (mv, 2), power.vcoreAt := t.tick }.incFld 0x6008 23 16)) ∧
  (∀ w mv s, s.power.vcorePend = some (mv, 2) → mv ≠ 800 →
    exec (.vcoreAckTimeout w) s = .next (faultPulse 94 (vcoreGo (raiseEvent 102 2
      ([0, 0] ++ le 2 mv ++ le 2 w.toNat)
      ({ s.waitUntil (s.power.vcoreAt + ticksMs 2) with
         power.vcorePend := none, power.pmsw := w.toNat }.setFlag 0x6000 12))))) ∧
  (∀ w s, exec (.pmAlert w) s = .next
    (let bad := bit w.toNat 15 || bit w.toNat 5 || bit w.toNat 4 || bit w.toNat 3
     let t := raiseEvent 102 3 (zeros 4 ++ le 2 w.toNat ++ [byte (b2n bad)]) { s with power.pmsw := w.toNat }
     if bad then faultPulse 94 t else t)) ∧
  -- an armed edge of either polarity is latched with the RTC's low word; before the hub is up it waits to be told
  (∀ i r s, bit s.keeper.wakeCfg i.val = true → bits s.keeper.wakeCfg (5 + 2 * i.val) (4 + 2 * i.val) = 2 →
    s.boot.up = false →
    exec (.wakeInput i r) s = .next { s with keeper := { s.keeper with
      wakeSeen := s.keeper.wakeSeen ||| 2 ^ i.val, wakeLast := i.val, wakeTime := s.rtcNow % 4294967296
      wakeOff := s.keeper.wakeOff ||| 2 ^ i.val } }) ∧
  (∀ s, s.warden.safe = false → s.boot.up = true →
    exec .wallPairWrite s = .next
      (let t := s.waitUntil (s.keeper.pairAt + ticksS 60)
       { t with keeper := { t.keeper with wallNs := t.chicory.wall.ns, wallRtc := t.rtcNow, pairAt := t.tick
                                          wallValid := t.chicory.wall.valid } })) ∧
  (∀ s, s.warden.safe = false → s.boot.up = true → s.chicory.wall.valid = true →
    exec .norWallWrite s = .next
      (let t := s.waitUntil (s.boot.norWallAt + ticksS 86400)
       { t with boot.norWall := t.chicory.wall.ns, boot.norWallAt := t.tick })) ∧
  (∀ s, s.reg 0x6014 + 4294967296 * s.reg 0x6018 ≠ 0 → s.power.alarmDone = false → s.warden.safe = false →
    exec .palarmDue s = .next
      (let t := s.waitUntil (s.tick + s.chicory.wall.ticksTo (s.reg 0x6014 + 4294967296 * s.reg 0x6018))
       wakeAll 5 { t with power.alarmDone := true })) ∧
  (∀ s, s.boot.up = true → s.warden.safe = false →
    exec .retLow s = .next (epochBreak 4 (raiseEvent 101 2 [] { s with keeper.retLow := true }))) ∧
  (∀ s, s.keeper.vbakLow = false → s.boot.up = false →
    exec .vbakLoss s = .next (raiseEvent 101 3 [1] { s with keeper.vbakLow := true })) ∧
  (∀ s, s.keeper.vbakLow = true →
    exec .vbakRestored s = .next (raiseEvent 101 3 [0] { s with keeper.vbakLow := false }))

/-- The `fw.*` and `prof.*` commands, decided when ready, and the end of an erase (R299, R489, R494, R496, R497).

For each of these, `exec` answers a next state under hypotheses on the state and the operands alone: fwInfo, fwBegin,
fwWrite, fwVerify, fwActivate, fwCancel, eraseEnd, profRead, profWrite. -/
def Obligations.FirmwareCommandsComplete : Prop :=
  (∀ mb r s, Ready mb.val 0x0C01 r s → s.boot.pendingAct = none →
    exec (.fwInfo mb) s = .next (finish mb (.query (slotInfo s.boot.slotA ++ slotInfo s.boot.slotB ++
      [byte s.boot.otpThermo] ++ ([0xFF, 0, 0] ++ zeros 8))) s)) ∧
  -- an erase begins on a slot that does not run; the estimate of its time is a free value
  (∀ mb r n s, Ready mb.val 0x0C02 r s → slotArg r = some n → 1 ≤ u32 r.params 4 → u32 r.params 4 ≤ 1835008 →
    s.fwLocked = false → s.boot.running ≠ n → (s.boot.slot n).st ≠ 5 → (s.boot.slot n).st ≠ 1 →
    ∃ res t, exec (.fwBegin mb) s = .next (finish mb (.commit res t) s) ∧ res.length = 4 ∧
      t.boot.slot n = { st := 1, size := u32 r.params 4 } ∧ t.boot.slot (!n) = s.boot.slot (!n)) ∧
  (∀ mb r n s, Ready mb.val 0x0C03 r s → slotArg r = some n → r.hasData = true → (s.boot.slot n).st = 2 →
    u32 r.params 4 = (s.boot.slot n).bytes.length →
    (s.boot.slot n).bytes.length + r.data.length ≤ (s.boot.slot n).size → s.fwLocked = false →
    exec (.fwWrite mb) s = .next (finish mb (.commit (le 4 ((s.boot.slot n).bytes ++ r.data).length)
      { s with boot := s.boot.setSlot n { s.boot.slot n with
          bytes := (s.boot.slot n).bytes ++ r.data
          st := if ((s.boot.slot n).bytes ++ r.data).length == (s.boot.slot n).size then 3 else 2 } }) s)) ∧
  (∀ mb r n s, Ready mb.val 0x0C04 r s → slotArg r = some n →
    exec (.fwVerify mb) s = .next (finish mb
      (let o := imageOutcome s.variant s.boot.otpThermo (s.boot.slot n)
       .commit [byte o] (raiseEvent 120 2 [byte (b2n n), byte o] { s with
         boot := s.boot.setSlot n { s.boot.slot n with
           st := if o == 0 && (s.boot.slot n).st == 3 then 4 else (s.boot.slot n).st } })) s)) ∧
  (∀ mb r n s, Ready mb.val 0x0C05 r s → slotArg r = some n → u8 r.params 1 ≤ 1 → s.fwLocked = false →
    (s.boot.slot n).st = 4 →
    exec (.fwActivate mb) s = .next (finish mb (.commit []
      { s with boot.pendingAct := some (n, u8 r.params 1, u64 r.params 8) }) s)) ∧
  (∀ mb r n s, Ready mb.val 0x0C06 r s → slotArg r = some n → s.fwLocked = false → s.boot.pendingAct = none →
    exec (.fwCancel mb) s = .next (finish mb (.commit []
      (if (s.boot.slot n).st = 2 then { s with boot := s.boot.setSlot n {} } else s)) s)) ∧
  (∀ b s, (s.boot.slot b).st = 1 → s.boot.dark = false → s.warden.safe = false →
    exec (.eraseEnd b) s = .next (raiseEvent 120 1 [byte (b2n b)]
      { s with boot := s.boot.setSlot b { s.boot.slot b with st := 2 } })) ∧
  (∀ mb r s, Ready mb.val 0x0C11 r s → u32 r.params 0 ≤ s.boot.norProfile.length →
    exec (.profRead mb) s = .next (finish mb (.query (le 4 s.boot.norProfile.length ++
      le 4 (u32 s.boot.norProfile 8) ++ zeros 8 ++ slice s.boot.norProfile (u32 r.params 0) 224)) s)) ∧
  -- a profile whose length and CRC-32 are those given stands for the next chip-level start
  (∀ mb r s, Ready mb.val 0x0C12 r s → r.hasData = true → 16 ≤ u32 r.params 0 → u32 r.params 0 ≤ 65536 →
    r.data.length = u32 r.params 0 → u32 r.data 8 = u32 r.params 4 → crc32 (r.data.drop 16) = u32 r.params 4 →
    exec (.profWrite mb) s = .next (finish mb
      (if s.profLocked then .refuse .locked []
       else .commit [] (raiseEvent 121 1 (le 4 (u32 r.params 4)) { s with boot.nextProfile := some r.data })) s))

/-- The `test.*` commands, the ends of self-tests, and the test access port (R301, R503 to R512).

For each of these, `exec` answers a next state under hypotheses on the state and the operands alone: testTmux,
testBist, testLoop, testResult, bistDone, loopDone, tapClock. -/
def Obligations.TestCommandsComplete : Prop :=
  (∀ mb r s, Ready mb.val 0x0E01 r s → u8 r.params 0 ≤ 7 → u8 r.params 1 ≤ 7 → u16 r.params 2 ≠ 0xFFFF →
    s.tmuxCode (u8 r.params 1) (u16 r.params 2) = true →
    exec (.testTmux mb) s = .next (finish mb
      (if s.hrs.lock0.getLsbD 7 then .refuse .locked [] else if s.boot.otpTmuxOff then .refuse .notPermitted []
       else .commit [] ((s.setReg (0xE10 + 4 * u8 r.params 0) (u8 r.params 1 + 65536 * u16 r.params 2)).setFlag
         0xE00 11)) s)) ∧
  (∀ mb r s, Ready mb.val 0x0E02 r s → tScope r.target = 1 → r.params = [] →
    s.safetyGroup (tIndex r.target) = false → s.groupUp (tIndex r.target) = true → s.test.bist = 0 →
    exec (.testBist mb) s = .next (finish mb (.commitWait .bist (bistStop (tIndex r.target) s)) s)) ∧
  (∀ mb r s, Ready mb.val 0x0E03 r s → 1 ≤ u16 r.params 0 → u16 r.params 0 ≤ 1000 →
    s.portSlots (tIndex r.target) = [] → (s.port (tIndex r.target)).usb.transparent = false →
    s.test.loopPort = none →
    exec (.testLoop mb) s = .next (finish mb (.commitWait (.loop (tIndex r.target)) { s with test := { s.test with
      loopPort := some (tIndex r.target), loopEnd := 0, loopAt := s.tick, loopMs := u16 r.params 0 } }) s)) ∧
  (∀ mb r s, Ready mb.val 0x0E04 r s → exec (.testResult mb) s = .next (finish mb (.query
    ([byte s.test.bistResult, 0, 0, 0] ++ le 4 s.test.bistSig ++ le 4 s.test.loopPackets ++
      le 4 s.test.loopErrors)) s)) ∧
  -- a failed logic self-test, 150 ms from its commit (the model's choice, log 59), leaves the engine in reset
  (∀ sig s, s.warden.safe = false → s.test.bist = 1 →
    (s.chanSet.any fun e => e.2.grp == s.test.bistOf && e.2.pausing) = false →
    exec (.bistDone false sig) s = .next (bistFinish s.test.bistOf (groupEvent s.test.bistOf 8 [3]
      (let w := s.waitUntil (s.test.bistAt + ticksMs 150)
       let t := { w with test := { w.test with bistResult := 1, bistSig := sig.toNat } }
       t.setGroup s.test.bistOf { t.group s.test.bistOf with engine := 3 })))) ∧
  (∀ n e p s, s.test.loopPort = some p → s.test.loopEnd ≠ 0 → s.warden.safe = false →
    exec (.loopDone n e) s = .next (completeWhere (fun w => w == .loop p) .ok
      (le 4 (n % 4294967296) ++ le 4 (e % 4294967296))
      (raiseEvent 122 2 ([byte p, byte s.test.loopEnd, 0, 0] ++ le 4 (e % 4294967296))
        { s with test := { s.test with
            loopPort := none, loopPackets := n % 4294967296, loopErrors := e % 4294967296 } }))) ∧
  -- one clock of TCK moves the controller as IEEE 1149.1 has it, from Test-Logic-Reset after a rise of RESET_N
  (∀ tms tdi low s, ∃ t, exec (.tapClock tms tdi low) s = .next t ∧
    t.test.tap.st = tapNext (if s.test.tap.resetLow && !low then 0 else s.test.tap.st) tms) ∧
  (∀ tdi low s, s.test.tap.st = 4 → (s.test.tap.resetLow && !low) = false →
    ∃ t, exec (.tapClock false tdi low) s = .next t ∧
      t.test.tap.tdo = bit s.test.tap.dr 0 ∧
      t.test.tap.dr = shiftIn s.test.tap.instr.drLen s.test.tap.dr tdi)

/-- The command interface as the host drives it: doorbells, releases, aborts, data units, the command pipe (R64, R65,
R81 to R84, R97, R99).

For each of these, `exec` answers a next state under hypotheses on the state and the operands alone: doorbellRing,
cciDoneWrite, abortReqWrite, dataUnit, dtimeoutExpiry, mailboxResponse, commandPipeTransfer. -/
def Obligations.MailboxRowsComplete : Prop :=
  -- one doorbell bit: an IDLE mailbox takes its command, any other sets DB_VIOL
  (∀ (n : Fin 8) s, s.hostWrites = true → (s.mb n.val).state = .idle →
    exec (.doorbellRing (BitVec.ofNat 8 (2 ^ n.val))) s = .next (accept n.val s)) ∧
  (∀ (n : Fin 8) s, s.hostWrites = true → (s.mb n.val).state ≠ .idle →
    exec (.doorbellRing (BitVec.ofNat 8 (2 ^ n.val))) s = .next (s.setFlag 0x110 10)) ∧
  -- a release frees a mailbox in DONE, any other sets DB_VIOL
  (∀ (n : Fin 8) s, s.hostWrites = true →
    exec (.cciDoneWrite (BitVec.ofNat 8 (2 ^ n.val))) s = .next
      (if (s.mb n.val).state = .done then s.setMb n.val { s.mb n.val with state := .idle }
       else s.setFlag 0x110 10)) ∧
  (∀ s, s.hostWrites = true → exec (.abortReqWrite 0) s = .next s) ∧
  (∀ (mask : Byte) s, s.hostWrites = true → mask ≠ 0 → s.warden.safe = false → s.warden.mode = true →
    (s.dom 2).st = 0 → (s.dom 2).entry = none →
    exec (.abortReqWrite mask) s = .next (resolveAborts (domWake 2 8 { s with
      cci.abortReq := s.cci.abortReq ||| mask.toNat
      cci.abortSince := if s.cci.abortReq = 0 then s.tick else s.cci.abortSince }))) ∧
  -- a unit of another length than 64, one without credit, and one that no command takes
  (∀ b s, s.hostWrites = true → b.length ≠ 64 → exec (.dataUnit b) s = .next (s.setFlag 0x110 14)) ∧
  (∀ b s, s.hostWrites = true → b.length = 64 → s.avail = 0 →
    exec (.dataUnit b) s = .next (let t := s.setFlag 0x110 12
      raiseEvent 110 1 (le 2 (t.reg 0x110 + 2 * b2n t.dataOn)) t)) ∧
  (∀ b s, s.hostWrites = true → b.length = 64 → s.avail ≠ 0 →
    (s.mb (u32 b 0 % 8)).state ≠ .posted ∨ (s.mb (u32 b 0 % 8)).data = false ∨ (s.mb (u32 b 0 % 8)).dead = true →
    exec (.dataUnit b) s = .next (creditEvent 1 (s.setFlag 0x110 13))) ∧
  -- a unit in sequence costs a credit and joins the buffer
  (∀ b n t s, s.hostWrites = true → b.length = 64 → s.avail ≠ 0 → s.flag 0x110 0 = true → u32 b 0 % 8 = n →
    (s.mb n).state = .posted → (s.mb n).data = true → (s.mb n).dead = false → unitIn n s = t →
    (t.mb n).takesUnits = true → (t.mb n).lastSeen = false → bits (u32 b 0) 31 16 = (t.mb n).nextUnit →
    exec (.dataUnit b) s = .next (t.setMb n { t.mb n with
      buf := (t.mb n).buf ++ slice b 4 (min (bits (u32 b 0) 9 4) 60), nextUnit := (t.mb n).nextUnit + 1
      lastSeen := bit (u32 b 0) 3 })) ∧
  (∀ (mb : Fin 8) s, (s.mb mb.val).takesUnits = true → (s.mb mb.val).lastSeen = false →
    s.warden.safe = false → ∃ u,
    u = s.waitUntil ((s.mb mb.val).since + ticksMs (s.fld 0x118 11 0)) ∧
    exec (.dtimeoutExpiry mb) s = .next (answer mb.val (refusal .timeout [] u)
      (u.setMb mb.val { u.mb mb.val with buf := [], dead := true }))) ∧
  -- the response in the window, DONE; a quiet command raises no event
  (∀ (mb : Fin 8) r s, (s.mb mb.val).state = .posted → (s.mb mb.val).phase = .answered r → s.hostOn = true →
    s.warden.safe = false → (s.warden.mode = true ∨ s.mgmtDown = none) →
    exec (.mailboxResponse mb) s = .next (respond mb.val r s)) ∧
  -- the command pipe: window and doorbell in one, or DB_VIOL
  (∀ b s, s.hostWrites = true → s.usbHost = true → s.hub.suspended = false → s.hub.casideSuspended = false →
    20 ≤ b.length → u8 b 0 ≤ 7 → allZero b 1 4 = true → b.length = 20 + u16 b 16 →
    (s.mb (u8 b 0)).state = .idle →
    exec (.commandPipeTransfer b) s = .next (accept (u8 b 0) (s.setMb (u8 b 0)
      { s.mb (u8 b 0) with win := putWin (s.mb (u8 b 0)).win 0 (slice b 4 256) }))) ∧
  (∀ b s, s.hostWrites = true → s.usbHost = true → s.hub.suspended = false → s.hub.casideSuspended = false →
    b.length < 20 → exec (.commandPipeTransfer b) s = .next (s.setFlag 0x110 10))

/-- The event queue and the record stream as the host reads them (R85, R86, R94, R98, R260, R275).

For each of these, `exec` answers a next state under hypotheses on the state and the operands alone: eventRead,
streamRead, ep1InTransferEnd, ep3InEventPacket. -/
def Obligations.QueueReadRowsComplete : Prop :=
  -- all four words take the oldest event off the queue; fewer leave it
  (∀ (w : Fin 5) s, s.hostOn = true →
    exec (.eventRead w) s = .next
      (if w.val = 4 then dropEvents 1 { s with rdata := s.evHead.take 16 }
       else { s with rdata := s.evHead.take (4 * w.val) })) ∧
  -- fewer than sixteen words change nothing
  (∀ (w : Fin 17) s, s.hostOn = true → w.val < 16 →
    exec (.streamRead w) s = .next { s with rdata := (fit 64 (takeBytes 64 s.deliverable).1).take (4 * w.val) }) ∧
  -- sixteen take the bytes they return; records whose last byte left are delivered
  (∀ s, s.hostOn = true →
    exec (.streamRead 16) s = .next (delivered (takeBytes 64 s.deliverable).2.1
      ((takeBytes 64 s.deliverable).2.2 ++ s.cci.ring.drop s.deliverable.length)
      { s with rdata := (fit 64 (takeBytes 64 s.deliverable).1).take 64 })) ∧
  (∀ s, s.hostOn = true → s.usbHost = true → s.hub.suspended = false → s.hub.casideSuspended = false →
    exec (.ep1InTransferEnd false) s = .next
      { s with rdata := ((transferOf 4096 s.deliverable).map (·.2)).flatten } ∧
    exec (.ep1InTransferEnd true) s = .next (delivered ((transferOf 4096 s.deliverable).map (·.1))
      (s.cci.ring.drop (transferOf 4096 s.deliverable).length)
      { s with rdata := ((transferOf 4096 s.deliverable).map (·.2)).flatten })) ∧
  (∀ (n : Fin 5) ack s, s.hostOn = true → s.usbHost = true → s.hub.suspended = false →
    s.hub.casideSuspended = false →
    exec (.ep3InEventPacket n ack) s = .next
      (if ack then dropEvents n.val { s with rdata := ((s.cci.evq.take n.val).map Event.bytes).flatten }
       else { s with rdata := ((s.cci.evq.take n.val).map Event.bytes).flatten }))

/-- Writes to the register space (R30, R35, R38, R41, R43, R46, R428, R434, R467, R476, R504).

For each of these, `exec` answers a next state under hypotheses on the state and the operands alone: registerWrite,
lockBitSet, bitAliasWrite, ltnClr, postedWriteComplete, padHoldRelease, campClear, campForce, tmuxSelWrite. -/
def Obligations.RegisterWriteRowsComplete : Prop :=
  -- any register of the space: a write that alters no reserved live field answers a next state
  (∀ (off : BitVec 16) (val : Word) s, s.hostWrites = true → off.toNat % 4 = 0 → off.toNat < 0x7000 →
    val.toNat &&& rsvMask s.variant off.toNat = 0 → ∃ t, exec (.registerWrite off val) s = .next t) ∧
  -- offsets without a register ignore it
  (∀ (off : BitVec 16) (val : Word) s, s.hostWrites = true → off.toNat % 4 = 0 → 0x7000 ≤ off.toNat →
    off.toNat < 0x8000 → exec (.registerWrite off val) s = .next s) ∧
  -- lock bits join those set; nothing else changes
  (∀ (val : Word) s, s.hostWrites = true → val.toNat < 1024 →
    exec (.lockBitSet 0x300 val) s = .next { s with hrs.lock0 := s.hrs.lock0 ||| val }) ∧
  (∀ (val : Word) s, s.hostWrites = true →
    exec (.lockBitSet 0x304 val) s = .next { s with hrs.portLo := s.hrs.portLo ||| val }) ∧
  (∀ (val : Word) s, s.hostWrites = true → s.variant = .svh48 → val.toNat < 65536 →
    exec (.lockBitSet 0x308 val) s = .next { s with hrs.portHi := s.hrs.portHi ||| val }) ∧
  -- the bit region writes one bit under its access type: here lock bit n of HRS_LOCK0
  (∀ (off : BitVec 16) (val : Word) s, s.hostWrites = true → off.toNat % 4 = 0 → 0x8000 ≤ off.toNat →
    exec (.bitAliasWrite off val) s = .next (writeBit off.toNat val.toNat s)) ∧
  -- a posted write waits for its domain; the keeper's here
  (∀ s, s.hostWrites = true → (∀ p ∈ s.hrs.posted, p.dom ≠ 0) →
    exec .ltnClr s = .next { s with hrs.posted := s.hrs.posted ++ [{ dom := 0, off := 0xD10, val := 0x10000 }] }) ∧
  (∀ (d : Fin 3) p l s, s.hrs.posted = p :: l → p.dom = d.val →
    exec (.postedWriteComplete d) s = .next
      (if d.val = 0 then writeKeeper p.off p.val.toNat { s with hrs.posted := l }
       else writePlain p.off p.val.toNat 4294967295 false { s with hrs.posted := l })) ∧
  (∀ (val : Word) s, s.hostWrites = true → s.windowOpen 5 = true → val.toNat &&& rsvMask s.variant 0x6010 = 0 →
    exec (.padHoldRelease val) s = .next (releasePads val.toNat s)) ∧
  -- the selected source is cleared unless its cause is still present
  (∀ s, s.hostWrites = true →
    exec .campClear s = .next
      (if (s.src (s.fld 0xC04 6 0)).st = 3 then s.setFlag 0xC00 10 else clearSrc (s.fld 0xC04 6 0) s)) ∧
  (∀ (pat : BitVec 2) s, s.hostWrites = true →
    exec (.campForce pat) s = .next
      (if s.cci.expert.contains 0x0A && !(s.safetyValid && srcFixed (s.fld 0xC04 6 0)) then
         forceSrc (s.fld 0xC04 6 0) pat.toNat s
       else s.setFlag 0xC00 10)) ∧
  (∀ (n : Fin 8) sel code s, s.hostWrites = true → s.cci.expert.contains 0x0E = true → s.boot.otpTmuxOff = false →
    sel ≤ 5 → code < 65535 → s.tmuxCode sel code = true → ∃ t,
    exec (.tmuxSelWrite (BitVec.ofNat 16 (0xE10 + 4 * n.val)) (BitVec.ofNat 32 (sel + 65536 * code))) s = .next t ∧
    t.fld (0xE10 + 4 * n.val) 2 0 = sel ∧ t.fld (0xE10 + 4 * n.val) 31 16 = code)

/-- Reads of the register space (R34, R45, R140).

For each of these, `exec` answers a next state under hypotheses on the state and the operands alone: rcFieldRead,
loRegisterRead, bitAliasRead. -/
def Obligations.RegisterReadRowsComplete : Prop :=
  -- a read returns the register's value and clears its RC bits
  (∀ (off : BitVec 16) s, s.hostOn = true → off.toNat % 4 = 0 → off.toNat < 0x8000 →
    Tbl.getD none s.hrs.latched off.toNat = none → ∃ t, exec (.rcFieldRead off) s = .next t ∧
    t.rdata = le 4 (s.regValue off.toNat) ∧
    (off.toNat ≠ 0x14 → s.absentReg off.toNat = false → s.dieOff off.toNat = false →
      ∀ n, bit (rcMask s.variant off.toNat) n = true → bit (t.reg off.toNat) n = false)) ∧
  -- a read of a *_LO register latches its partners
  (∀ (off : BitVec 16) s, s.hostOn = true → off.toNat % 4 = 0 → off.toNat < 0x8000 →
    Tbl.getD none s.hrs.latched off.toNat = none → ∃ t, exec (.loRegisterRead off) s = .next t ∧
    t.rdata = le 4 (s.regValue off.toNat) ∧
    ∀ h ∈ partners off.toNat, Tbl.getD none t.hrs.latched h = some (BitVec.ofNat 32 (s.regValue h))) ∧
  -- a read in the bit region returns the bit; a bit of no RC field stays
  (∀ (off : BitVec 16) s, s.hostOn = true → off.toNat % 4 = 0 → 0x8000 ≤ off.toNat →
    noMirror (mirrorBit off.toNat).1 = false → ∃ t, exec (.bitAliasRead off) s = .next t ∧
    t.rdata = le 4 (b2n (bit (s.regValue (mirrorBit off.toNat).1) (mirrorBit off.toNat).2)))

/-- The USB and SPI paths to the register space (R55, R56, R59 to R62).

For each of these, `exec` answers a next state under hypotheses on the state and the operands alone: regRead,
regWrite, spiReadFrame, spiWriteFrame, spiStatusFrame, spiFrameRefused. -/
def Obligations.RegisterPathRowsComplete : Prop :=
  (∀ (off : BitVec 16) len s, s.hostOn = true → s.usbHost = true →
    exec (.regRead off len) s = .next
      (if rangeBad off.toNat len then pipeAnswer true { s with rdata := [] }
       else pipeAnswer false (readFrame off.toNat (len / 4) s))) ∧
  (∀ (off : BitVec 16) len data s, s.hostOn = true → s.usbHost = true → rangeBad off.toNat len = true →
    exec (.regWrite off len data) s = .next (pipeAnswer true s)) ∧
  (∀ (off : BitVec 16) len data t s, s.hostWrites = true → s.usbHost = true → rangeBad off.toNat len = false →
    data.length = len → writeFrame off.toNat data s = some t →
    exec (.regWrite off len data) s = .next (pipeAnswer false t)) ∧
  -- a word of the window of a mailbox that is not POSTED
  (∀ (n : Fin 8) (o : Fin 64) (v : Word) s, s.hostWrites = true → s.usbHost = true →
    (s.mb n.val).state ≠ .posted →
    exec (.regWrite (BitVec.ofNat 16 (0x400 + 0x100 * n.val + 4 * o.val)) 4 (le 4 v.toNat)) s = .next
      (pipeAnswer false
        (s.setMb n.val { s.mb n.val with win := putWin (s.mb n.val).win (4 * o.val) (le 4 v.toNat) }))) ∧
  -- a read frame: at most 32 status bytes, 0xA5, the data and their CRC, all of it clocked out
  (∀ h st n t s, s.spiOn = true → h.length = 4 → u8 h 0 = 3 → rangeBad (spiOff h) (4 * spiCount h) = false →
    st ≤ 32 → readFrame (spiOff h) (spiCount h) (spiStatus 0 s) = t → st + 2 + t.rdata.length ≤ n →
    exec (.spiReadFrame h st n) s = .next
      { t with rdata := zeros st ++ [0xA5] ++ t.rdata ++ [byte (crc8 (h ++ t.rdata))] }) ∧
  -- one cut short, or that the hub could not answer in time, has no effect but its status and what it drove
  (∀ h st n t s, s.spiOn = true → h.length = 4 → u8 h 0 = 3 → rangeBad (spiOff h) (4 * spiCount h) = false →
    readFrame (spiOff h) (spiCount h) (spiStatus 0 s) = t → n < st + 2 + t.rdata.length ∨ 32 < st →
    exec (.spiReadFrame h st n) s = .next (spiStatus 8 { s with rdata := (spiDriven h t.rdata st).take n })) ∧
  (∀ b t s, s.spiOn = true → s.hostWrites = true → 5 + 4 * spiCount b ≤ b.length → u8 b 0 = 2 →
    rangeBad (spiOff b) (4 * spiCount b) = false →
    crc8 (b.take (4 + 4 * spiCount b)) = u8 b (4 + 4 * spiCount b) →
    writeFrame (spiOff b) (slice b 4 (4 * spiCount b)) s = some t →
    exec (.spiWriteFrame b) s = .next (spiStatus 1 t)) ∧
  -- a wrong CRC applies nothing
  (∀ b s, s.spiOn = true → 5 + 4 * spiCount b ≤ b.length → u8 b 0 = 2 →
    rangeBad (spiOff b) (4 * spiCount b) = false →
    crc8 (b.take (4 + 4 * spiCount b)) ≠ u8 b (4 + 4 * spiCount b) →
    exec (.spiWriteFrame b) s = .next (spiStatus 2 s)) ∧
  (∀ s, s.spiOn = true → exec .spiStatusFrame s = .next
    { s with rdata := [byte s.hrs.spiStatus, byte (crc8 [5, byte s.hrs.spiStatus])] }) ∧
  -- fewer than four bytes, but for a status frame
  (∀ b s, s.spiOn = true → b.length < 4 → u8 b 0 ≠ 5 → exec (.spiFrameRefused b) s = .next (spiStatus 16 s))

/-- The events of the angle clocks (R106 to R116, R125).

For each of these, `exec` answers a next state under hypotheses on the state and the operands alone: referenceEvent,
indexEdge, reverse, referenceLoss, holdLimExpiry, cycleWrap, anchorPeriodic. -/
def Obligations.ClockRowsComplete : Prop :=
  -- a level that does not hold is a glitch; a level change without an event only moves the lines
  (∀ (k : Fin 4) (chg : PinChange) s, s.lineChange k.val chg = .glitch → (s.ang k.val).st ≠ 0 →
    exec (.referenceEvent k chg) s =
      .next ((s.waitUntil (s.tick + chg.after)).incFld (angBase k.val + 0x28) 7 0)) ∧
  (∀ (k : Fin 4) (chg : PinChange) s u, s.lineChange k.val chg = .level → u = s.waitUntil (s.tick + chg.after) →
    exec (.referenceEvent k chg) s =
      .next (u.setAng k.val { u.ang k.val with lines := s.linesOf k.val chg.levels })) ∧
  (∀ (k : Fin 4) (chg : PinChange) s u, s.lineChange k.val chg = .illegal → (s.ang k.val).st ≠ 0 →
    u = s.waitUntil (s.tick + chg.after) →
    exec (.referenceEvent k chg) s = .next (refFault k.val 3
      ((u.setAng k.val { u.ang k.val with lines := s.linesOf k.val chg.levels }).incFld
        (angBase k.val + 0x28) 15 8))) ∧
  -- an event enters at the first tick of the new level, a backward one holds the clock
  (∀ (k : Fin 4) (chg : PinChange) s u, s.lineChange k.val chg = .event → (s.ang k.val).st ≠ 0 →
    u = (track k.val chg.after s).waitUntil (s.tick + chg.after) →
    exec (.referenceEvent k chg) s = .next (refEvent k.val (edgeRate k.val
      (u.setAng k.val { u.ang k.val with lines := s.linesOf k.val chg.levels })))) ∧
  (∀ (k : Fin 4) (chg : PinChange) s u, s.lineChange k.val chg = .backward → (s.ang k.val).st ≠ 0 →
    u = s.waitUntil (s.tick + chg.after) →
    exec (.referenceEvent k chg) s = .next (reverseOn k.val (edgeRate k.val
      (u.setAng k.val { u.ang k.val with lines := s.linesOf k.val chg.levels })))) ∧
  -- the first event assigns the angle, later ones drive the loop
  (∀ (k : Fin 4) s, (s.ang k.val).st ≠ 0 → (s.ang k.val).fast = false → (s.ang k.val).reverse = false →
    (s.ang k.val).seen = 0 → (s.ang k.val).rate = 0 → s.angMode k.val ≠ 3 →
    refEvent k.val s = refQuiet k.val (s.setAng k.val { s.ang k.val with
      angle := s.fld (angBase k.val + 0x10) 15 0, base := s.fld (angBase k.val + 0x10) 15 0, evIdx := 0, seen := 1
      owe := 0, lastEvent := s.tick, inCycle := 0, cycleAt := s.tick })) ∧
  (∀ (k : Fin 4) s, (s.ang k.val).st ≠ 0 → (s.ang k.val).fast = false → (s.ang k.val).reverse = false →
    (s.ang k.val).seen ≠ 0 →
    ((refUpdate k.val s).ang k.val).rate = 0 ∨ rateInRange ((refUpdate k.val s).ang k.val).rate = true →
    refEvent k.val s = refQuiet k.val (refUpdate k.val s)) ∧
  -- accepted edges less than 500 ns apart, above 2 MHz, are a fault and reference loss
  (∀ (k : Fin 4) e s, (s.ang k.val).edgeAt = some e → s.tick - e < 50 → (s.ang k.val).fast = false →
    edgeRate k.val s = refLoss k.val (refFault k.val 1
      (s.setAng k.val { s.ang k.val with edgeAt := some s.tick, fast := true }))) ∧
  -- an index edge of the polarity its capture input selects
  (∀ (k : Fin 4) (m : Fin 8) after hold rising s u, u = s.waitUntil (s.tick + after) → (u.ang k.val).st ≠ 0 →
    u.fld (angBase k.val + 4) 11 8 = m.val → u.angMode k.val = 1 ∨ u.angMode k.val = 2 →
    hold < u.fld (pcapBase m.val) 23 16 →
    exec (.indexEdge k m after hold rising) s = .next (u.incFld (angBase k.val + 0x28) 7 0)) ∧
  (∀ (k : Fin 4) (m : Fin 8) after hold rising s u, u = s.waitUntil (s.tick + after) → (u.ang k.val).st ≠ 0 →
    u.fld (angBase k.val + 4) 11 8 = m.val → u.angMode k.val = 1 ∨ u.angMode k.val = 2 →
    u.fld (pcapBase m.val) 23 16 ≤ hold → (u.ang k.val).reverse = false → u.pcapEdge m.val rising = true →
    (u.indexOff k.val).natAbs ≤ 4 ∨ (u.ang k.val).firstIndex = true → ∃ t,
    exec (.indexEdge k m after hold rising) s = .next t ∧ (t.ang k.val).indexed = true ∧
    (t.ang k.val).firstIndex = false ∧ (t.ang k.val).base = u.fld (angBase k.val + 0x10) 15 0 ∧
    (t.ang k.val).pherr = (u.ang k.val).errorTo (u.fld (angBase k.val + 0x10) 15 0)) ∧
  -- the direction of rotation, against DIR
  (∀ (k : Fin 4) a s, (s.ang k.val).st ≠ 0 → s.angMode k.val = 2 → (s.ang k.val).reverse = false →
    a = s.flag (angBase k.val + 4) 7 →
    exec (.reverse k a) s = .next (raiseEvent (54 + k.val) 3 [1]
      (s.setAng k.val { s.ang k.val with reverse := true }))) ∧
  (∀ (k : Fin 4) a s, (s.ang k.val).st = 1 ∨ (s.ang k.val).st = 2 → s.angMode k.val = 2 →
    (s.ang k.val).reverse = true → (s.ang k.val).seen ≠ 0 → a ≠ s.flag (angBase k.val + 4) 7 →
    exec (.reverse k a) s = .next (raiseEvent (54 + k.val) 3 [0] (s.setAng k.val { s.ang k.val with
      reverse := false, owe := 0, firstIndex := true, base := (s.ang k.val).angle, evIdx := 0, lastEvent := s.tick
      inCycle := 0, cycleAt := s.tick }))) ∧
  (∀ (k : Fin 4) s, (s.ang k.val).st = 2 → (s.ang k.val).reverse = false →
    exec (.referenceLoss k) s = .next (refLoss k.val
      (s.waitUntil ((s.ang k.val).lastEvent + s.lossTicks k.val)))) ∧
  (∀ (tb : Fin 5) s, tb.val < 4 → (s.ang tb.val).st = 3 →
    exec (.holdLimExpiry tb) s = .next (angState tb.val 4
      (s.waitUntil ((s.ang tb.val).heldAt + ticksMs (100 * s.fld (angBase tb.val + 0x0C) 12 0))))) ∧
  (∀ (k : Fin 4) t s, s.reach k.val ((s.ang k.val).cycle * 65536 + 65536) = some t →
    exec (.cycleWrap k) s = .next t) ∧
  -- the wall clock, and a clock in use, leave an anchor at each 30 s mark
  (∀ (tb : Fin 5) s, tb.val = 4 ∨ s.inUse tb.val = true →
    Tbl.getD 0 s.chicory.anchorAt tb.val ≠ s.wallUs / 30000000 →
    exec (.anchorPeriodic tb) s = .next (anchor tb.val 1 { s with
      chicory.anchorAt := Tbl.setD 0 s.chicory.anchorAt tb.val (s.wallUs / 30000000) }))

/-- The wall clock's discipline, the phase link, captures, phase outputs and sync drivers (R119, R120, R128, R130, R132,
R133, R136 to R139).

For each of these, `exec` answers a next state under hypotheses on the state and the operands alone:
wallDisciplineEdge, wallHoldover, wallSlewEnd, linkMark, linkFrame, linkTransmit, captureEdge, phaseOutputTarget,
psyncTarget. -/
def Obligations.WallLinkAndPinRowsComplete : Prop :=
  -- an edge of the polarity PPS_EDGE selects, measured after a time.set of its own tick
  (∀ after rising s u, u = s.waitUntil (s.tick + after) → u.fld 0x1104 1 0 = 1 → rising ≠ u.flag 0x1104 2 →
    exec (.wallDisciplineEdge after rising) s = .next (wallEdge 0 (timeSetFirst u))) ∧
  (∀ s, s.disciplined = true → s.chicory.wall.st ≤ 2 →
    (s.wallOffset 0).natAbs ≤ 1000000 ∨ s.chicory.wall.edgeSeen = true →
    (wallEdge 0 s).chicory.wall.ppserr = s.wallOffset 0 ∧ (wallEdge 0 s).chicory.wall.edgeSeen = true ∧
    (wallEdge 0 s).chicory.wall.ns = s.chicory.wall.ns) ∧
  (∀ s, s.chicory.wall.st = 1 ∨ s.chicory.wall.st = 2 →
    exec .wallHoldover s = .next (wallState 3 (s.waitUntil (s.chicory.wall.lastEdge + ticksMs 1500)))) ∧
  (∀ s, exec .wallSlewEnd s = .next (s.elapse ((s.chicory.wall.slew.natAbs + 49999) / 50000))) ∧
  -- pulses of 400, 500, 600 and 700 ns, within 40 ns, are the slots' cycle marks, 1,000 ns a second mark
  (∀ (x : LinkPulse) (i : Fin 4) s u, 360 + 100 * i.val ≤ x.width → x.width ≤ 440 + 100 * i.val →
    u = ((s.linkClocks i.val).foldl (fun s k => track k x.after s) s).waitUntil (s.tick + x.after) →
    u.linkOn = true → exec (.linkMark x) s = .next (linkCycleMark i.val u)) ∧
  (∀ (x : LinkPulse) s u, 960 ≤ x.width → x.width ≤ 1040 → u = s.waitUntil (s.tick + x.after) → u.linkOn = true →
    exec (.linkMark x) s = .next (linkSecondMark (timeSetFirst u))) ∧
  -- any other width but those of a data bit is a frame error, and the frame it stands in is lost
  (∀ (x : LinkPulse) s u, markSlot x.width = none → nearWidth x.width 1000 = false →
    nearWidth x.width 100 = false → nearWidth x.width 200 = false → u = s.waitUntil (s.tick + x.after) →
    u.linkOn = true →
    exec (.linkMark x) s = .next { frameError u with
      chicory.plink.rxBits := [], chicory.plink.rxSkip := true }) ∧
  -- a frame is read pulse by pulse; its last bit completes it
  (∀ l s, exec (.linkFrame l) s = .next (l.foldl linkPulse s)) ∧
  (∀ b n s, s.chicory.plink.rxSkip = false → frameBits (u8 (bitsToBytes 1 (s.chicory.plink.rxBits ++ [b])) 0) = some n →
    s.chicory.plink.rxBits.length + 1 = n →
    linkBit b s = linkFrameIn (bitsToBytes (n / 8) (s.chicory.plink.rxBits ++ [b]))
      { s with chicory.plink.rxBits := [], chicory.plink.rxSkip := false }) ∧
  -- a frame whose CRC fails is counted; a slot's frame gives its cycle count and state
  (∀ f s, crc8 f.dropLast ≠ (f.getLastD 0).toNat → linkFrameIn f s = linkFrameBad (u8 f 0) s) ∧
  (∀ f (i : Fin 4) s, crc8 f.dropLast = (f.getLastD 0).toNat → u8 f 0 = 16 + i.val →
    linkFrameIn f s = { s with
      chicory.plink.counts :=
        Tbl.setD none s.chicory.plink.counts i.val (some (rdBe (slice f.dropLast 1 6), u8 f.dropLast 7)) }) ∧
  (∀ f s, crc8 f.dropLast = (f.getLastD 0).toNat → u8 f 0 = 1 →
    linkFrameIn f s = linkWallFrame (rdBe (slice f.dropLast 1 8)) s) ∧
  (∀ s, s.flag 0x1500 2 = true →
    exec .linkTransmit s = .next { s with
      chicory.plink.sent := linkFrames s, chicory.plink.cells := linkCells s.foreseen s.tick (linkFrames s) }) ∧
  -- an accepted edge is dated; sixteen wait at most
  (∀ (m : Fin 8) after hold rise s u, u = s.waitUntil (s.tick + after) → u.flag (pcapBase m.val) 0 = true →
    u.fld (pcapBase m.val) 23 16 ≤ hold → u.pcapEdge m.val rise = true → (u.pcap m.val).queue.length < 16 →
    exec (.captureEdge m after hold rise) s = .next (u.setPcap m.val { u.pcap m.val with
      lastWall := u.chicory.wall.ns
      lastAng := u.angStamp (u.fld (pcapBase m.val) 14 12)
      queue := (u.pcap m.val).queue ++ [(u.chicory.wall.ns, u.angStamp (u.fld (pcapBase m.val) 14 12),
        u.holdover (u.fld (pcapBase m.val) 14 12))] })) ∧
  -- a level that does not hold is a glitch; an edge of the other polarity and a closed input take nothing
  (∀ (m : Fin 8) after hold rise s u, u = s.waitUntil (s.tick + after) → u.flag (pcapBase m.val) 0 = true →
    hold < u.fld (pcapBase m.val) 23 16 →
    exec (.captureEdge m after hold rise) s = .next (pcapGlitch m.val u)) ∧
  (∀ (m : Fin 8) after hold rise s u, u = s.waitUntil (s.tick + after) →
    u.flag (pcapBase m.val) 0 = false ∨
      (u.fld (pcapBase m.val) 23 16 ≤ hold ∧ u.fld (pcapBase m.val) 3 2 = b2n rise) →
    exec (.captureEdge m after hold rise) s = .next u) ∧
  -- the end of an active level, and the next target, each at its edge's tick
  (∀ (n : Fin 16) e c s t, s.warden.safe = false → (s.pho n.val).endPos = some e →
    s.reachTick (s.phoSpec n.val).tb e = some c → t = s.waitUntil (s.phoEdge n.val c) →
    exec (.phaseOutputTarget n) s = .next (t.setPho n.val { t.pho n.val with active := false, endPos := none })) ∧
  (∀ (n : Fin 16) c s, s.warden.safe = false → (s.pho n.val).endPos = none → s.flag (phoBase n.val) 0 = true →
    s.reachTick (s.phoSpec n.val).tb (s.pho n.val).next = some c →
    exec (.phaseOutputTarget n) s = .next (phoFire n.val (s.waitUntil (s.phoEdge n.val c)))) ∧
  (∀ (n : Fin 16) s, s.warden.safe = true → exec (.phaseOutputTarget n) s = .next s) ∧
  (∀ (p : Port) c s, (s.syncPat p.val).on = true →
    s.reachTick (s.syncPat p.val).sched.tb (s.syncPat p.val).next = some c →
    exec (.psyncTarget p) s = .next (psyncFire p.val (s.waitUntil (c + 4))))

/-- Resets and starts (R481 to R486, R494 to R500).

For each of these, `exec` answers a next state under hypotheses on the state and the operands alone: powerOnReset,
pinReset, supplyLoss, chipReset, bootSequence, imageConfirm, bootFailure, activationDue, rescueStart,
rescuePortDetach, frsFeedReturn. -/
def Obligations.StartRowsComplete : Prop :=
  (∀ st kk jk s, exec (.powerOnReset st kk jk) s = .next (chipStart 0 true kk jk { s with straps := st })) ∧
  (∀ st s, s.boot.dark = false →
    exec (.pinReset st) s = .next (chipStart (if s.warden.safe ∧ s.resetUnderWay = false then 3 else 1) true true true
      { s with straps := st })) ∧
  (∀ s, s.boot.dark = false → ∃ t, exec .supplyLoss s = .next t ∧ t.boot.dark = true ∧ t.boot.up = false ∧
    t.boot.slot = s.boot.slot) ∧
  -- a chip reset at its tick; one that sys.reset or an activation asked for seals the journal first
  (∀ c t s, s.boot.resetReq = some (c, t) → s.boot.dark = false → s.boot.rescue = none →
    (s.waitUntil t).boot.trial = false →
    exec .chipReset s = .next (chipStart c false true true
      (if c = 2 ∨ c = 3 then sealNow (s.waitUntil t) else s.waitUntil t))) ∧
  -- loader mode: BOOTSEL1 at 1, or no slot to boot
  (∀ s, s.boot.up = false → s.boot.dark = false → s.warden.safe = false →
    s.straps.bootsel1 = true ∨ s.chooseSlot = none → exec (.bootSequence true) s = .next (bootLoader s)) ∧
  (∀ n s, s.boot.up = false → s.boot.dark = false → s.warden.safe = false → s.straps.bootsel1 = false →
    s.chooseSlot = some n → exec (.bootSequence true) s = .next (bootNormal n s)) ∧
  -- the thermometer follows the confirmed image's rollback index; its slot is running
  (∀ s, s.boot.trial = true → s.boot.up = true → s.mgmtDown = none → s.warden.safe = false → s.warden.mode = false →
    ∃ t, exec .imageConfirm s = .next t ∧ t.boot.trial = false ∧ t.boot.confirmed = t.boot.running ∧
      t.boot.nextSlot = none) ∧
  -- an image on trial fails for the third time: the other slot is turned to
  (∀ s, s.trialFailed = true → s.boot.resetReq = none →
    exec .bootFailure s = .next (chipStart (bootFailed (if s.warden.safe then 3 else 2) s).1 false true true
      (bootFailed (if s.warden.safe then 3 else 2) s).2)) ∧
  (∀ n t u s, s.boot.pendingAct = some (n, 2, t) → s.boot.up = true → s.warden.mode = false →
    s.warden.safe = false → s.reach 4 t = some u →
    exec .activationDue s = .next (chipStart 2 false true true (sealNow u))) ∧
  (∀ p s, s.rescue.port = some p → s.rescue.step = 5 → s.boot.rescue = none → s.boot.up = false →
    exec .rescueStart s = .next (rescueStart p s)) ∧
  (∀ p s, s.boot.rescue = some p → exec .rescuePortDetach s = .next (leaveRescue s)) ∧
  -- after a fast role swap: feeds and rails are back, or the hub falls to a rescue start
  (∀ p s, s.rescue.port = some p → s.rescue.frs = true → s.fed = true → (s.rail 0).inBand = true →
    (s.rail 1).inBand = true → ∃ u, u = s.waitUntil (max (s.rail 0).since (s.rail 1).since + ticksS 1) ∧
    exec (.frsFeedReturn true) s = .next (coverCheck { u with rescue := {} })) ∧
  (∀ p s, s.rescue.port = some p → s.rescue.frs = true →
    exec (.frsFeedReturn false) s = .next (rescueStart p (sealNow s)))
end

