-- ==== Sys2Proof/Laws/Table.lean ====
section
/-!
SUPPORT. Reading a sparse table after a write, and the canonical form every write keeps.
-/

namespace Sys2Proof

variable {α : Type}

@[simp] theorem Tbl.getD_nil (d : α) (i : Nat) : Tbl.getD d [] i = d := rfl

theorem Tbl.getD_erase (d : α) (t : Tbl α) (i j : Nat) :
    Tbl.getD d (Tbl.erase t i) j = if j = i then d else Tbl.getD d t j := by
  induction t with
  | nil => simp [Tbl.erase, Tbl.getD]
  | cons e t ih =>
    obtain ⟨k, v⟩ := e
    by_cases h : i = k <;> by_cases h' : j = i <;> by_cases h'' : j = k <;> simp_all [Tbl.erase, Tbl.getD]

/-- A key just erased is found where it is put. -/
theorem Tbl.getD_insert (d : α) (t : Tbl α) (i j : Nat) (x : α) (h : ∀ e ∈ t, e.1 ≠ i) :
    Tbl.getD d (Tbl.insert t i x) j = if j = i then x else Tbl.getD d t j := by
  induction t with
  | nil => simp [Tbl.insert, Tbl.getD]
  | cons e t ih =>
    obtain ⟨k, v⟩ := e
    have hk : k ≠ i := h (k, v) (by simp)
    have ht := ih fun e he => h e (by simp [he])
    by_cases h1 : i < k
    · by_cases h2 : j = i <;> simp_all [Tbl.insert, Tbl.getD]
    · by_cases h2 : j = k
      · simp [Tbl.insert, Tbl.getD, h1, h2, hk]
      · simp [Tbl.insert, Tbl.getD, h1, h2, ht]

theorem Tbl.erase_keys (t : Tbl α) (i : Nat) : ∀ e ∈ Tbl.erase t i, e.1 ≠ i := by
  induction t with
  | nil => simp [Tbl.erase]
  | cons e t ih =>
    obtain ⟨k, v⟩ := e
    by_cases h : i = k
    · simp only [Tbl.erase, h, if_true]
      exact h ▸ ih
    · intro e he
      simp only [Tbl.erase, h, if_false, List.mem_cons] at he
      rcases he with rfl | he
      · exact fun hh => h hh.symm
      · exact ih e he

/-- Read after write: the key written gives the value, every other key what it gave. -/
theorem Tbl.getD_setD [DecidableEq α] (d : α) (t : Tbl α) (i j : Nat) (x : α) :
    Tbl.getD d (Tbl.setD d t i x) j = if j = i then x else Tbl.getD d t j := by
  unfold Tbl.setD
  split
  · next h => rw [Tbl.getD_erase, h]
  · rw [Tbl.getD_insert _ _ _ _ _ (Tbl.erase_keys t i), Tbl.getD_erase]; split <;> simp_all

@[simp] theorem Tbl.getD_setD_same [DecidableEq α] (d : α) (t : Tbl α) (i : Nat) (x : α) :
    Tbl.getD d (Tbl.setD d t i x) i = x := by simp [Tbl.getD_setD]

theorem Tbl.getD_setD_ne [DecidableEq α] (d : α) (t : Tbl α) {i j : Nat} (x : α) (h : j ≠ i) :
    Tbl.getD d (Tbl.setD d t i x) j = Tbl.getD d t j := by simp [Tbl.getD_setD, h]

theorem Tbl.erase_erase (t : Tbl α) (i : Nat) : Tbl.erase (Tbl.erase t i) i = Tbl.erase t i := by
  induction t with
  | nil => rfl
  | cons e t ih =>
    obtain ⟨k, v⟩ := e
    by_cases h : i = k <;> simp_all [Tbl.erase]

theorem Tbl.erase_insert (t : Tbl α) (i : Nat) (x : α) : Tbl.erase (Tbl.insert t i x) i = Tbl.erase t i := by
  induction t with
  | nil => simp [Tbl.insert, Tbl.erase]
  | cons e t ih =>
    obtain ⟨k, v⟩ := e
    by_cases h : i < k
    · simp [Tbl.insert, Tbl.erase, h]
    · simp [Tbl.insert, Tbl.erase, h, ih]

/-- The later of two writes of one key stands. -/
theorem Tbl.setD_setD [DecidableEq α] (d : α) (t : Tbl α) (i : Nat) (x y : α) :
    Tbl.setD d (Tbl.setD d t i x) i y = Tbl.setD d t i y := by
  have h : Tbl.erase (Tbl.setD d t i x) i = Tbl.erase t i := by
    unfold Tbl.setD
    split
    · rw [Tbl.erase_erase]
    · rw [Tbl.erase_insert, Tbl.erase_erase]
  generalize Tbl.setD d t i x = u at h
  simp only [Tbl.setD, h]

theorem Tbl.wfFrom_mono [DecidableEq α] (d : α) (t : Tbl α) {lo hi : Nat} (hle : lo ≤ hi)
    (h : Tbl.wfFrom d hi t = true) : Tbl.wfFrom d lo t = true := by
  cases t with
  | nil => rfl
  | cons e t =>
    obtain ⟨k, v⟩ := e
    simp only [Tbl.wfFrom, Bool.and_eq_true, decide_eq_true_eq] at h ⊢
    exact ⟨⟨by omega, h.1.2⟩, h.2⟩

theorem Tbl.wfFrom_erase [DecidableEq α] (d : α) (t : Tbl α) (i lo : Nat) (h : Tbl.wfFrom d lo t = true) :
    Tbl.wfFrom d lo (Tbl.erase t i) = true := by
  induction t generalizing lo with
  | nil => rfl
  | cons e t ih =>
    obtain ⟨k, v⟩ := e
    simp only [Tbl.wfFrom, Bool.and_eq_true, decide_eq_true_eq] at h
    by_cases hk : i = k
    · simp only [Tbl.erase, hk, if_true]
      exact Tbl.wfFrom_mono d _ (by omega : lo ≤ k + 1) (hk ▸ ih (k + 1) h.2)
    · simp only [Tbl.erase, hk, if_false, Tbl.wfFrom, Bool.and_eq_true, decide_eq_true_eq]
      exact ⟨h.1, ih (k + 1) h.2⟩

theorem Tbl.wfFrom_insert [DecidableEq α] (d : α) (t : Tbl α) (i lo : Nat) (x : α) (hx : x ≠ d) (hlo : lo ≤ i)
    (hk : ∀ e ∈ t, e.1 ≠ i) (h : Tbl.wfFrom d lo t = true) : Tbl.wfFrom d lo (Tbl.insert t i x) = true := by
  induction t generalizing lo with
  | nil => simp [Tbl.insert, Tbl.wfFrom, hx, hlo]
  | cons e t ih =>
    obtain ⟨k, v⟩ := e
    have hne : k ≠ i := hk (k, v) (by simp)
    simp only [Tbl.wfFrom, Bool.and_eq_true, decide_eq_true_eq] at h
    by_cases hi : i < k
    · simp only [Tbl.insert, hi, if_true, Tbl.wfFrom, Bool.and_eq_true, decide_eq_true_eq]
      exact ⟨⟨hlo, hx⟩, ⟨hi, h.1.2⟩, h.2⟩
    · simp only [Tbl.insert, hi, if_false, Tbl.wfFrom, Bool.and_eq_true, decide_eq_true_eq]
      exact ⟨h.1, ih (k + 1) (by omega) (fun e he => hk e (by simp [he])) h.2⟩

/-- A write keeps the canonical form. -/
theorem Tbl.wf_setD [DecidableEq α] (d : α) (t : Tbl α) (i : Nat) (x : α) (h : Tbl.wf d t = true) :
    Tbl.wf d (Tbl.setD d t i x) = true := by
  unfold Tbl.wf Tbl.setD at *
  split
  · exact Tbl.wfFrom_erase d t i 0 h
  · next hx =>
    exact Tbl.wfFrom_insert d _ i 0 x hx (Nat.zero_le i) (Tbl.erase_keys t i) (Tbl.wfFrom_erase d t i 0 h)

end Sys2Proof
end

