-- ==== Sys2Proof/Laws/Registers.lean ====
section
/-!
SUPPORT. The stored registers: what a read gives after a write of a register, of a field, of a flag, and that such
a write leaves every other piece of State alone.
-/

namespace Sys2Proof.Machine

/-! ### Bit fields of a number -/

theorem bits_lt (n hi lo : Nat) : bits n hi lo < 2 ^ (hi + 1 - lo) := Nat.mod_lt _ (by positivity)

theorem bit_eq_bits (n i : Nat) : bit n i = decide (bits n i i = 1) := by
  unfold bit bits
  rw [show i + 1 - i = 1 by omega, Nat.pow_one, Nat.testBit_eq_decide_div_mod_eq]

/-- A number is its bits above a field, the field, and the bits below it. -/
theorem field_split (n : Nat) {hi lo : Nat} (h : lo ≤ hi) :
    n = n / 2 ^ (hi + 1) * 2 ^ (hi + 1) + bits n hi lo * 2 ^ lo + n % 2 ^ lo := by
  have e : (2 : Nat) ^ (hi + 1) = 2 ^ lo * 2 ^ (hi + 1 - lo) := by rw [← pow_add]; congr 1; omega
  have h1 := Nat.div_add_mod n (2 ^ lo)
  have h2 := Nat.div_add_mod (n / 2 ^ lo) (2 ^ (hi + 1 - lo))
  rw [Nat.div_div_eq_div_mul, ← e] at h2
  unfold bits
  calc n = 2 ^ lo * (n / 2 ^ lo) + n % 2 ^ lo := h1.symm
    _ = 2 ^ lo * (2 ^ (hi + 1 - lo) * (n / 2 ^ (hi + 1)) + n / 2 ^ lo % 2 ^ (hi + 1 - lo)) + n % 2 ^ lo := by rw [h2]
    _ = _ := by rw [e]; ring

/-- What replacing a field leaves. -/
def putBits (n hi lo v : Nat) : Nat := n - bits n hi lo * 2 ^ lo + v % 2 ^ (hi + 1 - lo) * 2 ^ lo

theorem putBits_eq (n v : Nat) {hi lo : Nat} (h : lo ≤ hi) :
    putBits n hi lo v = n / 2 ^ (hi + 1) * 2 ^ (hi + 1) + v % 2 ^ (hi + 1 - lo) * 2 ^ lo + n % 2 ^ lo := by
  have e := field_split n h
  unfold putBits
  omega

theorem bits_of_split (a b c : Nat) {hi lo : Nat} (h : lo ≤ hi) (hb : b < 2 ^ (hi + 1 - lo)) (hc : c < 2 ^ lo) :
    bits (a * 2 ^ (hi + 1) + b * 2 ^ lo + c) hi lo = b := by
  have e : (2 : Nat) ^ (hi + 1) = 2 ^ (hi + 1 - lo) * 2 ^ lo := by rw [← pow_add]; congr 1; omega
  have : a * 2 ^ (hi + 1) + b * 2 ^ lo + c = c + 2 ^ lo * (a * 2 ^ (hi + 1 - lo) + b) := by rw [e]; ring
  unfold bits
  rw [this, Nat.add_mul_div_left _ _ (by positivity), Nat.div_eq_of_lt hc, Nat.zero_add, Nat.add_comm,
    Nat.add_mul_mod_self_right, Nat.mod_eq_of_lt hb]

theorem mod_of_split (a b c : Nat) {hi lo : Nat} (h : lo ≤ hi) (hc : c < 2 ^ lo) :
    (a * 2 ^ (hi + 1) + b * 2 ^ lo + c) % 2 ^ lo = c := by
  have e : (2 : Nat) ^ (hi + 1) = 2 ^ (hi + 1 - lo) * 2 ^ lo := by rw [← pow_add]; congr 1; omega
  have : a * 2 ^ (hi + 1) + b * 2 ^ lo + c = c + 2 ^ lo * (a * 2 ^ (hi + 1 - lo) + b) := by rw [e]; ring
  rw [this, Nat.add_mul_mod_self_left, Nat.mod_eq_of_lt hc]

theorem div_of_split (a b c : Nat) {hi lo : Nat} (h : lo ≤ hi) (hb : b < 2 ^ (hi + 1 - lo)) (hc : c < 2 ^ lo) :
    (a * 2 ^ (hi + 1) + b * 2 ^ lo + c) / 2 ^ (hi + 1) = a := by
  have e : (2 : Nat) ^ (hi + 1) = 2 ^ (hi + 1 - lo) * 2 ^ lo := by rw [← pow_add]; congr 1; omega
  have hlt : b * 2 ^ lo + c < 2 ^ (hi + 1) := by
    calc b * 2 ^ lo + c < b * 2 ^ lo + 2 ^ lo := by omega
      _ = (b + 1) * 2 ^ lo := by ring
      _ ≤ 2 ^ (hi + 1 - lo) * 2 ^ lo := Nat.mul_le_mul_right _ hb
      _ = _ := e.symm
  rw [show a * 2 ^ (hi + 1) + b * 2 ^ lo + c = (b * 2 ^ lo + c) + 2 ^ (hi + 1) * a by ring,
    Nat.add_mul_div_left _ _ (by positivity), Nat.div_eq_of_lt hlt, Nat.zero_add]

/-- A replaced field reads as what replaced it. -/
theorem bits_putBits (n v : Nat) {hi lo : Nat} (h : lo ≤ hi) :
    bits (putBits n hi lo v) hi lo = v % 2 ^ (hi + 1 - lo) := by
  rw [putBits_eq n v h]
  exact bits_of_split _ _ _ h (Nat.mod_lt _ (by positivity)) (Nat.mod_lt _ (by positivity))

/-- A field below or above it keeps its value. -/
theorem bits_putBits_below (n v : Nat) {hi lo h2 l2 : Nat} (h : lo ≤ hi) (hd : h2 < lo) :
    bits (putBits n hi lo v) h2 l2 = bits n h2 l2 := by
  have hm : putBits n hi lo v % 2 ^ lo = n % 2 ^ lo := by
    rw [putBits_eq n v h]; exact mod_of_split _ _ _ h (Nat.mod_lt _ (by positivity))
  have key : ∀ m, bits m h2 l2 = bits (m % 2 ^ lo) h2 l2 := by
    intro m
    unfold bits
    by_cases hl : l2 ≤ h2
    · rw [← Nat.mod_mul_right_div_self, ← Nat.mod_mul_right_div_self (m := m % 2 ^ lo)]
      have e : (2 : Nat) ^ lo = 2 ^ l2 * 2 ^ (h2 + 1 - l2) * 2 ^ (lo - h2 - 1) := by
        rw [← pow_add, ← pow_add]; congr 1; omega
      rw [e, Nat.mod_mul_right_mod]
    · rw [show h2 + 1 - l2 = 0 by omega]; simp [Nat.mod_one]
  rw [key, key n, hm]

theorem bits_putBits_above (n v : Nat) {hi lo h2 l2 : Nat} (h : lo ≤ hi) (hd : hi < l2) :
    bits (putBits n hi lo v) h2 l2 = bits n h2 l2 := by
  have hq : putBits n hi lo v / 2 ^ (hi + 1) = n / 2 ^ (hi + 1) := by
    rw [putBits_eq n v h]
    exact div_of_split _ _ _ h (Nat.mod_lt _ (by positivity)) (Nat.mod_lt _ (by positivity))
  have key : ∀ m, bits m h2 l2 = m / 2 ^ (hi + 1) / 2 ^ (l2 - (hi + 1)) % 2 ^ (h2 + 1 - l2) := by
    intro m
    rw [Nat.div_div_eq_div_mul, ← pow_add, show hi + 1 + (l2 - (hi + 1)) = l2 by omega]
    rfl
  rw [key, key n, hq]

theorem putBits_lt (n v : Nat) {hi lo : Nat} (h : lo ≤ hi) (hh : hi < 32) (hn : n < 2 ^ 32) :
    putBits n hi lo v < 2 ^ 32 := by
  rw [putBits_eq n v h]
  have e : (2 : Nat) ^ (hi + 1) = 2 ^ (hi + 1 - lo) * 2 ^ lo := by rw [← pow_add]; congr 1; omega
  have e2 : (2 : Nat) ^ 32 = 2 ^ (31 - hi) * 2 ^ (hi + 1) := by rw [← pow_add]; congr 1; omega
  have hb := Nat.mod_lt v (show 2 ^ (hi + 1 - lo) > 0 by positivity)
  have hc := Nat.mod_lt n (show 2 ^ lo > 0 by positivity)
  have hlt : v % 2 ^ (hi + 1 - lo) * 2 ^ lo + n % 2 ^ lo < 2 ^ (hi + 1) := by
    calc _ < v % 2 ^ (hi + 1 - lo) * 2 ^ lo + 2 ^ lo := by omega
      _ = (v % 2 ^ (hi + 1 - lo) + 1) * 2 ^ lo := by ring
      _ ≤ 2 ^ (hi + 1 - lo) * 2 ^ lo := Nat.mul_le_mul_right _ hb
      _ = _ := e.symm
  have ha : n / 2 ^ (hi + 1) < 2 ^ (31 - hi) := by
    rw [Nat.div_lt_iff_lt_mul (by positivity), ← e2]; exact hn
  calc _ < n / 2 ^ (hi + 1) * 2 ^ (hi + 1) + 2 ^ (hi + 1) := by omega
    _ = (n / 2 ^ (hi + 1) + 1) * 2 ^ (hi + 1) := by ring
    _ ≤ 2 ^ (31 - hi) * 2 ^ (hi + 1) := Nat.mul_le_mul_right _ ha
    _ = _ := e2.symm

/-! ### Registers -/

theorem reg_lt (s : State) (off : Nat) : s.reg off < 2 ^ 32 := by
  unfold State.reg; split <;> exact BitVec.isLt _

@[simp] theorem setReg_variant (s : State) (off v : Nat) : (s.setReg off v).variant = s.variant := rfl

/-- Read after write of a register. -/
theorem reg_setReg (s : State) (off o v : Nat) :
    (s.setReg off v).reg o = if o = off then v % 2 ^ 32 else s.reg o := by
  have hv : (s.setReg off v).variant = s.variant := rfl
  unfold State.reg
  rw [hv]
  simp only [State.setReg, Tbl.getD_setD]
  by_cases h : o = off
  · subst h
    by_cases hw : BitVec.ofNat 32 v = regReset s.variant o
    · simp [← hw, BitVec.toNat_ofNat]
    · simp [hw, BitVec.toNat_ofNat]
  · simp [h]

@[simp] theorem reg_setReg_same (s : State) (off v : Nat) : (s.setReg off v).reg off = v % 2 ^ 32 := by
  simp [reg_setReg]

theorem reg_setReg_ne (s : State) {off o : Nat} (v : Nat) (h : o ≠ off) : (s.setReg off v).reg o = s.reg o := by
  simp [reg_setReg, h]

theorem setFld_eq (s : State) (off hi lo v : Nat) :
    s.setFld off hi lo v = s.setReg off (putBits (s.reg off) hi lo v) := rfl

theorem reg_setFld_ne (s : State) {off o : Nat} (hi lo v : Nat) (h : o ≠ off) :
    (s.setFld off hi lo v).reg o = s.reg o := reg_setReg_ne s _ h

theorem reg_setFld (s : State) (off v : Nat) {hi lo : Nat} (h : lo ≤ hi) (hh : hi < 32) :
    (s.setFld off hi lo v).reg off = putBits (s.reg off) hi lo v := by
  rw [setFld_eq, reg_setReg_same, Nat.mod_eq_of_lt (putBits_lt _ _ h hh (reg_lt s off))]

/-- A field written reads as written. -/
theorem fld_setFld (s : State) (off v : Nat) {hi lo : Nat} (h : lo ≤ hi) (hh : hi < 32) :
    (s.setFld off hi lo v).fld off hi lo = v % 2 ^ (hi + 1 - lo) := by
  unfold State.fld
  rw [reg_setFld s off v h hh, bits_putBits _ _ h]

/-- A disjoint field of the register, and any field of another register, keep their values. -/
theorem fld_setFld_below (s : State) (off v : Nat) {hi lo h2 l2 : Nat} (h : lo ≤ hi) (hh : hi < 32) (hd : h2 < lo) :
    (s.setFld off hi lo v).fld off h2 l2 = s.fld off h2 l2 := by
  unfold State.fld
  rw [reg_setFld s off v h hh, bits_putBits_below _ _ h hd]

theorem fld_setFld_above (s : State) (off v : Nat) {hi lo h2 l2 : Nat} (h : lo ≤ hi) (hh : hi < 32) (hd : hi < l2) :
    (s.setFld off hi lo v).fld off h2 l2 = s.fld off h2 l2 := by
  unfold State.fld
  rw [reg_setFld s off v h hh, bits_putBits_above _ _ h hd]

theorem fld_setFld_ne (s : State) {off o : Nat} (hi lo v h2 l2 : Nat) (h : o ≠ off) :
    (s.setFld off hi lo v).fld o h2 l2 = s.fld o h2 l2 := by
  unfold State.fld; rw [reg_setFld_ne s hi lo v h]

theorem fld_setReg_ne (s : State) {off o : Nat} (v h2 l2 : Nat) (h : o ≠ off) :
    (s.setReg off v).fld o h2 l2 = s.fld o h2 l2 := by
  unfold State.fld; rw [reg_setReg_ne s v h]

theorem flag_eq_fld (s : State) (off i : Nat) : s.flag off i = decide (s.fld off i i = 1) := bit_eq_bits _ _

theorem flag_setFlag (s : State) (off : Nat) {i : Nat} (hi : i < 32) : (s.setFlag off i).flag off i = true := by
  rw [flag_eq_fld, State.setFlag, fld_setFld s off 1 (le_refl i) hi, show i + 1 - i = 1 by omega]
  decide

theorem flag_clrFlag (s : State) (off : Nat) {i : Nat} (hi : i < 32) : (s.clrFlag off i).flag off i = false := by
  rw [flag_eq_fld, State.clrFlag, fld_setFld s off 0 (le_refl i) hi, Nat.zero_mod]
  decide

theorem flag_setFld_ne (s : State) {off o : Nat} (hi lo v i : Nat) (h : o ≠ off) :
    (s.setFld off hi lo v).flag o i = s.flag o i := by
  unfold State.flag; rw [reg_setFld_ne s hi lo v h]

/-- Another flag of the register keeps its value. -/
theorem flag_setFld_other (s : State) (off v : Nat) {hi lo i : Nat} (h : lo ≤ hi) (hh : hi < 32)
    (hd : i < lo ∨ hi < i) : (s.setFld off hi lo v).flag off i = s.flag off i := by
  rw [flag_eq_fld, flag_eq_fld]
  rcases hd with hd | hd
  · rw [fld_setFld_below s off v h hh hd]
  · rw [fld_setFld_above s off v h hh hd]

end Sys2Proof.Machine
end

