-- ==== Sys2Proof/Laws/State.lean ====
section
/-!
SUPPORT. What each update of State leaves of each field, and what each numbered thing reads as after it: no later
proof unfolds a record update.
-/

namespace Sys2Proof.Machine

/-- The fields after `setMb`. -/
@[simp] theorem setMb_fields (s : State) (n : Nat) (m : Mailbox) :
    (s.setMb n m).pending = s.pending ∧
    (s.setMb n m).tick = s.tick ∧
    (s.setMb n m).freeCtr = s.freeCtr ∧
    (s.setMb n m).rdata = s.rdata ∧
    (s.setMb n m).variant = s.variant ∧
    (s.setMb n m).straps = s.straps ∧
    (s.setMb n m).hrs = s.hrs ∧
    (s.setMb n m).cci = { s.cci with mbs := Tbl.setD {} s.cci.mbs n m } ∧
    (s.setMb n m).journal = s.journal ∧
    (s.setMb n m).campion = s.campion ∧
    (s.setMb n m).warden = s.warden ∧
    (s.setMb n m).power = s.power ∧
    (s.setMb n m).keeper = s.keeper ∧
    (s.setMb n m).boot = s.boot ∧
    (s.setMb n m).chicory = s.chicory ∧
    (s.setMb n m).ports = s.ports ∧
    (s.setMb n m).clover = s.clover ∧
    (s.setMb n m).hub = s.hub ∧
    (s.setMb n m).strike = s.strike ∧
    (s.setMb n m).rescue = s.rescue ∧
    (s.setMb n m).devices = s.devices ∧
    (s.setMb n m).chans = s.chans ∧
    (s.setMb n m).groups = s.groups ∧
    (s.setMb n m).policies = s.policies ∧
    (s.setMb n m).domain = s.domain ∧
    (s.setMb n m).sched = s.sched ∧
    (s.setMb n m).cans = s.cans ∧
    (s.setMb n m).integ = s.integ ∧
    (s.setMb n m).test = s.test ∧
    (s.setMb n m).mgmtDown = s.mgmtDown ∧
    (s.setMb n m).mgmtWhy = s.mgmtWhy := by
  exact ⟨rfl, rfl, rfl, rfl, rfl, rfl, rfl, rfl, rfl, rfl, rfl, rfl, rfl, rfl, rfl, rfl, rfl, rfl, rfl, rfl, rfl, rfl, rfl, rfl, rfl, rfl, rfl, rfl, rfl, rfl, rfl⟩

/-- The readings `setMb` leaves alone. -/
@[simp] theorem setMb_reads (s : State) (n : Nat) (m : Mailbox) :
    (∀ o, (s.setMb n m).reg o = s.reg o) ∧
    (∀ o u w, (s.setMb n m).fld o u w = s.fld o u w) ∧
    (∀ o u, (s.setMb n m).flag o u = s.flag o u) ∧
    (∀ o, (s.setMb n m).port o = s.port o) ∧
    (∀ o, (s.setMb n m).chan o = s.chan o) ∧
    (∀ o, (s.setMb n m).dev o = s.dev o) ∧
    (∀ o, (s.setMb n m).group o = s.group o) ∧
    (∀ o, (s.setMb n m).ang o = s.ang o) ∧
    (∀ o, (s.setMb n m).src o = s.src o) ∧
    (∀ o, (s.setMb n m).dom o = s.dom o) ∧
    (∀ o, (s.setMb n m).can o = s.can o) ∧
    (∀ o, (s.setMb n m).region o = s.region o) ∧
    (∀ o, (s.setMb n m).child o = s.child o) ∧
    (∀ o, (s.setMb n m).feed o = s.feed o) ∧
    (∀ o, (s.setMb n m).rail o = s.rail o) := by
  exact ⟨fun _ => rfl, fun _ _ _ => rfl, fun _ _ => rfl, fun _ => rfl, fun _ => rfl, fun _ => rfl, fun _ => rfl, fun _ => rfl, fun _ => rfl, fun _ => rfl, fun _ => rfl, fun _ => rfl, fun _ => rfl, fun _ => rfl, fun _ => rfl⟩

theorem mb_setMb (s : State) (n : Nat) (m : Mailbox) (j : Nat) :
    (s.setMb n m).mb j = if j = n then m else s.mb j := Tbl.getD_setD _ _ _ _ _

@[simp] theorem mb_setMb_same (s : State) (n : Nat) (m : Mailbox) : (s.setMb n m).mb n = m := Tbl.getD_setD_same _ _ _ _

/-- The fields after `setPort`. -/
@[simp] theorem setPort_fields (s : State) (p : Nat) (x : PortSt) :
    (s.setPort p x).pending = s.pending ∧
    (s.setPort p x).tick = s.tick ∧
    (s.setPort p x).freeCtr = s.freeCtr ∧
    (s.setPort p x).rdata = s.rdata ∧
    (s.setPort p x).variant = s.variant ∧
    (s.setPort p x).straps = s.straps ∧
    (s.setPort p x).hrs = s.hrs ∧
    (s.setPort p x).cci = s.cci ∧
    (s.setPort p x).journal = s.journal ∧
    (s.setPort p x).campion = s.campion ∧
    (s.setPort p x).warden = s.warden ∧
    (s.setPort p x).power = s.power ∧
    (s.setPort p x).keeper = s.keeper ∧
    (s.setPort p x).boot = s.boot ∧
    (s.setPort p x).chicory = s.chicory ∧
    (s.setPort p x).ports = Tbl.setD {} s.ports p x ∧
    (s.setPort p x).clover = s.clover ∧
    (s.setPort p x).hub = s.hub ∧
    (s.setPort p x).strike = s.strike ∧
    (s.setPort p x).rescue = s.rescue ∧
    (s.setPort p x).devices = s.devices ∧
    (s.setPort p x).chans = s.chans ∧
    (s.setPort p x).groups = s.groups ∧
    (s.setPort p x).policies = s.policies ∧
    (s.setPort p x).domain = s.domain ∧
    (s.setPort p x).sched = s.sched ∧
    (s.setPort p x).cans = s.cans ∧
    (s.setPort p x).integ = s.integ ∧
    (s.setPort p x).test = s.test ∧
    (s.setPort p x).mgmtDown = s.mgmtDown ∧
    (s.setPort p x).mgmtWhy = s.mgmtWhy := by
  exact ⟨rfl, rfl, rfl, rfl, rfl, rfl, rfl, rfl, rfl, rfl, rfl, rfl, rfl, rfl, rfl, rfl, rfl, rfl, rfl, rfl, rfl, rfl, rfl, rfl, rfl, rfl, rfl, rfl, rfl, rfl, rfl⟩

/-- The readings `setPort` leaves alone. -/
@[simp] theorem setPort_reads (s : State) (p : Nat) (x : PortSt) :
    (∀ o, (s.setPort p x).reg o = s.reg o) ∧
    (∀ o u w, (s.setPort p x).fld o u w = s.fld o u w) ∧
    (∀ o u, (s.setPort p x).flag o u = s.flag o u) ∧
    (∀ o, (s.setPort p x).mb o = s.mb o) ∧
    (∀ o, (s.setPort p x).chan o = s.chan o) ∧
    (∀ o, (s.setPort p x).dev o = s.dev o) ∧
    (∀ o, (s.setPort p x).group o = s.group o) ∧
    (∀ o, (s.setPort p x).ang o = s.ang o) ∧
    (∀ o, (s.setPort p x).src o = s.src o) ∧
    (∀ o, (s.setPort p x).dom o = s.dom o) ∧
    (∀ o, (s.setPort p x).can o = s.can o) ∧
    (∀ o, (s.setPort p x).region o = s.region o) ∧
    (∀ o, (s.setPort p x).child o = s.child o) ∧
    (∀ o, (s.setPort p x).feed o = s.feed o) ∧
    (∀ o, (s.setPort p x).rail o = s.rail o) := by
  exact ⟨fun _ => rfl, fun _ _ _ => rfl, fun _ _ => rfl, fun _ => rfl, fun _ => rfl, fun _ => rfl, fun _ => rfl, fun _ => rfl, fun _ => rfl, fun _ => rfl, fun _ => rfl, fun _ => rfl, fun _ => rfl, fun _ => rfl, fun _ => rfl⟩

theorem port_setPort (s : State) (p : Nat) (x : PortSt) (j : Nat) :
    (s.setPort p x).port j = if j = p then x else s.port j := Tbl.getD_setD _ _ _ _ _

@[simp] theorem port_setPort_same (s : State) (p : Nat) (x : PortSt) : (s.setPort p x).port p = x := Tbl.getD_setD_same _ _ _ _

/-- The fields after `modPort`. -/
@[simp] theorem modPort_fields (s : State) (p : Nat) (f : PortSt → PortSt) :
    (s.modPort p f).pending = s.pending ∧
    (s.modPort p f).tick = s.tick ∧
    (s.modPort p f).freeCtr = s.freeCtr ∧
    (s.modPort p f).rdata = s.rdata ∧
    (s.modPort p f).variant = s.variant ∧
    (s.modPort p f).straps = s.straps ∧
    (s.modPort p f).hrs = s.hrs ∧
    (s.modPort p f).cci = s.cci ∧
    (s.modPort p f).journal = s.journal ∧
    (s.modPort p f).campion = s.campion ∧
    (s.modPort p f).warden = s.warden ∧
    (s.modPort p f).power = s.power ∧
    (s.modPort p f).keeper = s.keeper ∧
    (s.modPort p f).boot = s.boot ∧
    (s.modPort p f).chicory = s.chicory ∧
    (s.modPort p f).clover = s.clover ∧
    (s.modPort p f).hub = s.hub ∧
    (s.modPort p f).strike = s.strike ∧
    (s.modPort p f).rescue = s.rescue ∧
    (s.modPort p f).devices = s.devices ∧
    (s.modPort p f).chans = s.chans ∧
    (s.modPort p f).groups = s.groups ∧
    (s.modPort p f).policies = s.policies ∧
    (s.modPort p f).domain = s.domain ∧
    (s.modPort p f).sched = s.sched ∧
    (s.modPort p f).cans = s.cans ∧
    (s.modPort p f).integ = s.integ ∧
    (s.modPort p f).test = s.test ∧
    (s.modPort p f).mgmtDown = s.mgmtDown ∧
    (s.modPort p f).mgmtWhy = s.mgmtWhy := by
  exact ⟨rfl, rfl, rfl, rfl, rfl, rfl, rfl, rfl, rfl, rfl, rfl, rfl, rfl, rfl, rfl, rfl, rfl, rfl, rfl, rfl, rfl, rfl, rfl, rfl, rfl, rfl, rfl, rfl, rfl, rfl⟩

/-- The readings `modPort` leaves alone. -/
@[simp] theorem modPort_reads (s : State) (p : Nat) (f : PortSt → PortSt) :
    (∀ o, (s.modPort p f).reg o = s.reg o) ∧
    (∀ o u w, (s.modPort p f).fld o u w = s.fld o u w) ∧
    (∀ o u, (s.modPort p f).flag o u = s.flag o u) ∧
    (∀ o, (s.modPort p f).mb o = s.mb o) ∧
    (∀ o, (s.modPort p f).chan o = s.chan o) ∧
    (∀ o, (s.modPort p f).dev o = s.dev o) ∧
    (∀ o, (s.modPort p f).group o = s.group o) ∧
    (∀ o, (s.modPort p f).ang o = s.ang o) ∧
    (∀ o, (s.modPort p f).src o = s.src o) ∧
    (∀ o, (s.modPort p f).dom o = s.dom o) ∧
    (∀ o, (s.modPort p f).can o = s.can o) ∧
    (∀ o, (s.modPort p f).region o = s.region o) ∧
    (∀ o, (s.modPort p f).child o = s.child o) ∧
    (∀ o, (s.modPort p f).feed o = s.feed o) ∧
    (∀ o, (s.modPort p f).rail o = s.rail o) := by
  exact ⟨fun _ => rfl, fun _ _ _ => rfl, fun _ _ => rfl, fun _ => rfl, fun _ => rfl, fun _ => rfl, fun _ => rfl, fun _ => rfl, fun _ => rfl, fun _ => rfl, fun _ => rfl, fun _ => rfl, fun _ => rfl, fun _ => rfl, fun _ => rfl⟩

/-- The fields after `modUsb`. -/
@[simp] theorem modUsb_fields (s : State) (p : Nat) (f : PortUsb → PortUsb) :
    (s.modUsb p f).pending = s.pending ∧
    (s.modUsb p f).tick = s.tick ∧
    (s.modUsb p f).freeCtr = s.freeCtr ∧
    (s.modUsb p f).rdata = s.rdata ∧
    (s.modUsb p f).variant = s.variant ∧
    (s.modUsb p f).straps = s.straps ∧
    (s.modUsb p f).hrs = s.hrs ∧
    (s.modUsb p f).cci = s.cci ∧
    (s.modUsb p f).journal = s.journal ∧
    (s.modUsb p f).campion = s.campion ∧
    (s.modUsb p f).warden = s.warden ∧
    (s.modUsb p f).power = s.power ∧
    (s.modUsb p f).keeper = s.keeper ∧
    (s.modUsb p f).boot = s.boot ∧
    (s.modUsb p f).chicory = s.chicory ∧
    (s.modUsb p f).clover = s.clover ∧
    (s.modUsb p f).hub = s.hub ∧
    (s.modUsb p f).strike = s.strike ∧
    (s.modUsb p f).rescue = s.rescue ∧
    (s.modUsb p f).devices = s.devices ∧
    (s.modUsb p f).chans = s.chans ∧
    (s.modUsb p f).groups = s.groups ∧
    (s.modUsb p f).policies = s.policies ∧
    (s.modUsb p f).domain = s.domain ∧
    (s.modUsb p f).sched = s.sched ∧
    (s.modUsb p f).cans = s.cans ∧
    (s.modUsb p f).integ = s.integ ∧
    (s.modUsb p f).test = s.test ∧
    (s.modUsb p f).mgmtDown = s.mgmtDown ∧
    (s.modUsb p f).mgmtWhy = s.mgmtWhy := by
  exact ⟨rfl, rfl, rfl, rfl, rfl, rfl, rfl, rfl, rfl, rfl, rfl, rfl, rfl, rfl, rfl, rfl, rfl, rfl, rfl, rfl, rfl, rfl, rfl, rfl, rfl, rfl, rfl, rfl, rfl, rfl⟩

/-- The readings `modUsb` leaves alone. -/
@[simp] theorem modUsb_reads (s : State) (p : Nat) (f : PortUsb → PortUsb) :
    (∀ o, (s.modUsb p f).reg o = s.reg o) ∧
    (∀ o u w, (s.modUsb p f).fld o u w = s.fld o u w) ∧
    (∀ o u, (s.modUsb p f).flag o u = s.flag o u) ∧
    (∀ o, (s.modUsb p f).mb o = s.mb o) ∧
    (∀ o, (s.modUsb p f).chan o = s.chan o) ∧
    (∀ o, (s.modUsb p f).dev o = s.dev o) ∧
    (∀ o, (s.modUsb p f).group o = s.group o) ∧
    (∀ o, (s.modUsb p f).ang o = s.ang o) ∧
    (∀ o, (s.modUsb p f).src o = s.src o) ∧
    (∀ o, (s.modUsb p f).dom o = s.dom o) ∧
    (∀ o, (s.modUsb p f).can o = s.can o) ∧
    (∀ o, (s.modUsb p f).region o = s.region o) ∧
    (∀ o, (s.modUsb p f).child o = s.child o) ∧
    (∀ o, (s.modUsb p f).feed o = s.feed o) ∧
    (∀ o, (s.modUsb p f).rail o = s.rail o) := by
  exact ⟨fun _ => rfl, fun _ _ _ => rfl, fun _ _ => rfl, fun _ => rfl, fun _ => rfl, fun _ => rfl, fun _ => rfl, fun _ => rfl, fun _ => rfl, fun _ => rfl, fun _ => rfl, fun _ => rfl, fun _ => rfl, fun _ => rfl, fun _ => rfl⟩

/-- The fields after `modPw`. -/
@[simp] theorem modPw_fields (s : State) (p : Nat) (f : PortPower → PortPower) :
    (s.modPw p f).pending = s.pending ∧
    (s.modPw p f).tick = s.tick ∧
    (s.modPw p f).freeCtr = s.freeCtr ∧
    (s.modPw p f).rdata = s.rdata ∧
    (s.modPw p f).variant = s.variant ∧
    (s.modPw p f).straps = s.straps ∧
    (s.modPw p f).hrs = s.hrs ∧
    (s.modPw p f).cci = s.cci ∧
    (s.modPw p f).journal = s.journal ∧
    (s.modPw p f).campion = s.campion ∧
    (s.modPw p f).warden = s.warden ∧
    (s.modPw p f).power = s.power ∧
    (s.modPw p f).keeper = s.keeper ∧
    (s.modPw p f).boot = s.boot ∧
    (s.modPw p f).chicory = s.chicory ∧
    (s.modPw p f).clover = s.clover ∧
    (s.modPw p f).hub = s.hub ∧
    (s.modPw p f).strike = s.strike ∧
    (s.modPw p f).rescue = s.rescue ∧
    (s.modPw p f).devices = s.devices ∧
    (s.modPw p f).chans = s.chans ∧
    (s.modPw p f).groups = s.groups ∧
    (s.modPw p f).policies = s.policies ∧
    (s.modPw p f).domain = s.domain ∧
    (s.modPw p f).sched = s.sched ∧
    (s.modPw p f).cans = s.cans ∧
    (s.modPw p f).integ = s.integ ∧
    (s.modPw p f).test = s.test ∧
    (s.modPw p f).mgmtDown = s.mgmtDown ∧
    (s.modPw p f).mgmtWhy = s.mgmtWhy := by
  exact ⟨rfl, rfl, rfl, rfl, rfl, rfl, rfl, rfl, rfl, rfl, rfl, rfl, rfl, rfl, rfl, rfl, rfl, rfl, rfl, rfl, rfl, rfl, rfl, rfl, rfl, rfl, rfl, rfl, rfl, rfl⟩

/-- The readings `modPw` leaves alone. -/
@[simp] theorem modPw_reads (s : State) (p : Nat) (f : PortPower → PortPower) :
    (∀ o, (s.modPw p f).reg o = s.reg o) ∧
    (∀ o u w, (s.modPw p f).fld o u w = s.fld o u w) ∧
    (∀ o u, (s.modPw p f).flag o u = s.flag o u) ∧
    (∀ o, (s.modPw p f).mb o = s.mb o) ∧
    (∀ o, (s.modPw p f).chan o = s.chan o) ∧
    (∀ o, (s.modPw p f).dev o = s.dev o) ∧
    (∀ o, (s.modPw p f).group o = s.group o) ∧
    (∀ o, (s.modPw p f).ang o = s.ang o) ∧
    (∀ o, (s.modPw p f).src o = s.src o) ∧
    (∀ o, (s.modPw p f).dom o = s.dom o) ∧
    (∀ o, (s.modPw p f).can o = s.can o) ∧
    (∀ o, (s.modPw p f).region o = s.region o) ∧
    (∀ o, (s.modPw p f).child o = s.child o) ∧
    (∀ o, (s.modPw p f).feed o = s.feed o) ∧
    (∀ o, (s.modPw p f).rail o = s.rail o) := by
  exact ⟨fun _ => rfl, fun _ _ _ => rfl, fun _ _ => rfl, fun _ => rfl, fun _ => rfl, fun _ => rfl, fun _ => rfl, fun _ => rfl, fun _ => rfl, fun _ => rfl, fun _ => rfl, fun _ => rfl, fun _ => rfl, fun _ => rfl, fun _ => rfl⟩

/-- The fields after `modPd`. -/
@[simp] theorem modPd_fields (s : State) (p : Nat) (f : PortPd → PortPd) :
    (s.modPd p f).pending = s.pending ∧
    (s.modPd p f).tick = s.tick ∧
    (s.modPd p f).freeCtr = s.freeCtr ∧
    (s.modPd p f).rdata = s.rdata ∧
    (s.modPd p f).variant = s.variant ∧
    (s.modPd p f).straps = s.straps ∧
    (s.modPd p f).hrs = s.hrs ∧
    (s.modPd p f).cci = s.cci ∧
    (s.modPd p f).journal = s.journal ∧
    (s.modPd p f).campion = s.campion ∧
    (s.modPd p f).warden = s.warden ∧
    (s.modPd p f).power = s.power ∧
    (s.modPd p f).keeper = s.keeper ∧
    (s.modPd p f).boot = s.boot ∧
    (s.modPd p f).chicory = s.chicory ∧
    (s.modPd p f).clover = s.clover ∧
    (s.modPd p f).hub = s.hub ∧
    (s.modPd p f).strike = s.strike ∧
    (s.modPd p f).rescue = s.rescue ∧
    (s.modPd p f).devices = s.devices ∧
    (s.modPd p f).chans = s.chans ∧
    (s.modPd p f).groups = s.groups ∧
    (s.modPd p f).policies = s.policies ∧
    (s.modPd p f).domain = s.domain ∧
    (s.modPd p f).sched = s.sched ∧
    (s.modPd p f).cans = s.cans ∧
    (s.modPd p f).integ = s.integ ∧
    (s.modPd p f).test = s.test ∧
    (s.modPd p f).mgmtDown = s.mgmtDown ∧
    (s.modPd p f).mgmtWhy = s.mgmtWhy := by
  exact ⟨rfl, rfl, rfl, rfl, rfl, rfl, rfl, rfl, rfl, rfl, rfl, rfl, rfl, rfl, rfl, rfl, rfl, rfl, rfl, rfl, rfl, rfl, rfl, rfl, rfl, rfl, rfl, rfl, rfl, rfl⟩

/-- The readings `modPd` leaves alone. -/
@[simp] theorem modPd_reads (s : State) (p : Nat) (f : PortPd → PortPd) :
    (∀ o, (s.modPd p f).reg o = s.reg o) ∧
    (∀ o u w, (s.modPd p f).fld o u w = s.fld o u w) ∧
    (∀ o u, (s.modPd p f).flag o u = s.flag o u) ∧
    (∀ o, (s.modPd p f).mb o = s.mb o) ∧
    (∀ o, (s.modPd p f).chan o = s.chan o) ∧
    (∀ o, (s.modPd p f).dev o = s.dev o) ∧
    (∀ o, (s.modPd p f).group o = s.group o) ∧
    (∀ o, (s.modPd p f).ang o = s.ang o) ∧
    (∀ o, (s.modPd p f).src o = s.src o) ∧
    (∀ o, (s.modPd p f).dom o = s.dom o) ∧
    (∀ o, (s.modPd p f).can o = s.can o) ∧
    (∀ o, (s.modPd p f).region o = s.region o) ∧
    (∀ o, (s.modPd p f).child o = s.child o) ∧
    (∀ o, (s.modPd p f).feed o = s.feed o) ∧
    (∀ o, (s.modPd p f).rail o = s.rail o) := by
  exact ⟨fun _ => rfl, fun _ _ _ => rfl, fun _ _ => rfl, fun _ => rfl, fun _ => rfl, fun _ => rfl, fun _ => rfl, fun _ => rfl, fun _ => rfl, fun _ => rfl, fun _ => rfl, fun _ => rfl, fun _ => rfl, fun _ => rfl, fun _ => rfl⟩

/-- The fields after `setChan`. -/
@[simp] theorem setChan_fields (s : State) (n : Nat) (c : Chan) :
    (s.setChan n c).pending = s.pending ∧
    (s.setChan n c).tick = s.tick ∧
    (s.setChan n c).freeCtr = s.freeCtr ∧
    (s.setChan n c).rdata = s.rdata ∧
    (s.setChan n c).variant = s.variant ∧
    (s.setChan n c).straps = s.straps ∧
    (s.setChan n c).hrs = s.hrs ∧
    (s.setChan n c).cci = s.cci ∧
    (s.setChan n c).journal = s.journal ∧
    (s.setChan n c).campion = s.campion ∧
    (s.setChan n c).warden = s.warden ∧
    (s.setChan n c).power = s.power ∧
    (s.setChan n c).keeper = s.keeper ∧
    (s.setChan n c).boot = s.boot ∧
    (s.setChan n c).chicory = s.chicory ∧
    (s.setChan n c).ports = s.ports ∧
    (s.setChan n c).clover = s.clover ∧
    (s.setChan n c).hub = s.hub ∧
    (s.setChan n c).strike = s.strike ∧
    (s.setChan n c).rescue = s.rescue ∧
    (s.setChan n c).devices = s.devices ∧
    (s.setChan n c).chans = Tbl.setD {} s.chans n c ∧
    (s.setChan n c).groups = s.groups ∧
    (s.setChan n c).policies = s.policies ∧
    (s.setChan n c).domain = s.domain ∧
    (s.setChan n c).sched = s.sched ∧
    (s.setChan n c).cans = s.cans ∧
    (s.setChan n c).integ = s.integ ∧
    (s.setChan n c).test = s.test ∧
    (s.setChan n c).mgmtDown = s.mgmtDown ∧
    (s.setChan n c).mgmtWhy = s.mgmtWhy := by
  exact ⟨rfl, rfl, rfl, rfl, rfl, rfl, rfl, rfl, rfl, rfl, rfl, rfl, rfl, rfl, rfl, rfl, rfl, rfl, rfl, rfl, rfl, rfl, rfl, rfl, rfl, rfl, rfl, rfl, rfl, rfl, rfl⟩

/-- The readings `setChan` leaves alone. -/
@[simp] theorem setChan_reads (s : State) (n : Nat) (c : Chan) :
    (∀ o, (s.setChan n c).reg o = s.reg o) ∧
    (∀ o u w, (s.setChan n c).fld o u w = s.fld o u w) ∧
    (∀ o u, (s.setChan n c).flag o u = s.flag o u) ∧
    (∀ o, (s.setChan n c).mb o = s.mb o) ∧
    (∀ o, (s.setChan n c).port o = s.port o) ∧
    (∀ o, (s.setChan n c).dev o = s.dev o) ∧
    (∀ o, (s.setChan n c).group o = s.group o) ∧
    (∀ o, (s.setChan n c).ang o = s.ang o) ∧
    (∀ o, (s.setChan n c).src o = s.src o) ∧
    (∀ o, (s.setChan n c).dom o = s.dom o) ∧
    (∀ o, (s.setChan n c).can o = s.can o) ∧
    (∀ o, (s.setChan n c).region o = s.region o) ∧
    (∀ o, (s.setChan n c).child o = s.child o) ∧
    (∀ o, (s.setChan n c).feed o = s.feed o) ∧
    (∀ o, (s.setChan n c).rail o = s.rail o) := by
  exact ⟨fun _ => rfl, fun _ _ _ => rfl, fun _ _ => rfl, fun _ => rfl, fun _ => rfl, fun _ => rfl, fun _ => rfl, fun _ => rfl, fun _ => rfl, fun _ => rfl, fun _ => rfl, fun _ => rfl, fun _ => rfl, fun _ => rfl, fun _ => rfl⟩

theorem chan_setChan (s : State) (n : Nat) (c : Chan) (j : Nat) :
    (s.setChan n c).chan j = if j = n then c else s.chan j := Tbl.getD_setD _ _ _ _ _

@[simp] theorem chan_setChan_same (s : State) (n : Nat) (c : Chan) : (s.setChan n c).chan n = c := Tbl.getD_setD_same _ _ _ _

/-- The fields after `modChan`. -/
@[simp] theorem modChan_fields (s : State) (n : Nat) (f : Chan → Chan) :
    (s.modChan n f).pending = s.pending ∧
    (s.modChan n f).tick = s.tick ∧
    (s.modChan n f).freeCtr = s.freeCtr ∧
    (s.modChan n f).rdata = s.rdata ∧
    (s.modChan n f).variant = s.variant ∧
    (s.modChan n f).straps = s.straps ∧
    (s.modChan n f).hrs = s.hrs ∧
    (s.modChan n f).cci = s.cci ∧
    (s.modChan n f).journal = s.journal ∧
    (s.modChan n f).campion = s.campion ∧
    (s.modChan n f).warden = s.warden ∧
    (s.modChan n f).power = s.power ∧
    (s.modChan n f).keeper = s.keeper ∧
    (s.modChan n f).boot = s.boot ∧
    (s.modChan n f).chicory = s.chicory ∧
    (s.modChan n f).ports = s.ports ∧
    (s.modChan n f).clover = s.clover ∧
    (s.modChan n f).hub = s.hub ∧
    (s.modChan n f).strike = s.strike ∧
    (s.modChan n f).rescue = s.rescue ∧
    (s.modChan n f).devices = s.devices ∧
    (s.modChan n f).groups = s.groups ∧
    (s.modChan n f).policies = s.policies ∧
    (s.modChan n f).domain = s.domain ∧
    (s.modChan n f).sched = s.sched ∧
    (s.modChan n f).cans = s.cans ∧
    (s.modChan n f).integ = s.integ ∧
    (s.modChan n f).test = s.test ∧
    (s.modChan n f).mgmtDown = s.mgmtDown ∧
    (s.modChan n f).mgmtWhy = s.mgmtWhy := by
  exact ⟨rfl, rfl, rfl, rfl, rfl, rfl, rfl, rfl, rfl, rfl, rfl, rfl, rfl, rfl, rfl, rfl, rfl, rfl, rfl, rfl, rfl, rfl, rfl, rfl, rfl, rfl, rfl, rfl, rfl, rfl⟩

/-- The readings `modChan` leaves alone. -/
@[simp] theorem modChan_reads (s : State) (n : Nat) (f : Chan → Chan) :
    (∀ o, (s.modChan n f).reg o = s.reg o) ∧
    (∀ o u w, (s.modChan n f).fld o u w = s.fld o u w) ∧
    (∀ o u, (s.modChan n f).flag o u = s.flag o u) ∧
    (∀ o, (s.modChan n f).mb o = s.mb o) ∧
    (∀ o, (s.modChan n f).port o = s.port o) ∧
    (∀ o, (s.modChan n f).dev o = s.dev o) ∧
    (∀ o, (s.modChan n f).group o = s.group o) ∧
    (∀ o, (s.modChan n f).ang o = s.ang o) ∧
    (∀ o, (s.modChan n f).src o = s.src o) ∧
    (∀ o, (s.modChan n f).dom o = s.dom o) ∧
    (∀ o, (s.modChan n f).can o = s.can o) ∧
    (∀ o, (s.modChan n f).region o = s.region o) ∧
    (∀ o, (s.modChan n f).child o = s.child o) ∧
    (∀ o, (s.modChan n f).feed o = s.feed o) ∧
    (∀ o, (s.modChan n f).rail o = s.rail o) := by
  exact ⟨fun _ => rfl, fun _ _ _ => rfl, fun _ _ => rfl, fun _ => rfl, fun _ => rfl, fun _ => rfl, fun _ => rfl, fun _ => rfl, fun _ => rfl, fun _ => rfl, fun _ => rfl, fun _ => rfl, fun _ => rfl, fun _ => rfl, fun _ => rfl⟩

/-- The fields after `setDev`. -/
@[simp] theorem setDev_fields (s : State) (n : Nat) (d : Device) :
    (s.setDev n d).pending = s.pending ∧
    (s.setDev n d).tick = s.tick ∧
    (s.setDev n d).freeCtr = s.freeCtr ∧
    (s.setDev n d).rdata = s.rdata ∧
    (s.setDev n d).variant = s.variant ∧
    (s.setDev n d).straps = s.straps ∧
    (s.setDev n d).hrs = s.hrs ∧
    (s.setDev n d).cci = s.cci ∧
    (s.setDev n d).journal = s.journal ∧
    (s.setDev n d).campion = s.campion ∧
    (s.setDev n d).warden = s.warden ∧
    (s.setDev n d).power = s.power ∧
    (s.setDev n d).keeper = s.keeper ∧
    (s.setDev n d).boot = s.boot ∧
    (s.setDev n d).chicory = s.chicory ∧
    (s.setDev n d).ports = s.ports ∧
    (s.setDev n d).clover = s.clover ∧
    (s.setDev n d).hub = s.hub ∧
    (s.setDev n d).strike = s.strike ∧
    (s.setDev n d).rescue = s.rescue ∧
    (s.setDev n d).devices = Tbl.setD {} s.devices n d ∧
    (s.setDev n d).chans = s.chans ∧
    (s.setDev n d).groups = s.groups ∧
    (s.setDev n d).policies = s.policies ∧
    (s.setDev n d).domain = s.domain ∧
    (s.setDev n d).sched = s.sched ∧
    (s.setDev n d).cans = s.cans ∧
    (s.setDev n d).integ = s.integ ∧
    (s.setDev n d).test = s.test ∧
    (s.setDev n d).mgmtDown = s.mgmtDown ∧
    (s.setDev n d).mgmtWhy = s.mgmtWhy := by
  exact ⟨rfl, rfl, rfl, rfl, rfl, rfl, rfl, rfl, rfl, rfl, rfl, rfl, rfl, rfl, rfl, rfl, rfl, rfl, rfl, rfl, rfl, rfl, rfl, rfl, rfl, rfl, rfl, rfl, rfl, rfl, rfl⟩

/-- The readings `setDev` leaves alone. -/
@[simp] theorem setDev_reads (s : State) (n : Nat) (d : Device) :
    (∀ o, (s.setDev n d).reg o = s.reg o) ∧
    (∀ o u w, (s.setDev n d).fld o u w = s.fld o u w) ∧
    (∀ o u, (s.setDev n d).flag o u = s.flag o u) ∧
    (∀ o, (s.setDev n d).mb o = s.mb o) ∧
    (∀ o, (s.setDev n d).port o = s.port o) ∧
    (∀ o, (s.setDev n d).chan o = s.chan o) ∧
    (∀ o, (s.setDev n d).group o = s.group o) ∧
    (∀ o, (s.setDev n d).ang o = s.ang o) ∧
    (∀ o, (s.setDev n d).src o = s.src o) ∧
    (∀ o, (s.setDev n d).dom o = s.dom o) ∧
    (∀ o, (s.setDev n d).can o = s.can o) ∧
    (∀ o, (s.setDev n d).region o = s.region o) ∧
    (∀ o, (s.setDev n d).child o = s.child o) ∧
    (∀ o, (s.setDev n d).feed o = s.feed o) ∧
    (∀ o, (s.setDev n d).rail o = s.rail o) := by
  exact ⟨fun _ => rfl, fun _ _ _ => rfl, fun _ _ => rfl, fun _ => rfl, fun _ => rfl, fun _ => rfl, fun _ => rfl, fun _ => rfl, fun _ => rfl, fun _ => rfl, fun _ => rfl, fun _ => rfl, fun _ => rfl, fun _ => rfl, fun _ => rfl⟩

theorem dev_setDev (s : State) (n : Nat) (d : Device) (j : Nat) :
    (s.setDev n d).dev j = if j = n then d else s.dev j := Tbl.getD_setD _ _ _ _ _

@[simp] theorem dev_setDev_same (s : State) (n : Nat) (d : Device) : (s.setDev n d).dev n = d := Tbl.getD_setD_same _ _ _ _

/-- The fields after `setGroup`. -/
@[simp] theorem setGroup_fields (s : State) (n : Nat) (g : Group) :
    (s.setGroup n g).pending = s.pending ∧
    (s.setGroup n g).tick = s.tick ∧
    (s.setGroup n g).freeCtr = s.freeCtr ∧
    (s.setGroup n g).rdata = s.rdata ∧
    (s.setGroup n g).variant = s.variant ∧
    (s.setGroup n g).straps = s.straps ∧
    (s.setGroup n g).hrs = s.hrs ∧
    (s.setGroup n g).cci = s.cci ∧
    (s.setGroup n g).journal = s.journal ∧
    (s.setGroup n g).campion = s.campion ∧
    (s.setGroup n g).warden = s.warden ∧
    (s.setGroup n g).power = s.power ∧
    (s.setGroup n g).keeper = s.keeper ∧
    (s.setGroup n g).boot = s.boot ∧
    (s.setGroup n g).chicory = s.chicory ∧
    (s.setGroup n g).ports = s.ports ∧
    (s.setGroup n g).clover = s.clover ∧
    (s.setGroup n g).hub = s.hub ∧
    (s.setGroup n g).strike = s.strike ∧
    (s.setGroup n g).rescue = s.rescue ∧
    (s.setGroup n g).devices = s.devices ∧
    (s.setGroup n g).chans = s.chans ∧
    (s.setGroup n g).groups = Tbl.setD {} s.groups n g ∧
    (s.setGroup n g).policies = s.policies ∧
    (s.setGroup n g).domain = s.domain ∧
    (s.setGroup n g).sched = s.sched ∧
    (s.setGroup n g).cans = s.cans ∧
    (s.setGroup n g).integ = s.integ ∧
    (s.setGroup n g).test = s.test ∧
    (s.setGroup n g).mgmtDown = s.mgmtDown ∧
    (s.setGroup n g).mgmtWhy = s.mgmtWhy := by
  exact ⟨rfl, rfl, rfl, rfl, rfl, rfl, rfl, rfl, rfl, rfl, rfl, rfl, rfl, rfl, rfl, rfl, rfl, rfl, rfl, rfl, rfl, rfl, rfl, rfl, rfl, rfl, rfl, rfl, rfl, rfl, rfl⟩

/-- The readings `setGroup` leaves alone. -/
@[simp] theorem setGroup_reads (s : State) (n : Nat) (g : Group) :
    (∀ o, (s.setGroup n g).reg o = s.reg o) ∧
    (∀ o u w, (s.setGroup n g).fld o u w = s.fld o u w) ∧
    (∀ o u, (s.setGroup n g).flag o u = s.flag o u) ∧
    (∀ o, (s.setGroup n g).mb o = s.mb o) ∧
    (∀ o, (s.setGroup n g).port o = s.port o) ∧
    (∀ o, (s.setGroup n g).chan o = s.chan o) ∧
    (∀ o, (s.setGroup n g).dev o = s.dev o) ∧
    (∀ o, (s.setGroup n g).ang o = s.ang o) ∧
    (∀ o, (s.setGroup n g).src o = s.src o) ∧
    (∀ o, (s.setGroup n g).dom o = s.dom o) ∧
    (∀ o, (s.setGroup n g).can o = s.can o) ∧
    (∀ o, (s.setGroup n g).region o = s.region o) ∧
    (∀ o, (s.setGroup n g).child o = s.child o) ∧
    (∀ o, (s.setGroup n g).feed o = s.feed o) ∧
    (∀ o, (s.setGroup n g).rail o = s.rail o) := by
  exact ⟨fun _ => rfl, fun _ _ _ => rfl, fun _ _ => rfl, fun _ => rfl, fun _ => rfl, fun _ => rfl, fun _ => rfl, fun _ => rfl, fun _ => rfl, fun _ => rfl, fun _ => rfl, fun _ => rfl, fun _ => rfl, fun _ => rfl, fun _ => rfl⟩

theorem group_setGroup (s : State) (n : Nat) (g : Group) (j : Nat) :
    (s.setGroup n g).group j = if j = n then g else s.group j := Tbl.getD_setD _ _ _ _ _

@[simp] theorem group_setGroup_same (s : State) (n : Nat) (g : Group) : (s.setGroup n g).group n = g := Tbl.getD_setD_same _ _ _ _

/-- The fields after `setAng`. -/
@[simp] theorem setAng_fields (s : State) (k : Nat) (a : Ang) :
    (s.setAng k a).pending = s.pending ∧
    (s.setAng k a).tick = s.tick ∧
    (s.setAng k a).freeCtr = s.freeCtr ∧
    (s.setAng k a).rdata = s.rdata ∧
    (s.setAng k a).variant = s.variant ∧
    (s.setAng k a).straps = s.straps ∧
    (s.setAng k a).hrs = s.hrs ∧
    (s.setAng k a).cci = s.cci ∧
    (s.setAng k a).journal = s.journal ∧
    (s.setAng k a).campion = s.campion ∧
    (s.setAng k a).warden = s.warden ∧
    (s.setAng k a).power = s.power ∧
    (s.setAng k a).keeper = s.keeper ∧
    (s.setAng k a).boot = s.boot ∧
    (s.setAng k a).chicory = { s.chicory with angs := Tbl.setD {} s.chicory.angs k a } ∧
    (s.setAng k a).ports = s.ports ∧
    (s.setAng k a).clover = s.clover ∧
    (s.setAng k a).hub = s.hub ∧
    (s.setAng k a).strike = s.strike ∧
    (s.setAng k a).rescue = s.rescue ∧
    (s.setAng k a).devices = s.devices ∧
    (s.setAng k a).chans = s.chans ∧
    (s.setAng k a).groups = s.groups ∧
    (s.setAng k a).policies = s.policies ∧
    (s.setAng k a).domain = s.domain ∧
    (s.setAng k a).sched = s.sched ∧
    (s.setAng k a).cans = s.cans ∧
    (s.setAng k a).integ = s.integ ∧
    (s.setAng k a).test = s.test ∧
    (s.setAng k a).mgmtDown = s.mgmtDown ∧
    (s.setAng k a).mgmtWhy = s.mgmtWhy := by
  exact ⟨rfl, rfl, rfl, rfl, rfl, rfl, rfl, rfl, rfl, rfl, rfl, rfl, rfl, rfl, rfl, rfl, rfl, rfl, rfl, rfl, rfl, rfl, rfl, rfl, rfl, rfl, rfl, rfl, rfl, rfl, rfl⟩

/-- The readings `setAng` leaves alone. -/
@[simp] theorem setAng_reads (s : State) (k : Nat) (a : Ang) :
    (∀ o, (s.setAng k a).reg o = s.reg o) ∧
    (∀ o u w, (s.setAng k a).fld o u w = s.fld o u w) ∧
    (∀ o u, (s.setAng k a).flag o u = s.flag o u) ∧
    (∀ o, (s.setAng k a).mb o = s.mb o) ∧
    (∀ o, (s.setAng k a).port o = s.port o) ∧
    (∀ o, (s.setAng k a).chan o = s.chan o) ∧
    (∀ o, (s.setAng k a).dev o = s.dev o) ∧
    (∀ o, (s.setAng k a).group o = s.group o) ∧
    (∀ o, (s.setAng k a).src o = s.src o) ∧
    (∀ o, (s.setAng k a).dom o = s.dom o) ∧
    (∀ o, (s.setAng k a).can o = s.can o) ∧
    (∀ o, (s.setAng k a).region o = s.region o) ∧
    (∀ o, (s.setAng k a).child o = s.child o) ∧
    (∀ o, (s.setAng k a).feed o = s.feed o) ∧
    (∀ o, (s.setAng k a).rail o = s.rail o) := by
  exact ⟨fun _ => rfl, fun _ _ _ => rfl, fun _ _ => rfl, fun _ => rfl, fun _ => rfl, fun _ => rfl, fun _ => rfl, fun _ => rfl, fun _ => rfl, fun _ => rfl, fun _ => rfl, fun _ => rfl, fun _ => rfl, fun _ => rfl, fun _ => rfl⟩

theorem ang_setAng (s : State) (k : Nat) (a : Ang) (j : Nat) :
    (s.setAng k a).ang j = if j = k then a else s.ang j := Tbl.getD_setD _ _ _ _ _

@[simp] theorem ang_setAng_same (s : State) (k : Nat) (a : Ang) : (s.setAng k a).ang k = a := Tbl.getD_setD_same _ _ _ _

/-- The fields after `setSrc`. -/
@[simp] theorem setSrc_fields (s : State) (n : Nat) (f : FaultSrc) :
    (s.setSrc n f).pending = s.pending ∧
    (s.setSrc n f).tick = s.tick ∧
    (s.setSrc n f).freeCtr = s.freeCtr ∧
    (s.setSrc n f).rdata = s.rdata ∧
    (s.setSrc n f).variant = s.variant ∧
    (s.setSrc n f).straps = s.straps ∧
    (s.setSrc n f).hrs = s.hrs ∧
    (s.setSrc n f).cci = s.cci ∧
    (s.setSrc n f).journal = s.journal ∧
    (s.setSrc n f).campion = { s.campion with srcs := Tbl.setD {} s.campion.srcs n f } ∧
    (s.setSrc n f).warden = s.warden ∧
    (s.setSrc n f).power = s.power ∧
    (s.setSrc n f).keeper = s.keeper ∧
    (s.setSrc n f).boot = s.boot ∧
    (s.setSrc n f).chicory = s.chicory ∧
    (s.setSrc n f).ports = s.ports ∧
    (s.setSrc n f).clover = s.clover ∧
    (s.setSrc n f).hub = s.hub ∧
    (s.setSrc n f).strike = s.strike ∧
    (s.setSrc n f).rescue = s.rescue ∧
    (s.setSrc n f).devices = s.devices ∧
    (s.setSrc n f).chans = s.chans ∧
    (s.setSrc n f).groups = s.groups ∧
    (s.setSrc n f).policies = s.policies ∧
    (s.setSrc n f).domain = s.domain ∧
    (s.setSrc n f).sched = s.sched ∧
    (s.setSrc n f).cans = s.cans ∧
    (s.setSrc n f).integ = s.integ ∧
    (s.setSrc n f).test = s.test ∧
    (s.setSrc n f).mgmtDown = s.mgmtDown ∧
    (s.setSrc n f).mgmtWhy = s.mgmtWhy := by
  exact ⟨rfl, rfl, rfl, rfl, rfl, rfl, rfl, rfl, rfl, rfl, rfl, rfl, rfl, rfl, rfl, rfl, rfl, rfl, rfl, rfl, rfl, rfl, rfl, rfl, rfl, rfl, rfl, rfl, rfl, rfl, rfl⟩

/-- The readings `setSrc` leaves alone. -/
@[simp] theorem setSrc_reads (s : State) (n : Nat) (f : FaultSrc) :
    (∀ o, (s.setSrc n f).reg o = s.reg o) ∧
    (∀ o u w, (s.setSrc n f).fld o u w = s.fld o u w) ∧
    (∀ o u, (s.setSrc n f).flag o u = s.flag o u) ∧
    (∀ o, (s.setSrc n f).mb o = s.mb o) ∧
    (∀ o, (s.setSrc n f).port o = s.port o) ∧
    (∀ o, (s.setSrc n f).chan o = s.chan o) ∧
    (∀ o, (s.setSrc n f).dev o = s.dev o) ∧
    (∀ o, (s.setSrc n f).group o = s.group o) ∧
    (∀ o, (s.setSrc n f).ang o = s.ang o) ∧
    (∀ o, (s.setSrc n f).dom o = s.dom o) ∧
    (∀ o, (s.setSrc n f).can o = s.can o) ∧
    (∀ o, (s.setSrc n f).region o = s.region o) ∧
    (∀ o, (s.setSrc n f).child o = s.child o) ∧
    (∀ o, (s.setSrc n f).feed o = s.feed o) ∧
    (∀ o, (s.setSrc n f).rail o = s.rail o) := by
  exact ⟨fun _ => rfl, fun _ _ _ => rfl, fun _ _ => rfl, fun _ => rfl, fun _ => rfl, fun _ => rfl, fun _ => rfl, fun _ => rfl, fun _ => rfl, fun _ => rfl, fun _ => rfl, fun _ => rfl, fun _ => rfl, fun _ => rfl, fun _ => rfl⟩

theorem src_setSrc (s : State) (n : Nat) (f : FaultSrc) (j : Nat) :
    (s.setSrc n f).src j = if j = n then f else s.src j := Tbl.getD_setD _ _ _ _ _

@[simp] theorem src_setSrc_same (s : State) (n : Nat) (f : FaultSrc) : (s.setSrc n f).src n = f := Tbl.getD_setD_same _ _ _ _

/-- The fields after `setDom`. -/
@[simp] theorem setDom_fields (s : State) (d : Nat) (x : Domain) :
    (s.setDom d x).pending = s.pending ∧
    (s.setDom d x).tick = s.tick ∧
    (s.setDom d x).freeCtr = s.freeCtr ∧
    (s.setDom d x).rdata = s.rdata ∧
    (s.setDom d x).variant = s.variant ∧
    (s.setDom d x).straps = s.straps ∧
    (s.setDom d x).hrs = s.hrs ∧
    (s.setDom d x).cci = s.cci ∧
    (s.setDom d x).journal = s.journal ∧
    (s.setDom d x).campion = s.campion ∧
    (s.setDom d x).warden = s.warden ∧
    (s.setDom d x).power = { s.power with doms := Tbl.setD {} s.power.doms d x } ∧
    (s.setDom d x).keeper = s.keeper ∧
    (s.setDom d x).boot = s.boot ∧
    (s.setDom d x).chicory = s.chicory ∧
    (s.setDom d x).ports = s.ports ∧
    (s.setDom d x).clover = s.clover ∧
    (s.setDom d x).hub = s.hub ∧
    (s.setDom d x).strike = s.strike ∧
    (s.setDom d x).rescue = s.rescue ∧
    (s.setDom d x).devices = s.devices ∧
    (s.setDom d x).chans = s.chans ∧
    (s.setDom d x).groups = s.groups ∧
    (s.setDom d x).policies = s.policies ∧
    (s.setDom d x).domain = s.domain ∧
    (s.setDom d x).sched = s.sched ∧
    (s.setDom d x).cans = s.cans ∧
    (s.setDom d x).integ = s.integ ∧
    (s.setDom d x).test = s.test ∧
    (s.setDom d x).mgmtDown = s.mgmtDown ∧
    (s.setDom d x).mgmtWhy = s.mgmtWhy := by
  exact ⟨rfl, rfl, rfl, rfl, rfl, rfl, rfl, rfl, rfl, rfl, rfl, rfl, rfl, rfl, rfl, rfl, rfl, rfl, rfl, rfl, rfl, rfl, rfl, rfl, rfl, rfl, rfl, rfl, rfl, rfl, rfl⟩

/-- The readings `setDom` leaves alone. -/
@[simp] theorem setDom_reads (s : State) (d : Nat) (x : Domain) :
    (∀ o, (s.setDom d x).reg o = s.reg o) ∧
    (∀ o u w, (s.setDom d x).fld o u w = s.fld o u w) ∧
    (∀ o u, (s.setDom d x).flag o u = s.flag o u) ∧
    (∀ o, (s.setDom d x).mb o = s.mb o) ∧
    (∀ o, (s.setDom d x).port o = s.port o) ∧
    (∀ o, (s.setDom d x).chan o = s.chan o) ∧
    (∀ o, (s.setDom d x).dev o = s.dev o) ∧
    (∀ o, (s.setDom d x).group o = s.group o) ∧
    (∀ o, (s.setDom d x).ang o = s.ang o) ∧
    (∀ o, (s.setDom d x).src o = s.src o) ∧
    (∀ o, (s.setDom d x).can o = s.can o) ∧
    (∀ o, (s.setDom d x).region o = s.region o) ∧
    (∀ o, (s.setDom d x).child o = s.child o) ∧
    (∀ o, (s.setDom d x).feed o = s.feed o) ∧
    (∀ o, (s.setDom d x).rail o = s.rail o) := by
  exact ⟨fun _ => rfl, fun _ _ _ => rfl, fun _ _ => rfl, fun _ => rfl, fun _ => rfl, fun _ => rfl, fun _ => rfl, fun _ => rfl, fun _ => rfl, fun _ => rfl, fun _ => rfl, fun _ => rfl, fun _ => rfl, fun _ => rfl, fun _ => rfl⟩

theorem dom_setDom (s : State) (d : Nat) (x : Domain) (j : Nat) :
    (s.setDom d x).dom j = if j = d then x else s.dom j := Tbl.getD_setD _ _ _ _ _

@[simp] theorem dom_setDom_same (s : State) (d : Nat) (x : Domain) : (s.setDom d x).dom d = x := Tbl.getD_setD_same _ _ _ _

/-- The fields after `setCan`. -/
@[simp] theorem setCan_fields (s : State) (c : Nat) (x : CanCtl) :
    (s.setCan c x).pending = s.pending ∧
    (s.setCan c x).tick = s.tick ∧
    (s.setCan c x).freeCtr = s.freeCtr ∧
    (s.setCan c x).rdata = s.rdata ∧
    (s.setCan c x).variant = s.variant ∧
    (s.setCan c x).straps = s.straps ∧
    (s.setCan c x).hrs = s.hrs ∧
    (s.setCan c x).cci = s.cci ∧
    (s.setCan c x).journal = s.journal ∧
    (s.setCan c x).campion = s.campion ∧
    (s.setCan c x).warden = s.warden ∧
    (s.setCan c x).power = s.power ∧
    (s.setCan c x).keeper = s.keeper ∧
    (s.setCan c x).boot = s.boot ∧
    (s.setCan c x).chicory = s.chicory ∧
    (s.setCan c x).ports = s.ports ∧
    (s.setCan c x).clover = s.clover ∧
    (s.setCan c x).hub = s.hub ∧
    (s.setCan c x).strike = s.strike ∧
    (s.setCan c x).rescue = s.rescue ∧
    (s.setCan c x).devices = s.devices ∧
    (s.setCan c x).chans = s.chans ∧
    (s.setCan c x).groups = s.groups ∧
    (s.setCan c x).policies = s.policies ∧
    (s.setCan c x).domain = s.domain ∧
    (s.setCan c x).sched = s.sched ∧
    (s.setCan c x).cans = Tbl.setD {} s.cans c x ∧
    (s.setCan c x).integ = s.integ ∧
    (s.setCan c x).test = s.test ∧
    (s.setCan c x).mgmtDown = s.mgmtDown ∧
    (s.setCan c x).mgmtWhy = s.mgmtWhy := by
  exact ⟨rfl, rfl, rfl, rfl, rfl, rfl, rfl, rfl, rfl, rfl, rfl, rfl, rfl, rfl, rfl, rfl, rfl, rfl, rfl, rfl, rfl, rfl, rfl, rfl, rfl, rfl, rfl, rfl, rfl, rfl, rfl⟩

/-- The readings `setCan` leaves alone. -/
@[simp] theorem setCan_reads (s : State) (c : Nat) (x : CanCtl) :
    (∀ o, (s.setCan c x).reg o = s.reg o) ∧
    (∀ o u w, (s.setCan c x).fld o u w = s.fld o u w) ∧
    (∀ o u, (s.setCan c x).flag o u = s.flag o u) ∧
    (∀ o, (s.setCan c x).mb o = s.mb o) ∧
    (∀ o, (s.setCan c x).port o = s.port o) ∧
    (∀ o, (s.setCan c x).chan o = s.chan o) ∧
    (∀ o, (s.setCan c x).dev o = s.dev o) ∧
    (∀ o, (s.setCan c x).group o = s.group o) ∧
    (∀ o, (s.setCan c x).ang o = s.ang o) ∧
    (∀ o, (s.setCan c x).src o = s.src o) ∧
    (∀ o, (s.setCan c x).dom o = s.dom o) ∧
    (∀ o, (s.setCan c x).region o = s.region o) ∧
    (∀ o, (s.setCan c x).child o = s.child o) ∧
    (∀ o, (s.setCan c x).feed o = s.feed o) ∧
    (∀ o, (s.setCan c x).rail o = s.rail o) := by
  exact ⟨fun _ => rfl, fun _ _ _ => rfl, fun _ _ => rfl, fun _ => rfl, fun _ => rfl, fun _ => rfl, fun _ => rfl, fun _ => rfl, fun _ => rfl, fun _ => rfl, fun _ => rfl, fun _ => rfl, fun _ => rfl, fun _ => rfl, fun _ => rfl⟩

theorem can_setCan (s : State) (c : Nat) (x : CanCtl) (j : Nat) :
    (s.setCan c x).can j = if j = c then x else s.can j := Tbl.getD_setD _ _ _ _ _

@[simp] theorem can_setCan_same (s : State) (c : Nat) (x : CanCtl) : (s.setCan c x).can c = x := Tbl.getD_setD_same _ _ _ _

/-- The fields after `setRegion`. -/
@[simp] theorem setRegion_fields (s : State) (r : Nat) (x : Region) :
    (s.setRegion r x).pending = s.pending ∧
    (s.setRegion r x).tick = s.tick ∧
    (s.setRegion r x).freeCtr = s.freeCtr ∧
    (s.setRegion r x).rdata = s.rdata ∧
    (s.setRegion r x).variant = s.variant ∧
    (s.setRegion r x).straps = s.straps ∧
    (s.setRegion r x).hrs = s.hrs ∧
    (s.setRegion r x).cci = s.cci ∧
    (s.setRegion r x).journal = s.journal ∧
    (s.setRegion r x).campion = s.campion ∧
    (s.setRegion r x).warden = s.warden ∧
    (s.setRegion r x).power = s.power ∧
    (s.setRegion r x).keeper = s.keeper ∧
    (s.setRegion r x).boot = s.boot ∧
    (s.setRegion r x).chicory = s.chicory ∧
    (s.setRegion r x).ports = s.ports ∧
    (s.setRegion r x).clover = s.clover ∧
    (s.setRegion r x).hub = s.hub ∧
    (s.setRegion r x).strike = s.strike ∧
    (s.setRegion r x).rescue = s.rescue ∧
    (s.setRegion r x).devices = s.devices ∧
    (s.setRegion r x).chans = s.chans ∧
    (s.setRegion r x).groups = s.groups ∧
    (s.setRegion r x).policies = s.policies ∧
    (s.setRegion r x).domain = s.domain ∧
    (s.setRegion r x).sched = s.sched ∧
    (s.setRegion r x).cans = s.cans ∧
    (s.setRegion r x).integ = { s.integ with regions := Tbl.setD {} s.integ.regions r x } ∧
    (s.setRegion r x).test = s.test ∧
    (s.setRegion r x).mgmtDown = s.mgmtDown ∧
    (s.setRegion r x).mgmtWhy = s.mgmtWhy := by
  exact ⟨rfl, rfl, rfl, rfl, rfl, rfl, rfl, rfl, rfl, rfl, rfl, rfl, rfl, rfl, rfl, rfl, rfl, rfl, rfl, rfl, rfl, rfl, rfl, rfl, rfl, rfl, rfl, rfl, rfl, rfl, rfl⟩

/-- The readings `setRegion` leaves alone. -/
@[simp] theorem setRegion_reads (s : State) (r : Nat) (x : Region) :
    (∀ o, (s.setRegion r x).reg o = s.reg o) ∧
    (∀ o u w, (s.setRegion r x).fld o u w = s.fld o u w) ∧
    (∀ o u, (s.setRegion r x).flag o u = s.flag o u) ∧
    (∀ o, (s.setRegion r x).mb o = s.mb o) ∧
    (∀ o, (s.setRegion r x).port o = s.port o) ∧
    (∀ o, (s.setRegion r x).chan o = s.chan o) ∧
    (∀ o, (s.setRegion r x).dev o = s.dev o) ∧
    (∀ o, (s.setRegion r x).group o = s.group o) ∧
    (∀ o, (s.setRegion r x).ang o = s.ang o) ∧
    (∀ o, (s.setRegion r x).src o = s.src o) ∧
    (∀ o, (s.setRegion r x).dom o = s.dom o) ∧
    (∀ o, (s.setRegion r x).can o = s.can o) ∧
    (∀ o, (s.setRegion r x).child o = s.child o) ∧
    (∀ o, (s.setRegion r x).feed o = s.feed o) ∧
    (∀ o, (s.setRegion r x).rail o = s.rail o) := by
  exact ⟨fun _ => rfl, fun _ _ _ => rfl, fun _ _ => rfl, fun _ => rfl, fun _ => rfl, fun _ => rfl, fun _ => rfl, fun _ => rfl, fun _ => rfl, fun _ => rfl, fun _ => rfl, fun _ => rfl, fun _ => rfl, fun _ => rfl, fun _ => rfl⟩

theorem region_setRegion (s : State) (r : Nat) (x : Region) (j : Nat) :
    (s.setRegion r x).region j = if j = r then x else s.region j := Tbl.getD_setD _ _ _ _ _

@[simp] theorem region_setRegion_same (s : State) (r : Nat) (x : Region) : (s.setRegion r x).region r = x := Tbl.getD_setD_same _ _ _ _

/-- The fields after `setChild`. -/
@[simp] theorem setChild_fields (s : State) (c : Nat) (x : Child) :
    (s.setChild c x).pending = s.pending ∧
    (s.setChild c x).tick = s.tick ∧
    (s.setChild c x).freeCtr = s.freeCtr ∧
    (s.setChild c x).rdata = s.rdata ∧
    (s.setChild c x).variant = s.variant ∧
    (s.setChild c x).straps = s.straps ∧
    (s.setChild c x).hrs = s.hrs ∧
    (s.setChild c x).cci = s.cci ∧
    (s.setChild c x).journal = s.journal ∧
    (s.setChild c x).campion = s.campion ∧
    (s.setChild c x).warden = s.warden ∧
    (s.setChild c x).power = s.power ∧
    (s.setChild c x).keeper = s.keeper ∧
    (s.setChild c x).boot = s.boot ∧
    (s.setChild c x).chicory = s.chicory ∧
    (s.setChild c x).ports = s.ports ∧
    (s.setChild c x).clover = s.clover ∧
    (s.setChild c x).hub = s.hub ∧
    (s.setChild c x).strike = s.strike ∧
    (s.setChild c x).rescue = s.rescue ∧
    (s.setChild c x).devices = s.devices ∧
    (s.setChild c x).chans = s.chans ∧
    (s.setChild c x).groups = s.groups ∧
    (s.setChild c x).policies = s.policies ∧
    (s.setChild c x).domain = { s.domain with children := Tbl.setD {} s.domain.children c x } ∧
    (s.setChild c x).sched = s.sched ∧
    (s.setChild c x).cans = s.cans ∧
    (s.setChild c x).integ = s.integ ∧
    (s.setChild c x).test = s.test ∧
    (s.setChild c x).mgmtDown = s.mgmtDown ∧
    (s.setChild c x).mgmtWhy = s.mgmtWhy := by
  exact ⟨rfl, rfl, rfl, rfl, rfl, rfl, rfl, rfl, rfl, rfl, rfl, rfl, rfl, rfl, rfl, rfl, rfl, rfl, rfl, rfl, rfl, rfl, rfl, rfl, rfl, rfl, rfl, rfl, rfl, rfl, rfl⟩

/-- The readings `setChild` leaves alone. -/
@[simp] theorem setChild_reads (s : State) (c : Nat) (x : Child) :
    (∀ o, (s.setChild c x).reg o = s.reg o) ∧
    (∀ o u w, (s.setChild c x).fld o u w = s.fld o u w) ∧
    (∀ o u, (s.setChild c x).flag o u = s.flag o u) ∧
    (∀ o, (s.setChild c x).mb o = s.mb o) ∧
    (∀ o, (s.setChild c x).port o = s.port o) ∧
    (∀ o, (s.setChild c x).chan o = s.chan o) ∧
    (∀ o, (s.setChild c x).dev o = s.dev o) ∧
    (∀ o, (s.setChild c x).group o = s.group o) ∧
    (∀ o, (s.setChild c x).ang o = s.ang o) ∧
    (∀ o, (s.setChild c x).src o = s.src o) ∧
    (∀ o, (s.setChild c x).dom o = s.dom o) ∧
    (∀ o, (s.setChild c x).can o = s.can o) ∧
    (∀ o, (s.setChild c x).region o = s.region o) ∧
    (∀ o, (s.setChild c x).feed o = s.feed o) ∧
    (∀ o, (s.setChild c x).rail o = s.rail o) := by
  exact ⟨fun _ => rfl, fun _ _ _ => rfl, fun _ _ => rfl, fun _ => rfl, fun _ => rfl, fun _ => rfl, fun _ => rfl, fun _ => rfl, fun _ => rfl, fun _ => rfl, fun _ => rfl, fun _ => rfl, fun _ => rfl, fun _ => rfl, fun _ => rfl⟩

theorem child_setChild (s : State) (c : Nat) (x : Child) (j : Nat) :
    (s.setChild c x).child j = if j = c then x else s.child j := Tbl.getD_setD _ _ _ _ _

@[simp] theorem child_setChild_same (s : State) (c : Nat) (x : Child) : (s.setChild c x).child c = x := Tbl.getD_setD_same _ _ _ _

/-- The fields after `setFeed`. -/
@[simp] theorem setFeed_fields (s : State) (f : Nat) (x : Feed) :
    (s.setFeed f x).pending = s.pending ∧
    (s.setFeed f x).tick = s.tick ∧
    (s.setFeed f x).freeCtr = s.freeCtr ∧
    (s.setFeed f x).rdata = s.rdata ∧
    (s.setFeed f x).variant = s.variant ∧
    (s.setFeed f x).straps = s.straps ∧
    (s.setFeed f x).hrs = s.hrs ∧
    (s.setFeed f x).cci = s.cci ∧
    (s.setFeed f x).journal = s.journal ∧
    (s.setFeed f x).campion = s.campion ∧
    (s.setFeed f x).warden = s.warden ∧
    (s.setFeed f x).power = s.power ∧
    (s.setFeed f x).keeper = s.keeper ∧
    (s.setFeed f x).boot = s.boot ∧
    (s.setFeed f x).chicory = s.chicory ∧
    (s.setFeed f x).ports = s.ports ∧
    (s.setFeed f x).clover = { s.clover with feeds := Tbl.setD {} s.clover.feeds f x } ∧
    (s.setFeed f x).hub = s.hub ∧
    (s.setFeed f x).strike = s.strike ∧
    (s.setFeed f x).rescue = s.rescue ∧
    (s.setFeed f x).devices = s.devices ∧
    (s.setFeed f x).chans = s.chans ∧
    (s.setFeed f x).groups = s.groups ∧
    (s.setFeed f x).policies = s.policies ∧
    (s.setFeed f x).domain = s.domain ∧
    (s.setFeed f x).sched = s.sched ∧
    (s.setFeed f x).cans = s.cans ∧
    (s.setFeed f x).integ = s.integ ∧
    (s.setFeed f x).test = s.test ∧
    (s.setFeed f x).mgmtDown = s.mgmtDown ∧
    (s.setFeed f x).mgmtWhy = s.mgmtWhy := by
  exact ⟨rfl, rfl, rfl, rfl, rfl, rfl, rfl, rfl, rfl, rfl, rfl, rfl, rfl, rfl, rfl, rfl, rfl, rfl, rfl, rfl, rfl, rfl, rfl, rfl, rfl, rfl, rfl, rfl, rfl, rfl, rfl⟩

/-- The readings `setFeed` leaves alone. -/
@[simp] theorem setFeed_reads (s : State) (f : Nat) (x : Feed) :
    (∀ o, (s.setFeed f x).reg o = s.reg o) ∧
    (∀ o u w, (s.setFeed f x).fld o u w = s.fld o u w) ∧
    (∀ o u, (s.setFeed f x).flag o u = s.flag o u) ∧
    (∀ o, (s.setFeed f x).mb o = s.mb o) ∧
    (∀ o, (s.setFeed f x).port o = s.port o) ∧
    (∀ o, (s.setFeed f x).chan o = s.chan o) ∧
    (∀ o, (s.setFeed f x).dev o = s.dev o) ∧
    (∀ o, (s.setFeed f x).group o = s.group o) ∧
    (∀ o, (s.setFeed f x).ang o = s.ang o) ∧
    (∀ o, (s.setFeed f x).src o = s.src o) ∧
    (∀ o, (s.setFeed f x).dom o = s.dom o) ∧
    (∀ o, (s.setFeed f x).can o = s.can o) ∧
    (∀ o, (s.setFeed f x).region o = s.region o) ∧
    (∀ o, (s.setFeed f x).child o = s.child o) ∧
    (∀ o, (s.setFeed f x).rail o = s.rail o) := by
  exact ⟨fun _ => rfl, fun _ _ _ => rfl, fun _ _ => rfl, fun _ => rfl, fun _ => rfl, fun _ => rfl, fun _ => rfl, fun _ => rfl, fun _ => rfl, fun _ => rfl, fun _ => rfl, fun _ => rfl, fun _ => rfl, fun _ => rfl, fun _ => rfl⟩

theorem feed_setFeed (s : State) (f : Nat) (x : Feed) (j : Nat) :
    (s.setFeed f x).feed j = if j = f then x else s.feed j := Tbl.getD_setD _ _ _ _ _

@[simp] theorem feed_setFeed_same (s : State) (f : Nat) (x : Feed) : (s.setFeed f x).feed f = x := Tbl.getD_setD_same _ _ _ _

/-- The fields after `setRail`. -/
@[simp] theorem setRail_fields (s : State) (r : Nat) (x : Rail) :
    (s.setRail r x).pending = s.pending ∧
    (s.setRail r x).tick = s.tick ∧
    (s.setRail r x).freeCtr = s.freeCtr ∧
    (s.setRail r x).rdata = s.rdata ∧
    (s.setRail r x).variant = s.variant ∧
    (s.setRail r x).straps = s.straps ∧
    (s.setRail r x).hrs = s.hrs ∧
    (s.setRail r x).cci = s.cci ∧
    (s.setRail r x).journal = s.journal ∧
    (s.setRail r x).campion = s.campion ∧
    (s.setRail r x).warden = s.warden ∧
    (s.setRail r x).power = s.power ∧
    (s.setRail r x).keeper = s.keeper ∧
    (s.setRail r x).boot = s.boot ∧
    (s.setRail r x).chicory = s.chicory ∧
    (s.setRail r x).ports = s.ports ∧
    (s.setRail r x).clover = { s.clover with rails := Tbl.setD {} s.clover.rails r x } ∧
    (s.setRail r x).hub = s.hub ∧
    (s.setRail r x).strike = s.strike ∧
    (s.setRail r x).rescue = s.rescue ∧
    (s.setRail r x).devices = s.devices ∧
    (s.setRail r x).chans = s.chans ∧
    (s.setRail r x).groups = s.groups ∧
    (s.setRail r x).policies = s.policies ∧
    (s.setRail r x).domain = s.domain ∧
    (s.setRail r x).sched = s.sched ∧
    (s.setRail r x).cans = s.cans ∧
    (s.setRail r x).integ = s.integ ∧
    (s.setRail r x).test = s.test ∧
    (s.setRail r x).mgmtDown = s.mgmtDown ∧
    (s.setRail r x).mgmtWhy = s.mgmtWhy := by
  exact ⟨rfl, rfl, rfl, rfl, rfl, rfl, rfl, rfl, rfl, rfl, rfl, rfl, rfl, rfl, rfl, rfl, rfl, rfl, rfl, rfl, rfl, rfl, rfl, rfl, rfl, rfl, rfl, rfl, rfl, rfl, rfl⟩

/-- The readings `setRail` leaves alone. -/
@[simp] theorem setRail_reads (s : State) (r : Nat) (x : Rail) :
    (∀ o, (s.setRail r x).reg o = s.reg o) ∧
    (∀ o u w, (s.setRail r x).fld o u w = s.fld o u w) ∧
    (∀ o u, (s.setRail r x).flag o u = s.flag o u) ∧
    (∀ o, (s.setRail r x).mb o = s.mb o) ∧
    (∀ o, (s.setRail r x).port o = s.port o) ∧
    (∀ o, (s.setRail r x).chan o = s.chan o) ∧
    (∀ o, (s.setRail r x).dev o = s.dev o) ∧
    (∀ o, (s.setRail r x).group o = s.group o) ∧
    (∀ o, (s.setRail r x).ang o = s.ang o) ∧
    (∀ o, (s.setRail r x).src o = s.src o) ∧
    (∀ o, (s.setRail r x).dom o = s.dom o) ∧
    (∀ o, (s.setRail r x).can o = s.can o) ∧
    (∀ o, (s.setRail r x).region o = s.region o) ∧
    (∀ o, (s.setRail r x).child o = s.child o) ∧
    (∀ o, (s.setRail r x).feed o = s.feed o) := by
  exact ⟨fun _ => rfl, fun _ _ _ => rfl, fun _ _ => rfl, fun _ => rfl, fun _ => rfl, fun _ => rfl, fun _ => rfl, fun _ => rfl, fun _ => rfl, fun _ => rfl, fun _ => rfl, fun _ => rfl, fun _ => rfl, fun _ => rfl, fun _ => rfl⟩

theorem rail_setRail (s : State) (r : Nat) (x : Rail) (j : Nat) :
    (s.setRail r x).rail j = if j = r then x else s.rail j := Tbl.getD_setD _ _ _ _ _

@[simp] theorem rail_setRail_same (s : State) (r : Nat) (x : Rail) : (s.setRail r x).rail r = x := Tbl.getD_setD_same _ _ _ _

/-- The fields after `drawn`. -/
@[simp] theorem drawn_fields (s : State) :
    (s.drawn).pending = s.pending ∧
    (s.drawn).tick = s.tick ∧
    (s.drawn).freeCtr = s.freeCtr + 1 ∧
    (s.drawn).rdata = s.rdata ∧
    (s.drawn).variant = s.variant ∧
    (s.drawn).straps = s.straps ∧
    (s.drawn).hrs = s.hrs ∧
    (s.drawn).cci = s.cci ∧
    (s.drawn).journal = s.journal ∧
    (s.drawn).campion = s.campion ∧
    (s.drawn).warden = s.warden ∧
    (s.drawn).power = s.power ∧
    (s.drawn).keeper = s.keeper ∧
    (s.drawn).boot = s.boot ∧
    (s.drawn).chicory = s.chicory ∧
    (s.drawn).ports = s.ports ∧
    (s.drawn).clover = s.clover ∧
    (s.drawn).hub = s.hub ∧
    (s.drawn).strike = s.strike ∧
    (s.drawn).rescue = s.rescue ∧
    (s.drawn).devices = s.devices ∧
    (s.drawn).chans = s.chans ∧
    (s.drawn).groups = s.groups ∧
    (s.drawn).policies = s.policies ∧
    (s.drawn).domain = s.domain ∧
    (s.drawn).sched = s.sched ∧
    (s.drawn).cans = s.cans ∧
    (s.drawn).integ = s.integ ∧
    (s.drawn).test = s.test ∧
    (s.drawn).mgmtDown = s.mgmtDown ∧
    (s.drawn).mgmtWhy = s.mgmtWhy := by
  exact ⟨rfl, rfl, rfl, rfl, rfl, rfl, rfl, rfl, rfl, rfl, rfl, rfl, rfl, rfl, rfl, rfl, rfl, rfl, rfl, rfl, rfl, rfl, rfl, rfl, rfl, rfl, rfl, rfl, rfl, rfl, rfl⟩

/-- The readings `drawn` leaves alone. -/
@[simp] theorem drawn_reads (s : State) :
    (∀ o, (s.drawn).reg o = s.reg o) ∧
    (∀ o u w, (s.drawn).fld o u w = s.fld o u w) ∧
    (∀ o u, (s.drawn).flag o u = s.flag o u) ∧
    (∀ o, (s.drawn).mb o = s.mb o) ∧
    (∀ o, (s.drawn).port o = s.port o) ∧
    (∀ o, (s.drawn).chan o = s.chan o) ∧
    (∀ o, (s.drawn).dev o = s.dev o) ∧
    (∀ o, (s.drawn).group o = s.group o) ∧
    (∀ o, (s.drawn).ang o = s.ang o) ∧
    (∀ o, (s.drawn).src o = s.src o) ∧
    (∀ o, (s.drawn).dom o = s.dom o) ∧
    (∀ o, (s.drawn).can o = s.can o) ∧
    (∀ o, (s.drawn).region o = s.region o) ∧
    (∀ o, (s.drawn).child o = s.child o) ∧
    (∀ o, (s.drawn).feed o = s.feed o) ∧
    (∀ o, (s.drawn).rail o = s.rail o) := by
  exact ⟨fun _ => rfl, fun _ _ _ => rfl, fun _ _ => rfl, fun _ => rfl, fun _ => rfl, fun _ => rfl, fun _ => rfl, fun _ => rfl, fun _ => rfl, fun _ => rfl, fun _ => rfl, fun _ => rfl, fun _ => rfl, fun _ => rfl, fun _ => rfl, fun _ => rfl⟩

/-- The fields after `setReg`. -/
@[simp] theorem setReg_fields (s : State) (off v : Nat) :
    (s.setReg off v).pending = s.pending ∧
    (s.setReg off v).tick = s.tick ∧
    (s.setReg off v).freeCtr = s.freeCtr ∧
    (s.setReg off v).rdata = s.rdata ∧
    (s.setReg off v).variant = s.variant ∧
    (s.setReg off v).straps = s.straps ∧
    (s.setReg off v).cci = s.cci ∧
    (s.setReg off v).journal = s.journal ∧
    (s.setReg off v).campion = s.campion ∧
    (s.setReg off v).warden = s.warden ∧
    (s.setReg off v).power = s.power ∧
    (s.setReg off v).keeper = s.keeper ∧
    (s.setReg off v).boot = s.boot ∧
    (s.setReg off v).chicory = s.chicory ∧
    (s.setReg off v).ports = s.ports ∧
    (s.setReg off v).clover = s.clover ∧
    (s.setReg off v).hub = s.hub ∧
    (s.setReg off v).strike = s.strike ∧
    (s.setReg off v).rescue = s.rescue ∧
    (s.setReg off v).devices = s.devices ∧
    (s.setReg off v).chans = s.chans ∧
    (s.setReg off v).groups = s.groups ∧
    (s.setReg off v).policies = s.policies ∧
    (s.setReg off v).domain = s.domain ∧
    (s.setReg off v).sched = s.sched ∧
    (s.setReg off v).cans = s.cans ∧
    (s.setReg off v).integ = s.integ ∧
    (s.setReg off v).test = s.test ∧
    (s.setReg off v).mgmtDown = s.mgmtDown ∧
    (s.setReg off v).mgmtWhy = s.mgmtWhy := by
  exact ⟨rfl, rfl, rfl, rfl, rfl, rfl, rfl, rfl, rfl, rfl, rfl, rfl, rfl, rfl, rfl, rfl, rfl, rfl, rfl, rfl, rfl, rfl, rfl, rfl, rfl, rfl, rfl, rfl, rfl, rfl⟩

/-- The readings `setReg` leaves alone. -/
@[simp] theorem setReg_reads (s : State) (off v : Nat) :
    (∀ o, (s.setReg off v).mb o = s.mb o) ∧
    (∀ o, (s.setReg off v).port o = s.port o) ∧
    (∀ o, (s.setReg off v).chan o = s.chan o) ∧
    (∀ o, (s.setReg off v).dev o = s.dev o) ∧
    (∀ o, (s.setReg off v).group o = s.group o) ∧
    (∀ o, (s.setReg off v).ang o = s.ang o) ∧
    (∀ o, (s.setReg off v).src o = s.src o) ∧
    (∀ o, (s.setReg off v).dom o = s.dom o) ∧
    (∀ o, (s.setReg off v).can o = s.can o) ∧
    (∀ o, (s.setReg off v).region o = s.region o) ∧
    (∀ o, (s.setReg off v).child o = s.child o) ∧
    (∀ o, (s.setReg off v).feed o = s.feed o) ∧
    (∀ o, (s.setReg off v).rail o = s.rail o) := by
  exact ⟨fun _ => rfl, fun _ => rfl, fun _ => rfl, fun _ => rfl, fun _ => rfl, fun _ => rfl, fun _ => rfl, fun _ => rfl, fun _ => rfl, fun _ => rfl, fun _ => rfl, fun _ => rfl, fun _ => rfl⟩

/-- The fields after `setFld`. -/
@[simp] theorem setFld_fields (s : State) (off hi lo v : Nat) :
    (s.setFld off hi lo v).pending = s.pending ∧
    (s.setFld off hi lo v).tick = s.tick ∧
    (s.setFld off hi lo v).freeCtr = s.freeCtr ∧
    (s.setFld off hi lo v).rdata = s.rdata ∧
    (s.setFld off hi lo v).variant = s.variant ∧
    (s.setFld off hi lo v).straps = s.straps ∧
    (s.setFld off hi lo v).cci = s.cci ∧
    (s.setFld off hi lo v).journal = s.journal ∧
    (s.setFld off hi lo v).campion = s.campion ∧
    (s.setFld off hi lo v).warden = s.warden ∧
    (s.setFld off hi lo v).power = s.power ∧
    (s.setFld off hi lo v).keeper = s.keeper ∧
    (s.setFld off hi lo v).boot = s.boot ∧
    (s.setFld off hi lo v).chicory = s.chicory ∧
    (s.setFld off hi lo v).ports = s.ports ∧
    (s.setFld off hi lo v).clover = s.clover ∧
    (s.setFld off hi lo v).hub = s.hub ∧
    (s.setFld off hi lo v).strike = s.strike ∧
    (s.setFld off hi lo v).rescue = s.rescue ∧
    (s.setFld off hi lo v).devices = s.devices ∧
    (s.setFld off hi lo v).chans = s.chans ∧
    (s.setFld off hi lo v).groups = s.groups ∧
    (s.setFld off hi lo v).policies = s.policies ∧
    (s.setFld off hi lo v).domain = s.domain ∧
    (s.setFld off hi lo v).sched = s.sched ∧
    (s.setFld off hi lo v).cans = s.cans ∧
    (s.setFld off hi lo v).integ = s.integ ∧
    (s.setFld off hi lo v).test = s.test ∧
    (s.setFld off hi lo v).mgmtDown = s.mgmtDown ∧
    (s.setFld off hi lo v).mgmtWhy = s.mgmtWhy := by
  exact ⟨rfl, rfl, rfl, rfl, rfl, rfl, rfl, rfl, rfl, rfl, rfl, rfl, rfl, rfl, rfl, rfl, rfl, rfl, rfl, rfl, rfl, rfl, rfl, rfl, rfl, rfl, rfl, rfl, rfl, rfl⟩

/-- The readings `setFld` leaves alone. -/
@[simp] theorem setFld_reads (s : State) (off hi lo v : Nat) :
    (∀ o, (s.setFld off hi lo v).mb o = s.mb o) ∧
    (∀ o, (s.setFld off hi lo v).port o = s.port o) ∧
    (∀ o, (s.setFld off hi lo v).chan o = s.chan o) ∧
    (∀ o, (s.setFld off hi lo v).dev o = s.dev o) ∧
    (∀ o, (s.setFld off hi lo v).group o = s.group o) ∧
    (∀ o, (s.setFld off hi lo v).ang o = s.ang o) ∧
    (∀ o, (s.setFld off hi lo v).src o = s.src o) ∧
    (∀ o, (s.setFld off hi lo v).dom o = s.dom o) ∧
    (∀ o, (s.setFld off hi lo v).can o = s.can o) ∧
    (∀ o, (s.setFld off hi lo v).region o = s.region o) ∧
    (∀ o, (s.setFld off hi lo v).child o = s.child o) ∧
    (∀ o, (s.setFld off hi lo v).feed o = s.feed o) ∧
    (∀ o, (s.setFld off hi lo v).rail o = s.rail o) := by
  exact ⟨fun _ => rfl, fun _ => rfl, fun _ => rfl, fun _ => rfl, fun _ => rfl, fun _ => rfl, fun _ => rfl, fun _ => rfl, fun _ => rfl, fun _ => rfl, fun _ => rfl, fun _ => rfl, fun _ => rfl⟩

/-- The fields after `setFlag`. -/
@[simp] theorem setFlag_fields (s : State) (off i : Nat) :
    (s.setFlag off i).pending = s.pending ∧
    (s.setFlag off i).tick = s.tick ∧
    (s.setFlag off i).freeCtr = s.freeCtr ∧
    (s.setFlag off i).rdata = s.rdata ∧
    (s.setFlag off i).variant = s.variant ∧
    (s.setFlag off i).straps = s.straps ∧
    (s.setFlag off i).cci = s.cci ∧
    (s.setFlag off i).journal = s.journal ∧
    (s.setFlag off i).campion = s.campion ∧
    (s.setFlag off i).warden = s.warden ∧
    (s.setFlag off i).power = s.power ∧
    (s.setFlag off i).keeper = s.keeper ∧
    (s.setFlag off i).boot = s.boot ∧
    (s.setFlag off i).chicory = s.chicory ∧
    (s.setFlag off i).ports = s.ports ∧
    (s.setFlag off i).clover = s.clover ∧
    (s.setFlag off i).hub = s.hub ∧
    (s.setFlag off i).strike = s.strike ∧
    (s.setFlag off i).rescue = s.rescue ∧
    (s.setFlag off i).devices = s.devices ∧
    (s.setFlag off i).chans = s.chans ∧
    (s.setFlag off i).groups = s.groups ∧
    (s.setFlag off i).policies = s.policies ∧
    (s.setFlag off i).domain = s.domain ∧
    (s.setFlag off i).sched = s.sched ∧
    (s.setFlag off i).cans = s.cans ∧
    (s.setFlag off i).integ = s.integ ∧
    (s.setFlag off i).test = s.test ∧
    (s.setFlag off i).mgmtDown = s.mgmtDown ∧
    (s.setFlag off i).mgmtWhy = s.mgmtWhy := by
  exact ⟨rfl, rfl, rfl, rfl, rfl, rfl, rfl, rfl, rfl, rfl, rfl, rfl, rfl, rfl, rfl, rfl, rfl, rfl, rfl, rfl, rfl, rfl, rfl, rfl, rfl, rfl, rfl, rfl, rfl, rfl⟩

/-- The readings `setFlag` leaves alone. -/
@[simp] theorem setFlag_reads (s : State) (off i : Nat) :
    (∀ o, (s.setFlag off i).mb o = s.mb o) ∧
    (∀ o, (s.setFlag off i).port o = s.port o) ∧
    (∀ o, (s.setFlag off i).chan o = s.chan o) ∧
    (∀ o, (s.setFlag off i).dev o = s.dev o) ∧
    (∀ o, (s.setFlag off i).group o = s.group o) ∧
    (∀ o, (s.setFlag off i).ang o = s.ang o) ∧
    (∀ o, (s.setFlag off i).src o = s.src o) ∧
    (∀ o, (s.setFlag off i).dom o = s.dom o) ∧
    (∀ o, (s.setFlag off i).can o = s.can o) ∧
    (∀ o, (s.setFlag off i).region o = s.region o) ∧
    (∀ o, (s.setFlag off i).child o = s.child o) ∧
    (∀ o, (s.setFlag off i).feed o = s.feed o) ∧
    (∀ o, (s.setFlag off i).rail o = s.rail o) := by
  exact ⟨fun _ => rfl, fun _ => rfl, fun _ => rfl, fun _ => rfl, fun _ => rfl, fun _ => rfl, fun _ => rfl, fun _ => rfl, fun _ => rfl, fun _ => rfl, fun _ => rfl, fun _ => rfl, fun _ => rfl⟩

/-- The fields after `clrFlag`. -/
@[simp] theorem clrFlag_fields (s : State) (off i : Nat) :
    (s.clrFlag off i).pending = s.pending ∧
    (s.clrFlag off i).tick = s.tick ∧
    (s.clrFlag off i).freeCtr = s.freeCtr ∧
    (s.clrFlag off i).rdata = s.rdata ∧
    (s.clrFlag off i).variant = s.variant ∧
    (s.clrFlag off i).straps = s.straps ∧
    (s.clrFlag off i).cci = s.cci ∧
    (s.clrFlag off i).journal = s.journal ∧
    (s.clrFlag off i).campion = s.campion ∧
    (s.clrFlag off i).warden = s.warden ∧
    (s.clrFlag off i).power = s.power ∧
    (s.clrFlag off i).keeper = s.keeper ∧
    (s.clrFlag off i).boot = s.boot ∧
    (s.clrFlag off i).chicory = s.chicory ∧
    (s.clrFlag off i).ports = s.ports ∧
    (s.clrFlag off i).clover = s.clover ∧
    (s.clrFlag off i).hub = s.hub ∧
    (s.clrFlag off i).strike = s.strike ∧
    (s.clrFlag off i).rescue = s.rescue ∧
    (s.clrFlag off i).devices = s.devices ∧
    (s.clrFlag off i).chans = s.chans ∧
    (s.clrFlag off i).groups = s.groups ∧
    (s.clrFlag off i).policies = s.policies ∧
    (s.clrFlag off i).domain = s.domain ∧
    (s.clrFlag off i).sched = s.sched ∧
    (s.clrFlag off i).cans = s.cans ∧
    (s.clrFlag off i).integ = s.integ ∧
    (s.clrFlag off i).test = s.test ∧
    (s.clrFlag off i).mgmtDown = s.mgmtDown ∧
    (s.clrFlag off i).mgmtWhy = s.mgmtWhy := by
  exact ⟨rfl, rfl, rfl, rfl, rfl, rfl, rfl, rfl, rfl, rfl, rfl, rfl, rfl, rfl, rfl, rfl, rfl, rfl, rfl, rfl, rfl, rfl, rfl, rfl, rfl, rfl, rfl, rfl, rfl, rfl⟩

/-- The readings `clrFlag` leaves alone. -/
@[simp] theorem clrFlag_reads (s : State) (off i : Nat) :
    (∀ o, (s.clrFlag off i).mb o = s.mb o) ∧
    (∀ o, (s.clrFlag off i).port o = s.port o) ∧
    (∀ o, (s.clrFlag off i).chan o = s.chan o) ∧
    (∀ o, (s.clrFlag off i).dev o = s.dev o) ∧
    (∀ o, (s.clrFlag off i).group o = s.group o) ∧
    (∀ o, (s.clrFlag off i).ang o = s.ang o) ∧
    (∀ o, (s.clrFlag off i).src o = s.src o) ∧
    (∀ o, (s.clrFlag off i).dom o = s.dom o) ∧
    (∀ o, (s.clrFlag off i).can o = s.can o) ∧
    (∀ o, (s.clrFlag off i).region o = s.region o) ∧
    (∀ o, (s.clrFlag off i).child o = s.child o) ∧
    (∀ o, (s.clrFlag off i).feed o = s.feed o) ∧
    (∀ o, (s.clrFlag off i).rail o = s.rail o) := by
  exact ⟨fun _ => rfl, fun _ => rfl, fun _ => rfl, fun _ => rfl, fun _ => rfl, fun _ => rfl, fun _ => rfl, fun _ => rfl, fun _ => rfl, fun _ => rfl, fun _ => rfl, fun _ => rfl, fun _ => rfl⟩

/-- The fields after `incFld`. -/
@[simp] theorem incFld_fields (s : State) (off hi lo : Nat) :
    (s.incFld off hi lo).pending = s.pending ∧
    (s.incFld off hi lo).tick = s.tick ∧
    (s.incFld off hi lo).freeCtr = s.freeCtr ∧
    (s.incFld off hi lo).rdata = s.rdata ∧
    (s.incFld off hi lo).variant = s.variant ∧
    (s.incFld off hi lo).straps = s.straps ∧
    (s.incFld off hi lo).cci = s.cci ∧
    (s.incFld off hi lo).journal = s.journal ∧
    (s.incFld off hi lo).campion = s.campion ∧
    (s.incFld off hi lo).warden = s.warden ∧
    (s.incFld off hi lo).power = s.power ∧
    (s.incFld off hi lo).keeper = s.keeper ∧
    (s.incFld off hi lo).boot = s.boot ∧
    (s.incFld off hi lo).chicory = s.chicory ∧
    (s.incFld off hi lo).ports = s.ports ∧
    (s.incFld off hi lo).clover = s.clover ∧
    (s.incFld off hi lo).hub = s.hub ∧
    (s.incFld off hi lo).strike = s.strike ∧
    (s.incFld off hi lo).rescue = s.rescue ∧
    (s.incFld off hi lo).devices = s.devices ∧
    (s.incFld off hi lo).chans = s.chans ∧
    (s.incFld off hi lo).groups = s.groups ∧
    (s.incFld off hi lo).policies = s.policies ∧
    (s.incFld off hi lo).domain = s.domain ∧
    (s.incFld off hi lo).sched = s.sched ∧
    (s.incFld off hi lo).cans = s.cans ∧
    (s.incFld off hi lo).integ = s.integ ∧
    (s.incFld off hi lo).test = s.test ∧
    (s.incFld off hi lo).mgmtDown = s.mgmtDown ∧
    (s.incFld off hi lo).mgmtWhy = s.mgmtWhy := by
  exact ⟨rfl, rfl, rfl, rfl, rfl, rfl, rfl, rfl, rfl, rfl, rfl, rfl, rfl, rfl, rfl, rfl, rfl, rfl, rfl, rfl, rfl, rfl, rfl, rfl, rfl, rfl, rfl, rfl, rfl, rfl⟩

/-- The readings `incFld` leaves alone. -/
@[simp] theorem incFld_reads (s : State) (off hi lo : Nat) :
    (∀ o, (s.incFld off hi lo).mb o = s.mb o) ∧
    (∀ o, (s.incFld off hi lo).port o = s.port o) ∧
    (∀ o, (s.incFld off hi lo).chan o = s.chan o) ∧
    (∀ o, (s.incFld off hi lo).dev o = s.dev o) ∧
    (∀ o, (s.incFld off hi lo).group o = s.group o) ∧
    (∀ o, (s.incFld off hi lo).ang o = s.ang o) ∧
    (∀ o, (s.incFld off hi lo).src o = s.src o) ∧
    (∀ o, (s.incFld off hi lo).dom o = s.dom o) ∧
    (∀ o, (s.incFld off hi lo).can o = s.can o) ∧
    (∀ o, (s.incFld off hi lo).region o = s.region o) ∧
    (∀ o, (s.incFld off hi lo).child o = s.child o) ∧
    (∀ o, (s.incFld off hi lo).feed o = s.feed o) ∧
    (∀ o, (s.incFld off hi lo).rail o = s.rail o) := by
  exact ⟨fun _ => rfl, fun _ => rfl, fun _ => rfl, fun _ => rfl, fun _ => rfl, fun _ => rfl, fun _ => rfl, fun _ => rfl, fun _ => rfl, fun _ => rfl, fun _ => rfl, fun _ => rfl, fun _ => rfl⟩

theorem port_modPort (s : State) (p : Nat) (f : PortSt → PortSt) (q : Nat) :
    (s.modPort p f).port q = if q = p then f (s.port p) else s.port q := port_setPort _ _ _ _

@[simp] theorem port_modPort_same (s : State) (p : Nat) (f : PortSt → PortSt) :
    (s.modPort p f).port p = f (s.port p) := port_setPort_same _ _ _

theorem port_modUsb (s : State) (p : Nat) (f : PortUsb → PortUsb) (q : Nat) :
    (s.modUsb p f).port q = if q = p then { s.port p with usb := f (s.port p).usb } else s.port q := port_setPort _ _ _ _

@[simp] theorem port_modUsb_same (s : State) (p : Nat) (f : PortUsb → PortUsb) :
    (s.modUsb p f).port p = { s.port p with usb := f (s.port p).usb } := port_setPort_same _ _ _

theorem port_modPw (s : State) (p : Nat) (f : PortPower → PortPower) (q : Nat) :
    (s.modPw p f).port q = if q = p then { s.port p with pw := f (s.port p).pw } else s.port q := port_setPort _ _ _ _

@[simp] theorem port_modPw_same (s : State) (p : Nat) (f : PortPower → PortPower) :
    (s.modPw p f).port p = { s.port p with pw := f (s.port p).pw } := port_setPort_same _ _ _

theorem port_modPd (s : State) (p : Nat) (f : PortPd → PortPd) (q : Nat) :
    (s.modPd p f).port q = if q = p then { s.port p with pd := f (s.port p).pd } else s.port q := port_setPort _ _ _ _

@[simp] theorem port_modPd_same (s : State) (p : Nat) (f : PortPd → PortPd) :
    (s.modPd p f).port p = { s.port p with pd := f (s.port p).pd } := port_setPort_same _ _ _

theorem chan_modChan (s : State) (n : Nat) (f : Chan → Chan) (m : Nat) :
    (s.modChan n f).chan m = if m = n then f (s.chan n) else s.chan m := chan_setChan _ _ _ _

@[simp] theorem chan_modChan_same (s : State) (n : Nat) (f : Chan → Chan) :
    (s.modChan n f).chan n = f (s.chan n) := chan_setChan_same _ _ _

end Sys2Proof.Machine
end

