-- ==== Sys2Proof/Laws/Events.lean ====
section
/-!
SUPPORT. What an event, an answer and a completion can change: an event the registers and the event queue (R89,
R90), an answer the mailboxes and the result cache (R256).
-/

namespace Sys2Proof.Machine

/-! ### Events -/

/-- `t` is `s` but for the host register space and the command interface. -/
def HostSide (s t : State) : Prop := ∃ h c, t = { s with hrs := h, cci := c }

theorem HostSide.trans {s t u : State} (h : HostSide s t) (k : HostSide t u) : HostSide s u := by
  obtain ⟨a, b, rfl⟩ := h
  obtain ⟨c, d, rfl⟩ := k
  exact ⟨c, d, rfl⟩

theorem hostSide_setReg (s : State) (off v : Nat) : HostSide s (s.setReg off v) := ⟨_, _, rfl⟩
theorem hostSide_setFld (s : State) (off hi lo v : Nat) : HostSide s (s.setFld off hi lo v) := hostSide_setReg _ _ _
theorem hostSide_setFlag (s : State) (off i : Nat) : HostSide s (s.setFlag off i) := hostSide_setReg _ _ _
theorem hostSide_incFld (s : State) (off hi lo : Nat) : HostSide s (s.incFld off hi lo) := hostSide_setReg _ _ _

/-- An event changes nothing but registers and the command interface. -/
theorem raiseEvent_hostSide (ev code : Nat) (d : List Byte) (s : State) : HostSide s (raiseEvent ev code d s) := by
  have k (c : Cci) : HostSide s (({ s with cci := c } : State).setFlag (0x200 + ev / 32 * 4) (ev % 32)) :=
    HostSide.trans ⟨_, _, rfl⟩ (hostSide_setFlag _ _ _)
  have q (e : Event) (t : State) : HostSide t
      (if t.flag 0x220 0 then
        if t.cci.evq.length < 256 then State.evqLevel { t with cci.evq := t.cci.evq ++ [e] }
        else (t.setFlag 0x220 11).incFld 0x228 31 16
      else t) := by
    split
    · split
      · exact ⟨_, _, rfl⟩
      · exact (hostSide_setFlag _ _ _).trans (hostSide_incFld _ _ _ _)
    · exact ⟨_, _, rfl⟩
  exact (k _).trans (q _ _)

/-- The fields `raiseEvent` leaves alone. -/
@[simp] theorem raiseEvent_fields (ev code : Nat) (d : List Byte) (s : State) :
    (raiseEvent ev code d s).pending = s.pending ∧
    (raiseEvent ev code d s).tick = s.tick ∧
    (raiseEvent ev code d s).freeCtr = s.freeCtr ∧
    (raiseEvent ev code d s).rdata = s.rdata ∧
    (raiseEvent ev code d s).variant = s.variant ∧
    (raiseEvent ev code d s).straps = s.straps ∧
    (raiseEvent ev code d s).journal = s.journal ∧
    (raiseEvent ev code d s).campion = s.campion ∧
    (raiseEvent ev code d s).warden = s.warden ∧
    (raiseEvent ev code d s).power = s.power ∧
    (raiseEvent ev code d s).keeper = s.keeper ∧
    (raiseEvent ev code d s).boot = s.boot ∧
    (raiseEvent ev code d s).chicory = s.chicory ∧
    (raiseEvent ev code d s).ports = s.ports ∧
    (raiseEvent ev code d s).clover = s.clover ∧
    (raiseEvent ev code d s).hub = s.hub ∧
    (raiseEvent ev code d s).strike = s.strike ∧
    (raiseEvent ev code d s).rescue = s.rescue ∧
    (raiseEvent ev code d s).devices = s.devices ∧
    (raiseEvent ev code d s).chans = s.chans ∧
    (raiseEvent ev code d s).groups = s.groups ∧
    (raiseEvent ev code d s).policies = s.policies ∧
    (raiseEvent ev code d s).domain = s.domain ∧
    (raiseEvent ev code d s).sched = s.sched ∧
    (raiseEvent ev code d s).cans = s.cans ∧
    (raiseEvent ev code d s).integ = s.integ ∧
    (raiseEvent ev code d s).test = s.test ∧
    (raiseEvent ev code d s).mgmtDown = s.mgmtDown ∧
    (raiseEvent ev code d s).mgmtWhy = s.mgmtWhy := by
  obtain ⟨h, c, e⟩ := raiseEvent_hostSide ev code d s
  rw [e]
  exact ⟨rfl, rfl, rfl, rfl, rfl, rfl, rfl, rfl, rfl, rfl, rfl, rfl, rfl, rfl, rfl, rfl, rfl, rfl, rfl, rfl, rfl, rfl, rfl, rfl, rfl, rfl, rfl, rfl, rfl⟩

/-- The readings `raiseEvent` leaves alone. -/
@[simp] theorem raiseEvent_reads (ev code : Nat) (d : List Byte) (s : State) :
    (∀ o, (raiseEvent ev code d s).port o = s.port o) ∧
    (∀ o, (raiseEvent ev code d s).chan o = s.chan o) ∧
    (∀ o, (raiseEvent ev code d s).dev o = s.dev o) ∧
    (∀ o, (raiseEvent ev code d s).group o = s.group o) ∧
    (∀ o, (raiseEvent ev code d s).ang o = s.ang o) ∧
    (∀ o, (raiseEvent ev code d s).src o = s.src o) ∧
    (∀ o, (raiseEvent ev code d s).dom o = s.dom o) ∧
    (∀ o, (raiseEvent ev code d s).can o = s.can o) ∧
    (∀ o, (raiseEvent ev code d s).region o = s.region o) ∧
    (∀ o, (raiseEvent ev code d s).child o = s.child o) ∧
    (∀ o, (raiseEvent ev code d s).feed o = s.feed o) ∧
    (∀ o, (raiseEvent ev code d s).rail o = s.rail o) := by
  obtain ⟨h, c, e⟩ := raiseEvent_hostSide ev code d s
  rw [e]
  exact ⟨fun _ => rfl, fun _ => rfl, fun _ => rfl, fun _ => rfl, fun _ => rfl, fun _ => rfl, fun _ => rfl, fun _ => rfl, fun _ => rfl, fun _ => rfl, fun _ => rfl, fun _ => rfl⟩

/-- Of the stored registers, it changes only the pending bits of its word and, where the queue is full,
`CCI_QCTL` and `CCI_EVCNT`. -/
theorem raiseEvent_reg (ev code : Nat) (d : List Byte) (s : State) (o : Nat) (h1 : o ≠ 0x200 + ev / 32 * 4)
    (h2 : o ≠ 0x220) (h3 : o ≠ 0x228) : (raiseEvent ev code d s).reg o = s.reg o := by
  have k (c : Cci) : (({ s with cci := c } : State).setFlag (0x200 + ev / 32 * 4) (ev % 32)).reg o = s.reg o :=
    reg_setFld_ne _ _ _ _ h1
  have q (e : Event) (t : State) :
      (if t.flag 0x220 0 then
        if t.cci.evq.length < 256 then State.evqLevel { t with cci.evq := t.cci.evq ++ [e] }
        else (t.setFlag 0x220 11).incFld 0x228 31 16
      else t).reg o = t.reg o := by
    split
    · split
      · rfl
      · unfold State.incFld
        rw [reg_setFld_ne _ _ _ _ h3, State.setFlag, reg_setFld_ne _ _ _ _ h2]
    · rfl
  exact (q _ _).trans (k _)

/-- It changes no mailbox. -/
@[simp] theorem raiseEvent_mb (ev code : Nat) (d : List Byte) (s : State) (n : Nat) :
    (raiseEvent ev code d s).mb n = s.mb n := by
  unfold raiseEvent
  simp only []
  split
  · split <;> simp only [State.mb, State.evqLevel, incFld_fields, setFlag_fields]
  · simp only [State.mb, setFlag_fields]

/-! ### Answers -/

/-- `t` is `s` but for the command interface. -/
def CciSide (s t : State) : Prop := ∃ c, t = { s with cci := c }

theorem CciSide.refl (s : State) : CciSide s s := ⟨s.cci, rfl⟩
theorem CciSide.trans {s t u : State} (h : CciSide s t) (k : CciSide t u) : CciSide s u := by
  obtain ⟨a, rfl⟩ := h
  obtain ⟨c, rfl⟩ := k
  exact ⟨c, rfl⟩

theorem foldl_cciSide {α : Type} (g : State → α → State) (h : ∀ s x, CciSide s (g s x)) (l : List α) (s : State) :
    CciSide s (l.foldl g s) := by
  induction l generalizing s with
  | nil => exact CciSide.refl s
  | cons x t ih => exact (h s x).trans (ih (g s x))

theorem setMb_cciSide (s : State) (n : Nat) (m : Mailbox) : CciSide s (s.setMb n m) := ⟨_, rfl⟩

theorem answer_cciSide (mb : Nat) (r : Resp) (s : State) : CciSide s (answer mb r s) := ⟨_, rfl⟩

theorem answerWaiters_cciSide (n : Nat) (r : Resp) (s : State) : CciSide s (answerWaiters n r s) := by
  unfold answerWaiters
  refine foldl_cciSide _ (fun s x => ?_) _ s
  simp only []
  split
  · exact answer_cciSide _ _ _
  · exact CciSide.refl s

/-- Answers and completions change nothing but the command interface. -/
theorem completeMb_cciSide (mb : Nat) (st : Status) (res : List Byte) (s : State) :
    CciSide s (completeMb mb st res s) := by
  unfold completeMb
  simp only []
  refine CciSide.trans ?_ (answerWaiters_cciSide _ _ _)
  refine CciSide.trans ?_ (answer_cciSide _ _ _)
  exact ⟨_, rfl⟩

theorem completeWhere_cciSide (p : Wait → Bool) (st : Status) (res : List Byte) (s : State) :
    CciSide s (completeWhere p st res s) := by
  unfold completeWhere
  refine foldl_cciSide _ (fun s x => ?_) _ s
  simp only []
  split
  · split
    · exact completeMb_cciSide _ _ _ _
    · exact CciSide.refl s
  · exact CciSide.refl s

/-- The fields `answer` leaves alone. -/
@[simp] theorem answer_fields (mb : Nat) (r : Resp) (s : State) :
    (answer mb r s).pending = s.pending ∧
    (answer mb r s).tick = s.tick ∧
    (answer mb r s).freeCtr = s.freeCtr ∧
    (answer mb r s).rdata = s.rdata ∧
    (answer mb r s).variant = s.variant ∧
    (answer mb r s).straps = s.straps ∧
    (answer mb r s).hrs = s.hrs ∧
    (answer mb r s).journal = s.journal ∧
    (answer mb r s).campion = s.campion ∧
    (answer mb r s).warden = s.warden ∧
    (answer mb r s).power = s.power ∧
    (answer mb r s).keeper = s.keeper ∧
    (answer mb r s).boot = s.boot ∧
    (answer mb r s).chicory = s.chicory ∧
    (answer mb r s).ports = s.ports ∧
    (answer mb r s).clover = s.clover ∧
    (answer mb r s).hub = s.hub ∧
    (answer mb r s).strike = s.strike ∧
    (answer mb r s).rescue = s.rescue ∧
    (answer mb r s).devices = s.devices ∧
    (answer mb r s).chans = s.chans ∧
    (answer mb r s).groups = s.groups ∧
    (answer mb r s).policies = s.policies ∧
    (answer mb r s).domain = s.domain ∧
    (answer mb r s).sched = s.sched ∧
    (answer mb r s).cans = s.cans ∧
    (answer mb r s).integ = s.integ ∧
    (answer mb r s).test = s.test ∧
    (answer mb r s).mgmtDown = s.mgmtDown ∧
    (answer mb r s).mgmtWhy = s.mgmtWhy := by
  obtain ⟨c, e⟩ := answer_cciSide mb r s
  rw [e]
  exact ⟨rfl, rfl, rfl, rfl, rfl, rfl, rfl, rfl, rfl, rfl, rfl, rfl, rfl, rfl, rfl, rfl, rfl, rfl, rfl, rfl, rfl, rfl, rfl, rfl, rfl, rfl, rfl, rfl, rfl, rfl⟩

/-- The readings `answer` leaves alone. -/
@[simp] theorem answer_reads (mb : Nat) (r : Resp) (s : State) :
    (∀ o, (answer mb r s).reg o = s.reg o) ∧
    (∀ o u w, (answer mb r s).fld o u w = s.fld o u w) ∧
    (∀ o u, (answer mb r s).flag o u = s.flag o u) ∧
    (∀ o, (answer mb r s).port o = s.port o) ∧
    (∀ o, (answer mb r s).chan o = s.chan o) ∧
    (∀ o, (answer mb r s).dev o = s.dev o) ∧
    (∀ o, (answer mb r s).group o = s.group o) ∧
    (∀ o, (answer mb r s).ang o = s.ang o) ∧
    (∀ o, (answer mb r s).src o = s.src o) ∧
    (∀ o, (answer mb r s).dom o = s.dom o) ∧
    (∀ o, (answer mb r s).can o = s.can o) ∧
    (∀ o, (answer mb r s).region o = s.region o) ∧
    (∀ o, (answer mb r s).child o = s.child o) ∧
    (∀ o, (answer mb r s).feed o = s.feed o) ∧
    (∀ o, (answer mb r s).rail o = s.rail o) := by
  obtain ⟨c, e⟩ := answer_cciSide mb r s
  rw [e]
  exact ⟨fun _ => rfl, fun _ _ _ => rfl, fun _ _ => rfl, fun _ => rfl, fun _ => rfl, fun _ => rfl, fun _ => rfl, fun _ => rfl, fun _ => rfl, fun _ => rfl, fun _ => rfl, fun _ => rfl, fun _ => rfl, fun _ => rfl, fun _ => rfl⟩

/-- The fields `completeMb` leaves alone. -/
@[simp] theorem completeMb_fields (mb : Nat) (st : Status) (res : List Byte) (s : State) :
    (completeMb mb st res s).pending = s.pending ∧
    (completeMb mb st res s).tick = s.tick ∧
    (completeMb mb st res s).freeCtr = s.freeCtr ∧
    (completeMb mb st res s).rdata = s.rdata ∧
    (completeMb mb st res s).variant = s.variant ∧
    (completeMb mb st res s).straps = s.straps ∧
    (completeMb mb st res s).hrs = s.hrs ∧
    (completeMb mb st res s).journal = s.journal ∧
    (completeMb mb st res s).campion = s.campion ∧
    (completeMb mb st res s).warden = s.warden ∧
    (completeMb mb st res s).power = s.power ∧
    (completeMb mb st res s).keeper = s.keeper ∧
    (completeMb mb st res s).boot = s.boot ∧
    (completeMb mb st res s).chicory = s.chicory ∧
    (completeMb mb st res s).ports = s.ports ∧
    (completeMb mb st res s).clover = s.clover ∧
    (completeMb mb st res s).hub = s.hub ∧
    (completeMb mb st res s).strike = s.strike ∧
    (completeMb mb st res s).rescue = s.rescue ∧
    (completeMb mb st res s).devices = s.devices ∧
    (completeMb mb st res s).chans = s.chans ∧
    (completeMb mb st res s).groups = s.groups ∧
    (completeMb mb st res s).policies = s.policies ∧
    (completeMb mb st res s).domain = s.domain ∧
    (completeMb mb st res s).sched = s.sched ∧
    (completeMb mb st res s).cans = s.cans ∧
    (completeMb mb st res s).integ = s.integ ∧
    (completeMb mb st res s).test = s.test ∧
    (completeMb mb st res s).mgmtDown = s.mgmtDown ∧
    (completeMb mb st res s).mgmtWhy = s.mgmtWhy := by
  obtain ⟨c, e⟩ := completeMb_cciSide mb st res s
  rw [e]
  exact ⟨rfl, rfl, rfl, rfl, rfl, rfl, rfl, rfl, rfl, rfl, rfl, rfl, rfl, rfl, rfl, rfl, rfl, rfl, rfl, rfl, rfl, rfl, rfl, rfl, rfl, rfl, rfl, rfl, rfl, rfl⟩

/-- The readings `completeMb` leaves alone. -/
@[simp] theorem completeMb_reads (mb : Nat) (st : Status) (res : List Byte) (s : State) :
    (∀ o, (completeMb mb st res s).reg o = s.reg o) ∧
    (∀ o u w, (completeMb mb st res s).fld o u w = s.fld o u w) ∧
    (∀ o u, (completeMb mb st res s).flag o u = s.flag o u) ∧
    (∀ o, (completeMb mb st res s).port o = s.port o) ∧
    (∀ o, (completeMb mb st res s).chan o = s.chan o) ∧
    (∀ o, (completeMb mb st res s).dev o = s.dev o) ∧
    (∀ o, (completeMb mb st res s).group o = s.group o) ∧
    (∀ o, (completeMb mb st res s).ang o = s.ang o) ∧
    (∀ o, (completeMb mb st res s).src o = s.src o) ∧
    (∀ o, (completeMb mb st res s).dom o = s.dom o) ∧
    (∀ o, (completeMb mb st res s).can o = s.can o) ∧
    (∀ o, (completeMb mb st res s).region o = s.region o) ∧
    (∀ o, (completeMb mb st res s).child o = s.child o) ∧
    (∀ o, (completeMb mb st res s).feed o = s.feed o) ∧
    (∀ o, (completeMb mb st res s).rail o = s.rail o) := by
  obtain ⟨c, e⟩ := completeMb_cciSide mb st res s
  rw [e]
  exact ⟨fun _ => rfl, fun _ _ _ => rfl, fun _ _ => rfl, fun _ => rfl, fun _ => rfl, fun _ => rfl, fun _ => rfl, fun _ => rfl, fun _ => rfl, fun _ => rfl, fun _ => rfl, fun _ => rfl, fun _ => rfl, fun _ => rfl, fun _ => rfl⟩

/-- The fields `completeWhere` leaves alone. -/
@[simp] theorem completeWhere_fields (p : Wait → Bool) (st : Status) (res : List Byte) (s : State) :
    (completeWhere p st res s).pending = s.pending ∧
    (completeWhere p st res s).tick = s.tick ∧
    (completeWhere p st res s).freeCtr = s.freeCtr ∧
    (completeWhere p st res s).rdata = s.rdata ∧
    (completeWhere p st res s).variant = s.variant ∧
    (completeWhere p st res s).straps = s.straps ∧
    (completeWhere p st res s).hrs = s.hrs ∧
    (completeWhere p st res s).journal = s.journal ∧
    (completeWhere p st res s).campion = s.campion ∧
    (completeWhere p st res s).warden = s.warden ∧
    (completeWhere p st res s).power = s.power ∧
    (completeWhere p st res s).keeper = s.keeper ∧
    (completeWhere p st res s).boot = s.boot ∧
    (completeWhere p st res s).chicory = s.chicory ∧
    (completeWhere p st res s).ports = s.ports ∧
    (completeWhere p st res s).clover = s.clover ∧
    (completeWhere p st res s).hub = s.hub ∧
    (completeWhere p st res s).strike = s.strike ∧
    (completeWhere p st res s).rescue = s.rescue ∧
    (completeWhere p st res s).devices = s.devices ∧
    (completeWhere p st res s).chans = s.chans ∧
    (completeWhere p st res s).groups = s.groups ∧
    (completeWhere p st res s).policies = s.policies ∧
    (completeWhere p st res s).domain = s.domain ∧
    (completeWhere p st res s).sched = s.sched ∧
    (completeWhere p st res s).cans = s.cans ∧
    (completeWhere p st res s).integ = s.integ ∧
    (completeWhere p st res s).test = s.test ∧
    (completeWhere p st res s).mgmtDown = s.mgmtDown ∧
    (completeWhere p st res s).mgmtWhy = s.mgmtWhy := by
  obtain ⟨c, e⟩ := completeWhere_cciSide p st res s
  rw [e]
  exact ⟨rfl, rfl, rfl, rfl, rfl, rfl, rfl, rfl, rfl, rfl, rfl, rfl, rfl, rfl, rfl, rfl, rfl, rfl, rfl, rfl, rfl, rfl, rfl, rfl, rfl, rfl, rfl, rfl, rfl, rfl⟩

/-- The readings `completeWhere` leaves alone. -/
@[simp] theorem completeWhere_reads (p : Wait → Bool) (st : Status) (res : List Byte) (s : State) :
    (∀ o, (completeWhere p st res s).reg o = s.reg o) ∧
    (∀ o u w, (completeWhere p st res s).fld o u w = s.fld o u w) ∧
    (∀ o u, (completeWhere p st res s).flag o u = s.flag o u) ∧
    (∀ o, (completeWhere p st res s).port o = s.port o) ∧
    (∀ o, (completeWhere p st res s).chan o = s.chan o) ∧
    (∀ o, (completeWhere p st res s).dev o = s.dev o) ∧
    (∀ o, (completeWhere p st res s).group o = s.group o) ∧
    (∀ o, (completeWhere p st res s).ang o = s.ang o) ∧
    (∀ o, (completeWhere p st res s).src o = s.src o) ∧
    (∀ o, (completeWhere p st res s).dom o = s.dom o) ∧
    (∀ o, (completeWhere p st res s).can o = s.can o) ∧
    (∀ o, (completeWhere p st res s).region o = s.region o) ∧
    (∀ o, (completeWhere p st res s).child o = s.child o) ∧
    (∀ o, (completeWhere p st res s).feed o = s.feed o) ∧
    (∀ o, (completeWhere p st res s).rail o = s.rail o) := by
  obtain ⟨c, e⟩ := completeWhere_cciSide p st res s
  rw [e]
  exact ⟨fun _ => rfl, fun _ _ _ => rfl, fun _ _ => rfl, fun _ => rfl, fun _ => rfl, fun _ => rfl, fun _ => rfl, fun _ => rfl, fun _ => rfl, fun _ => rfl, fun _ => rfl, fun _ => rfl, fun _ => rfl, fun _ => rfl, fun _ => rfl⟩

end Sys2Proof.Machine
end

