-- ==== Sys2Proof/Laws/Ports.lean ====
section
/-!
SUPPORT. What a change of a port's state can change (R146, R172): that port's USB side, the hub's over-current
status, registers and the command interface.
-/

namespace Sys2Proof.Machine

theorem overClear_port (p : Nat) (s : State) (q : Nat) :
    (overClear p s).port q = (s.modUsb p fun u => { u with overCurrent := false }).port q := by
  unfold overClear
  simp only []
  split <;> rfl

theorem overClear_fields (p : Nat) (s : State) :
    (overClear p s).pending = s.pending ∧
    (overClear p s).tick = s.tick ∧
    (overClear p s).freeCtr = s.freeCtr ∧
    (overClear p s).rdata = s.rdata ∧
    (overClear p s).variant = s.variant ∧
    (overClear p s).straps = s.straps ∧
    (overClear p s).journal = s.journal ∧
    (overClear p s).campion = s.campion ∧
    (overClear p s).warden = s.warden ∧
    (overClear p s).power = s.power ∧
    (overClear p s).keeper = s.keeper ∧
    (overClear p s).boot = s.boot ∧
    (overClear p s).chicory = s.chicory ∧
    (overClear p s).clover = s.clover ∧
    (overClear p s).strike = s.strike ∧
    (overClear p s).rescue = s.rescue ∧
    (overClear p s).devices = s.devices ∧
    (overClear p s).chans = s.chans ∧
    (overClear p s).groups = s.groups ∧
    (overClear p s).policies = s.policies ∧
    (overClear p s).domain = s.domain ∧
    (overClear p s).sched = s.sched ∧
    (overClear p s).cans = s.cans ∧
    (overClear p s).integ = s.integ ∧
    (overClear p s).test = s.test ∧
    (overClear p s).mgmtDown = s.mgmtDown ∧
    (overClear p s).mgmtWhy = s.mgmtWhy := by
  unfold overClear
  simp only []
  split <;> exact ⟨rfl, rfl, rfl, rfl, rfl, rfl, rfl, rfl, rfl, rfl, rfl, rfl, rfl, rfl, rfl, rfl, rfl, rfl, rfl, rfl, rfl, rfl, rfl, rfl, rfl, rfl, rfl⟩

/-- The state a port enters. -/
@[simp] theorem setPortState_st (p st cause : Nat) (s : State) :
    ((setPortState p st cause s).port p).usb.st = st := by
  unfold setPortState
  simp only []
  split
  · next h => simpa using h
  · simp only [raiseEvent_reads]
    split
    · simp [overClear_port]
    · simp

/-- Its power side and its contract stay. -/
@[simp] theorem setPortState_pw (p st cause : Nat) (s : State) :
    ((setPortState p st cause s).port p).pw = (s.port p).pw ∧
    ((setPortState p st cause s).port p).pd = (s.port p).pd := by
  unfold setPortState
  simp only []
  split
  · exact ⟨rfl, rfl⟩
  · simp only [raiseEvent_reads]
    split
    · simp [overClear_port]
    · simp

/-- Of its USB side, what is neither state, cause nor over-current stays. -/
theorem setPortState_usb (p st cause : Nat) (s : State) :
    { ((setPortState p st cause s).port p).usb with
      st := (s.port p).usb.st, cause := (s.port p).usb.cause, overCurrent := (s.port p).usb.overCurrent } =
      (s.port p).usb := by
  unfold setPortState
  simp only []
  split
  · rfl
  · simp only [raiseEvent_reads]
    split
    · simp [overClear_port]
    · simp

/-- The same, field by field. -/
@[simp] theorem setPortState_usb_fields (p st cause : Nat) (s : State) :
    ((setPortState p st cause s).port p).usb.speed = (s.port p).usb.speed ∧
    ((setPortState p st cause s).port p).usb.resetting = (s.port p).usb.resetting ∧
    ((setPortState p st cause s).port p).usb.resuming = (s.port p).usb.resuming ∧
    ((setPortState p st cause s).port p).usb.transparent = (s.port p).usb.transparent ∧
    ((setPortState p st cause s).port p).usb.running = (s.port p).usb.running ∧
    ((setPortState p st cause s).port p).usb.ccAtt = (s.port p).usb.ccAtt ∧
    ((setPortState p st cause s).port p).usb.pull = (s.port p).usb.pull ∧
    ((setPortState p st cause s).port p).usb.resetAt = (s.port p).usb.resetAt ∧
    ((setPortState p st cause s).port p).usb.enumerated = (s.port p).usb.enumerated := by
  have h := setPortState_usb p st cause s
  refine ⟨?_, ?_, ?_, ?_, ?_, ?_, ?_, ?_, ?_⟩
  · have k := congrArg PortUsb.speed h
    exact k
  · have k := congrArg PortUsb.resetting h
    exact k
  · have k := congrArg PortUsb.resuming h
    exact k
  · have k := congrArg PortUsb.transparent h
    exact k
  · have k := congrArg PortUsb.running h
    exact k
  · have k := congrArg PortUsb.ccAtt h
    exact k
  · have k := congrArg PortUsb.pull h
    exact k
  · have k := congrArg PortUsb.resetAt h
    exact k
  · have k := congrArg PortUsb.enumerated h
    exact k

/-- The other ports stay. -/
theorem setPortState_port_ne (p st cause : Nat) (s : State) {q : Nat} (h : q ≠ p) :
    (setPortState p st cause s).port q = s.port q := by
  unfold setPortState
  simp only []
  split
  · rfl
  · simp only [raiseEvent_reads]
    split
    · simp [overClear_port, port_modUsb, h]
    · simp [port_modUsb, h]

/-- The fields a change of a port's state leaves alone. -/
@[simp] theorem setPortState_fields (p st cause : Nat) (s : State) :
    (setPortState p st cause s).pending = s.pending ∧
    (setPortState p st cause s).tick = s.tick ∧
    (setPortState p st cause s).freeCtr = s.freeCtr ∧
    (setPortState p st cause s).rdata = s.rdata ∧
    (setPortState p st cause s).variant = s.variant ∧
    (setPortState p st cause s).straps = s.straps ∧
    (setPortState p st cause s).journal = s.journal ∧
    (setPortState p st cause s).campion = s.campion ∧
    (setPortState p st cause s).warden = s.warden ∧
    (setPortState p st cause s).power = s.power ∧
    (setPortState p st cause s).keeper = s.keeper ∧
    (setPortState p st cause s).boot = s.boot ∧
    (setPortState p st cause s).chicory = s.chicory ∧
    (setPortState p st cause s).clover = s.clover ∧
    (setPortState p st cause s).strike = s.strike ∧
    (setPortState p st cause s).rescue = s.rescue ∧
    (setPortState p st cause s).devices = s.devices ∧
    (setPortState p st cause s).chans = s.chans ∧
    (setPortState p st cause s).groups = s.groups ∧
    (setPortState p st cause s).policies = s.policies ∧
    (setPortState p st cause s).domain = s.domain ∧
    (setPortState p st cause s).sched = s.sched ∧
    (setPortState p st cause s).cans = s.cans ∧
    (setPortState p st cause s).integ = s.integ ∧
    (setPortState p st cause s).test = s.test ∧
    (setPortState p st cause s).mgmtDown = s.mgmtDown ∧
    (setPortState p st cause s).mgmtWhy = s.mgmtWhy := by
  unfold setPortState
  simp only []
  split
  · exact ⟨rfl, rfl, rfl, rfl, rfl, rfl, rfl, rfl, rfl, rfl, rfl, rfl, rfl, rfl, rfl, rfl, rfl, rfl, rfl, rfl, rfl, rfl, rfl, rfl, rfl, rfl, rfl⟩
  · simp only [raiseEvent_fields]
    split
    · simp only [overClear_fields, modUsb_fields, and_self]
    · exact ⟨rfl, rfl, rfl, rfl, rfl, rfl, rfl, rfl, rfl, rfl, rfl, rfl, rfl, rfl, rfl, rfl, rfl, rfl, rfl, rfl, rfl, rfl, rfl, rfl, rfl, rfl, rfl⟩

/-- A change bit of a transparent port touches nothing else of the port. -/
@[simp] theorem hubChange_port (p mask : Nat) (s : State) :
    ((hubChange p mask s).port p).usb.st = (s.port p).usb.st ∧
    ((hubChange p mask s).port p).usb.resetting = (s.port p).usb.resetting ∧
    ((hubChange p mask s).port p).usb.resuming = (s.port p).usb.resuming ∧
    ((hubChange p mask s).port p).usb.speed = (s.port p).usb.speed ∧
    ((hubChange p mask s).port p).pw = (s.port p).pw ∧
    ((hubChange p mask s).port p).pd = (s.port p).pd := by
  unfold hubChange
  split <;> simp

end Sys2Proof.Machine
end

