-- ==== Sys2Proof/Laws/Commands.lean ====
section
/-!
SUPPORT. What a catalogue row comes to when the mailbox holds its command ready: the row's own rule, then its answer;
and when a completed command counts as just committed.
-/

namespace Sys2Proof

open Sys2Proof.Machine

/-- A ready command runs its row's rule. -/
theorem Ready.run {mb op : Nat} {r : Req} {s : State} (h : Ready mb op r s) (core : Req → State → CmdRes) :
    runOp mb op core s = .next (finish mb (core r s) s) := by
  obtain ⟨h1, h2, h3, h4, h5, h6, i, h7, h8⟩ := h
  unfold runOp runCmd
  simp only [h1, h2, h3, h6, h7, h8, rescueGate, h4]
  simp

/-- The request of a ready command names its mailbox. -/
theorem Ready.mb_eq {mb op : Nat} {r : Req} {s : State} (h : Ready mb op r s) : r.mb = mb := by
  rw [← h.req]; rfl

/-- A ready command has a target of its scope and a number of parameter bytes its catalogue entry allows. -/
theorem Ready.fits {mb op : Nat} {r : Req} {s : State} (h : Ready mb op r s) {e} (he : opInfo op = some e) :
    targetOk s e r.target = true ∧ e.pmin ≤ r.params.length ∧ r.params.length ≤ e.pmax := by
  obtain ⟨j, hj, hb⟩ := h.shape
  rw [he] at hj
  cases hj
  simp [shapeBad] at hb
  exact ⟨hb.1.1, hb.1.2, hb.2⟩

/-- A ready command may commit. -/
theorem Ready.canCommit {mb op : Nat} {r : Req} {s : State} (h : Ready mb op r s) : s.canCommit = true := by
  unfold State.canCommit
  rw [h.journal]
  rfl

/-- A ready command that commits counts as just committed. -/
theorem Ready.committed {mb op : Nat} {r : Req} {s : State} (h : Ready mb op r s) (res : List Byte) (t : State) :
    justCommitted mb s (finish mb (.commit res t) s) = true := by
  have h1 := h.runnable
  unfold Mailbox.runnable at h1
  simp at h1
  unfold justCommitted finish
  simp only [h.canCommit, if_true]
  simp [h1.1.2, answer]

theorem u8_lt (l : List Byte) (o : Nat) : u8 l o < 256 := BitVec.isLt _

theorem u16_lt (l : List Byte) (o : Nat) : u16 l o < 65536 := by
  have := u8_lt l o
  have := u8_lt l (o + 1)
  unfold u16
  omega

theorem u32_lt (l : List Byte) (o : Nat) : u32 l o < 4294967296 := by
  have := u16_lt l o
  have := u16_lt l (o + 2)
  unfold u32
  omega

theorem Req.e8_lt (r : Req) (o d : Nat) (hd : d < 256) : r.e8 o d < 256 := by
  unfold Req.e8
  split <;> first | exact u8_lt _ _ | exact hd

/-- A wait for an instant that has come changes nothing. -/
theorem waitUntil_now (s : State) (t : Nat) (h : t ≤ s.tick) : s.waitUntil t = s := by
  unfold State.waitUntil
  rw [if_neg (by omega)]

end Sys2Proof
end

