-- ==== Sys2Proof/Laws/KeepBase.lean ====
section
/-!
SUPPORT. What a step keeps: the queue, the part and the lock bits. The relation, its closure lemmas, and the
operations over registers, events and records.
-/

namespace Sys2Proof.Machine

/-- Two states hold the same queue, part and lock bits. -/
def Same (s t : State) : Prop :=
  t.pending = s.pending ∧ t.variant = s.variant ∧ t.hrs.lock0 = s.hrs.lock0 ∧
    t.hrs.portLo = s.hrs.portLo ∧ t.hrs.portHi = s.hrs.portHi

/-- The next state of an outcome holds them as `s` does. -/
structure OutSame (s : State) (o : Out) : Prop where
  out : ∀ t, o = .next t → Same s t

/-- The state an operation answers, if it does. -/
structure OptSame (s : State) (o : Option State) : Prop where
  out : ∀ t, o = some t → Same s t

/-- The same where a value comes with the state. -/
structure OptSame2 {α : Type} (s : State) (o : Option (α × State)) : Prop where
  out : ∀ a t, o = some (a, t) → Same s t

/-- The state a decision brings. -/
structure ResSame (s : State) (r : CmdRes) : Prop where
  noted : ∀ a b t, r = .noted a b t → Same s t
  session : ∀ a t, r = .session a t → Same s t
  commit : ∀ a t, r = .commit a t → Same s t
  wait : ∀ a t, r = .commitWait a t → Same s t
  done : ∀ a b t, r = .commitWith a b t → Same s t

theorem outSame_next {s t : State} (h : Same s t) : OutSame s (.next t) := ⟨fun _ e => by cases e; exact h⟩
theorem outSame_fault {s : State} {f : Fault} (_ : True) : OutSame s (.fault f) := ⟨fun _ e => by cases e⟩
theorem outSame_refused {s : State} {f : Refusal} (_ : True) : OutSame s (.refused f) := ⟨fun _ e => by cases e⟩
theorem optSame_some {s t : State} (h : Same s t) : OptSame s (some t) := ⟨fun _ e => by cases e; exact h⟩
theorem optSame_none {s : State} (_ : True) : OptSame s none := ⟨fun _ e => by cases e⟩
theorem optSame2_some {α : Type} {s t : State} {a : α} (h : Same s t) : OptSame2 s (some (a, t)) :=
  ⟨fun _ _ e => by cases e; exact h⟩
theorem optSame2_none {α : Type} {s : State} (_ : True) : OptSame2 (α := α) s none := ⟨fun _ _ e => by cases e⟩
theorem resSame_refuse {s : State} {a b} (_ : True) : ResSame s (.refuse a b) := by
  constructor <;> intros <;> rename_i e <;> cases e
theorem resSame_query {s : State} {a} (_ : True) : ResSame s (.query a) := by
  constructor <;> intros <;> rename_i e <;> cases e
theorem resSame_noted {s t : State} {a b} (h : Same s t) : ResSame s (.noted a b t) := by
  constructor <;> intros <;> rename_i e <;> cases e <;> exact h
theorem resSame_session {s t : State} {a} (h : Same s t) : ResSame s (.session a t) := by
  constructor <;> intros <;> rename_i e <;> cases e <;> exact h
theorem resSame_commit {s t : State} {a} (h : Same s t) : ResSame s (.commit a t) := by
  constructor <;> intros <;> rename_i e <;> cases e <;> exact h
theorem resSame_commitWait {s t : State} {a} (h : Same s t) : ResSame s (.commitWait a t) := by
  constructor <;> intros <;> rename_i e <;> cases e <;> exact h
theorem resSame_commitWith {s t : State} {a b} (h : Same s t) : ResSame s (.commitWith a b t) := by
  constructor <;> intros <;> rename_i e <;> cases e <;> exact h

theorem resSame_ite {s : State} {c : Prop} [Decidable c] {a b : CmdRes} (h : ResSame s a) (k : ResSame s b) :
    ResSame s (if c then a else b) := by split <;> assumption

theorem Same.refl (s : State) : Same s s := ⟨rfl, rfl, rfl, rfl, rfl⟩
theorem Same.trans {s t u : State} (h : Same s t) (k : Same t u) : Same s u := by
  obtain ⟨a, b, c, d, e⟩ := h; obtain ⟨a', b', c', d', e'⟩ := k
  exact ⟨a'.trans a, b'.trans b, c'.trans c, d'.trans d, e'.trans e⟩

theorem same_ite {s a b : State} {c : Prop} [Decidable c] (h : Same s a) (k : Same s b) :
    Same s (if c then a else b) := by split <;> assumption

theorem foldl_same {α : Type} (g : State → α → State) (l : List α) {s s0 : State} (h0 : Same s0 s)
    (h : ∀ s x, Same s (g s x)) : Same s0 (l.foldl g s) := by
  induction l generalizing s with
  | nil => exact h0
  | cons x t ih => exact ih (h0.trans (h s x))

theorem foldl_same2 {α β : Type} (g : β × State → α → β × State) (l : List α) {s : β × State} {s0 : State}
    (h0 : Same s0 s.2) (h : ∀ s x, Same s.2 (g s x).2) : Same s0 (l.foldl g s).2 := by
  induction l generalizing s with
  | nil => exact h0
  | cons x t ih => exact ih (h0.trans (h s x))

theorem foldr_same {α : Type} (g : α → State → State) (l : List α) {s s0 : State} (h0 : Same s0 s)
    (h : ∀ x s, Same s (g x s)) : Same s0 (l.foldr g s) := by
  induction l with
  | nil => exact h0
  | cons x t ih => exact ih.trans (h x _)

theorem same_seq {s t : State} (v : State) (h : Same s v) (k : Same s v → Same s t) : Same s t := k h

theorem optSame_out {o : Option State} {s t : State} (e : o = some t) (h : OptSame s o) : Same s t := h.out t e
theorem optSame2_out {α : Type} {o : Option (α × State)} {s t : State} {a : α} (e : o = some (a, t))
    (h : OptSame2 s o) : Same s t := h.out a t e
theorem optSame_trans {o : Option State} {s s0 : State} (h : Same s0 s) (k : OptSame s o) : OptSame s0 o :=
  ⟨fun t e => h.trans (k.out t e)⟩
theorem optSame2_trans {α : Type} {o : Option (α × State)} {s s0 : State} (h : Same s0 s) (k : OptSame2 s o) :
    OptSame2 s0 o := ⟨fun a t e => h.trans (k.out a t e)⟩
theorem optSame_getD {o : Option State} {s s0 : State} (h : Same s0 s) (k : OptSame s0 o) : Same s0 (o.getD s) := by
  cases o with
  | none => exact h
  | some t => exact k.out t rfl

theorem optSame_map {α : Type} {o : Option α} {s : State} {f : α → State} (h : ∀ a, Same s (f a)) :
    OptSame s (o.map f) := by
  cases o with
  | none => exact optSame_none trivial
  | some t => exact optSame_some (h t)

theorem seq_same {P : Prop} (s v : State) (h : Same s v) (k : Same s v → P) : P := k h

theorem same_mk {s t : State} {x_tick : Nat} {x_freeCtr : Nat} {x_rdata : List Byte} {x_straps : Straps} {x_hrs : Hrs} {x_cci : Cci} {x_journal : Journal} {x_campion : Campion} {x_warden : Warden} {x_power : PowerCtl} {x_keeper : Keeper} {x_boot : Boot} {x_chicory : Chicory} {x_ports : Tbl PortSt} {x_clover : Clover} {x_hub : HubFn} {x_strike : Strike} {x_rescue : Rescue} {x_devices : Tbl Device} {x_chans : Tbl Chan} {x_groups : Tbl Group} {x_policies : Tbl Nat} {x_domain : Domains} {x_sched : Sched} {x_cans : Tbl CanCtl} {x_integ : Integ} {x_test : TestSt} {x_mgmtDown : Option Nat} {x_mgmtWhy : Nat}
    (h : Same s t) (h1 : x_hrs.lock0 = t.hrs.lock0) (h2 : x_hrs.portLo = t.hrs.portLo)
    (h3 : x_hrs.portHi = t.hrs.portHi) : Same s (State.mk t.pending x_tick x_freeCtr x_rdata t.variant x_straps x_hrs x_cci x_journal x_campion x_warden x_power x_keeper x_boot x_chicory x_ports x_clover x_hub x_strike x_rescue x_devices x_chans x_groups x_policies x_domain x_sched x_cans x_integ x_test x_mgmtDown x_mgmtWhy) :=
  h.trans ⟨rfl, rfl, h1, h2, h3⟩

theorem State.setMb_same (s : State) (n : Nat) (m : Mailbox) {s0 : State} (h0 : Same s0 s) : Same s0 (State.setMb s n m) := by
  refine h0.trans ?_; clear h0 s0
  unfold State.setMb
  repeat' first
    | with_reducible first
      | assumption
      | exact Same.refl _
    | (with_reducible apply same_mk; rotate_left; rfl; rfl; rfl)

theorem State.setPort_same (s : State) (p : Nat) (x : PortSt) {s0 : State} (h0 : Same s0 s) : Same s0 (State.setPort s p x) := by
  refine h0.trans ?_; clear h0 s0
  unfold State.setPort
  repeat' first
    | with_reducible first
      | assumption
      | exact Same.refl _
    | (with_reducible apply same_mk; rotate_left; rfl; rfl; rfl)

theorem State.modPort_same (s : State) (p : Nat) (f : PortSt → PortSt) {s0 : State} (h0 : Same s0 s) : Same s0 (State.modPort s p f) := by
  refine h0.trans ?_; clear h0 s0
  unfold State.modPort
  repeat' first
    | with_reducible first
      | assumption
      | exact Same.refl _
      | apply State.setPort_same

theorem State.modUsb_same (s : State) (p : Nat) (f : PortUsb → PortUsb) {s0 : State} (h0 : Same s0 s) : Same s0 (State.modUsb s p f) := by
  refine h0.trans ?_; clear h0 s0
  unfold State.modUsb
  repeat' first
    | with_reducible first
      | assumption
      | exact Same.refl _
      | apply State.modPort_same

theorem State.modPw_same (s : State) (p : Nat) (f : PortPower → PortPower) {s0 : State} (h0 : Same s0 s) : Same s0 (State.modPw s p f) := by
  refine h0.trans ?_; clear h0 s0
  unfold State.modPw
  repeat' first
    | with_reducible first
      | assumption
      | exact Same.refl _
      | apply State.modPort_same

theorem State.modPd_same (s : State) (p : Nat) (f : PortPd → PortPd) {s0 : State} (h0 : Same s0 s) : Same s0 (State.modPd s p f) := by
  refine h0.trans ?_; clear h0 s0
  unfold State.modPd
  repeat' first
    | with_reducible first
      | assumption
      | exact Same.refl _
      | apply State.modPort_same

theorem State.setChan_same (s : State) (n : Nat) (c : Chan) {s0 : State} (h0 : Same s0 s) : Same s0 (State.setChan s n c) := by
  refine h0.trans ?_; clear h0 s0
  unfold State.setChan
  repeat' first
    | with_reducible first
      | assumption
      | exact Same.refl _
    | (with_reducible apply same_mk; rotate_left; rfl; rfl; rfl)

theorem State.modChan_same (s : State) (n : Nat) (f : Chan → Chan) {s0 : State} (h0 : Same s0 s) : Same s0 (State.modChan s n f) := by
  refine h0.trans ?_; clear h0 s0
  unfold State.modChan
  repeat' first
    | with_reducible first
      | assumption
      | exact Same.refl _
      | apply State.setChan_same

theorem State.setDev_same (s : State) (n : Nat) (d : Device) {s0 : State} (h0 : Same s0 s) : Same s0 (State.setDev s n d) := by
  refine h0.trans ?_; clear h0 s0
  unfold State.setDev
  repeat' first
    | with_reducible first
      | assumption
      | exact Same.refl _
    | (with_reducible apply same_mk; rotate_left; rfl; rfl; rfl)

theorem State.setGroup_same (s : State) (n : Nat) (g : Group) {s0 : State} (h0 : Same s0 s) : Same s0 (State.setGroup s n g) := by
  refine h0.trans ?_; clear h0 s0
  unfold State.setGroup
  repeat' first
    | with_reducible first
      | assumption
      | exact Same.refl _
    | (with_reducible apply same_mk; rotate_left; rfl; rfl; rfl)

theorem State.setAng_same (s : State) (k : Nat) (a : Ang) {s0 : State} (h0 : Same s0 s) : Same s0 (State.setAng s k a) := by
  refine h0.trans ?_; clear h0 s0
  unfold State.setAng
  repeat' first
    | with_reducible first
      | assumption
      | exact Same.refl _
    | (with_reducible apply same_mk; rotate_left; rfl; rfl; rfl)

theorem State.setSrc_same (s : State) (n : Nat) (f : FaultSrc) {s0 : State} (h0 : Same s0 s) : Same s0 (State.setSrc s n f) := by
  refine h0.trans ?_; clear h0 s0
  unfold State.setSrc
  repeat' first
    | with_reducible first
      | assumption
      | exact Same.refl _
    | (with_reducible apply same_mk; rotate_left; rfl; rfl; rfl)

theorem State.setDom_same (s : State) (d : Nat) (x : Domain) {s0 : State} (h0 : Same s0 s) : Same s0 (State.setDom s d x) := by
  refine h0.trans ?_; clear h0 s0
  unfold State.setDom
  repeat' first
    | with_reducible first
      | assumption
      | exact Same.refl _
    | (with_reducible apply same_mk; rotate_left; rfl; rfl; rfl)

theorem State.setCan_same (s : State) (c : Nat) (x : CanCtl) {s0 : State} (h0 : Same s0 s) : Same s0 (State.setCan s c x) := by
  refine h0.trans ?_; clear h0 s0
  unfold State.setCan
  repeat' first
    | with_reducible first
      | assumption
      | exact Same.refl _
    | (with_reducible apply same_mk; rotate_left; rfl; rfl; rfl)

theorem State.setRegion_same (s : State) (r : Nat) (x : Region) {s0 : State} (h0 : Same s0 s) : Same s0 (State.setRegion s r x) := by
  refine h0.trans ?_; clear h0 s0
  unfold State.setRegion
  repeat' first
    | with_reducible first
      | assumption
      | exact Same.refl _
    | (with_reducible apply same_mk; rotate_left; rfl; rfl; rfl)

theorem State.setChild_same (s : State) (c : Nat) (x : Child) {s0 : State} (h0 : Same s0 s) : Same s0 (State.setChild s c x) := by
  refine h0.trans ?_; clear h0 s0
  unfold State.setChild
  repeat' first
    | with_reducible first
      | assumption
      | exact Same.refl _
    | (with_reducible apply same_mk; rotate_left; rfl; rfl; rfl)

theorem State.setFeed_same (s : State) (f : Nat) (x : Feed) {s0 : State} (h0 : Same s0 s) : Same s0 (State.setFeed s f x) := by
  refine h0.trans ?_; clear h0 s0
  unfold State.setFeed
  repeat' first
    | with_reducible first
      | assumption
      | exact Same.refl _
    | (with_reducible apply same_mk; rotate_left; rfl; rfl; rfl)

theorem State.setRail_same (s : State) (r : Nat) (x : Rail) {s0 : State} (h0 : Same s0 s) : Same s0 (State.setRail s r x) := by
  refine h0.trans ?_; clear h0 s0
  unfold State.setRail
  repeat' first
    | with_reducible first
      | assumption
      | exact Same.refl _
    | (with_reducible apply same_mk; rotate_left; rfl; rfl; rfl)

theorem State.drawn_same (s : State) {s0 : State} (h0 : Same s0 s) : Same s0 (State.drawn s) := by
  refine h0.trans ?_; clear h0 s0
  unfold State.drawn
  repeat' first
    | with_reducible first
      | assumption
      | exact Same.refl _
    | (with_reducible apply same_mk; rotate_left; rfl; rfl; rfl)

theorem writeLine_same (r : Nat) (p : Nat) (line : Nat) (s : State) {s0 : State} (h0 : Same s0 s) : Same s0 (writeLine r p line s) := by
  refine h0.trans ?_; clear h0 s0
  unfold writeLine
  repeat' first
    | with_reducible first
      | assumption
      | exact Same.refl _
    | (with_reducible apply same_mk; rotate_left; rfl; rfl; rfl)

theorem clearLines_same (r : Nat) (p : Nat) (n : Nat) (s : State) {s0 : State} (h0 : Same s0 s) : Same s0 (clearLines r p n s) := by
  refine h0.trans ?_; clear h0 s0
  unfold clearLines
  repeat' first
    | with_reducible first
      | assumption
      | exact Same.refl _
      | (intro v)
      | (lift_lets; intro v)
    | (with_reducible apply same_mk; rotate_left; rfl; rfl; rfl)

theorem unpoison_same (c : Chan) (s : State) {s0 : State} (h0 : Same s0 s) : Same s0 (unpoison c s) := by
  refine h0.trans ?_; clear h0 s0
  unfold unpoison
  repeat' first
    | with_reducible first
      | assumption
      | exact Same.refl _
    | split
    | (with_reducible apply same_mk; rotate_left; rfl; rfl; rfl)

theorem allocPages_same (r : Nat) (p : Nat) (n : Nat) (s : State) {s0 : State} (h0 : Same s0 s) : Same s0 (allocPages r p n s) := by
  refine h0.trans ?_; clear h0 s0
  unfold allocPages
  repeat' first
    | with_reducible first
      | assumption
      | exact Same.refl _
      | (intro v)
      | (lift_lets; intro v; refine same_seq v ?_ fun hv => ?_; unfold v)
      | apply State.setRegion_same
      | apply clearLines_same
    | split
    | (with_reducible apply same_mk; rotate_left; rfl; rfl; rfl)

theorem allocRun_same (sp : Nat) (held : List (Nat × Nat)) (e : Nat × Nat) (s : State) {s0 : State} (h0 : Same s0 s) : Same s0 (allocRun sp held e s) := by
  refine h0.trans ?_; clear h0 s0
  unfold allocRun
  repeat' first
    | with_reducible first
      | assumption
      | exact Same.refl _
      | (intro v)
      | (lift_lets; intro v)
      | apply allocPages_same
      | (apply foldl_same; rotate_left; intro _ _)
    | split

theorem allocChan_same (slot : Nat) (need : List (Nat × Nat)) (s : State) {s0 : State} (h0 : Same s0 s) : Same s0 (allocChan slot need s) := by
  refine h0.trans ?_; clear h0 s0
  unfold allocChan
  repeat' first
    | with_reducible first
      | assumption
      | exact Same.refl _
      | (intro v)
      | (lift_lets; intro v)
      | apply State.modChan_same
      | apply allocRun_same
      | (apply foldl_same; rotate_left; intro _ _)

theorem writeUnit_same (slot : Nat) (sp : Nat) (line : Nat) (s : State) {s0 : State} (h0 : Same s0 s) : Same s0 (writeUnit slot sp line s) := by
  refine h0.trans ?_; clear h0 s0
  unfold writeUnit
  repeat' first
    | with_reducible first
      | assumption
      | exact Same.refl _
      | (intro v)
      | (lift_lets; intro v)
      | apply writeLine_same
    | split

theorem writeMem_same (slot : Nat) (sp : Nat) (offset : Nat) (len : Nat) (s : State) {s0 : State} (h0 : Same s0 s) : Same s0 (writeMem slot sp offset len s) := by
  refine h0.trans ?_; clear h0 s0
  unfold writeMem
  repeat' first
    | with_reducible first
      | assumption
      | exact Same.refl _
      | apply writeUnit_same
      | (apply foldl_same; rotate_left; intro _ _)
    | split

theorem State.setReg_same (s : State) (off : Nat) (v : Nat) {s0 : State} (h0 : Same s0 s) : Same s0 (State.setReg s off v) := by
  refine h0.trans ?_; clear h0 s0
  unfold State.setReg
  repeat' first
    | with_reducible first
      | assumption
      | exact Same.refl _
      | (intro v)
      | (lift_lets; intro v)
    | split
    | (with_reducible apply same_mk; rotate_left; rfl; rfl; rfl)

theorem State.setFld_same (s : State) (off : Nat) (hi : Nat) (lo : Nat) (v : Nat) {s0 : State} (h0 : Same s0 s) : Same s0 (State.setFld s off hi lo v) := by
  refine h0.trans ?_; clear h0 s0
  unfold State.setFld
  repeat' first
    | with_reducible first
      | assumption
      | exact Same.refl _
      | (intro v)
      | (lift_lets; intro v)
      | apply State.setReg_same

theorem State.setFlag_same (s : State) (off : Nat) (i : Nat) {s0 : State} (h0 : Same s0 s) : Same s0 (State.setFlag s off i) := by
  refine h0.trans ?_; clear h0 s0
  unfold State.setFlag
  repeat' first
    | with_reducible first
      | assumption
      | exact Same.refl _
      | apply State.setFld_same

theorem State.clrFlag_same (s : State) (off : Nat) (i : Nat) {s0 : State} (h0 : Same s0 s) : Same s0 (State.clrFlag s off i) := by
  refine h0.trans ?_; clear h0 s0
  unfold State.clrFlag
  repeat' first
    | with_reducible first
      | assumption
      | exact Same.refl _
      | apply State.setFld_same

theorem State.incFld_same (s : State) (off : Nat) (hi : Nat) (lo : Nat) {s0 : State} (h0 : Same s0 s) : Same s0 (State.incFld s off hi lo) := by
  refine h0.trans ?_; clear h0 s0
  unfold State.incFld
  repeat' first
    | with_reducible first
      | assumption
      | exact Same.refl _
      | apply State.setFld_same

theorem State.evqLevel_same (s : State) {s0 : State} (h0 : Same s0 s) : Same s0 (State.evqLevel s) := by
  refine h0.trans ?_; clear h0 s0
  unfold State.evqLevel
  repeat' first
    | with_reducible first
      | assumption
      | exact Same.refl _
    | (with_reducible apply same_mk; rotate_left; rfl; rfl; rfl)

theorem raiseEvent_same (ev : Nat) (code : Nat) (detail : List Byte) (s : State) {s0 : State} (h0 : Same s0 s) : Same s0 (raiseEvent ev code detail s) := by
  refine h0.trans ?_; clear h0 s0
  unfold raiseEvent
  repeat' first
    | with_reducible first
      | assumption
      | exact Same.refl _
      | (intro v; refine same_seq v ?_ fun hv => ?_; unfold v)
      | (intro v)
      | (lift_lets; intro v)
      | apply State.evqLevel_same
      | apply State.incFld_same
      | apply State.setFlag_same
    | split
    | (with_reducible apply same_mk; rotate_left; rfl; rfl; rfl)

theorem creditEvent_same (n : Nat) (s : State) {s0 : State} (h0 : Same s0 s) : Same s0 (creditEvent n s) := by
  refine h0.trans ?_; clear h0 s0
  unfold creditEvent
  repeat' first
    | with_reducible first
      | assumption
      | exact Same.refl _
      | apply raiseEvent_same

theorem creditEvents_same (n : Nat) (s : State) {s0 : State} (h0 : Same s0 s) : Same s0 (creditEvents n s) := by
  refine h0.trans ?_; clear h0 s0
  unfold creditEvents
  repeat' first
    | with_reducible first
      | assumption
      | exact Same.refl _
      | apply creditEvent_same
      | (apply foldl_same; rotate_left; intro _ _)

theorem commitCredits_same (mb : Nat) (s : State) {s0 : State} (h0 : Same s0 s) : Same s0 (commitCredits mb s) := by
  refine h0.trans ?_; clear h0 s0
  unfold commitCredits
  repeat' first
    | with_reducible first
      | assumption
      | exact Same.refl _
      | (intro v)
      | (lift_lets; intro v)
      | apply State.setMb_same
      | apply creditEvents_same
    | split

theorem logCommit_same (mb : Nat) (cseq : Nat) (r : Option Resp) (s : State) {s0 : State} (h0 : Same s0 s) : Same s0 (logCommit mb cseq r s) := by
  refine h0.trans ?_; clear h0 s0
  unfold logCommit
  repeat' first
    | with_reducible first
      | assumption
      | exact Same.refl _
      | (intro v)
      | (lift_lets; intro v)
    | split
    | (with_reducible apply same_mk; rotate_left; rfl; rfl; rfl)

theorem answer_same (mb : Nat) (r : Resp) (s : State) {s0 : State} (h0 : Same s0 s) : Same s0 (answer mb r s) := by
  refine h0.trans ?_; clear h0 s0
  unfold answer
  repeat' first
    | with_reducible first
      | assumption
      | exact Same.refl _
      | apply State.setMb_same

theorem answerWaiters_same (cseq : Nat) (r : Resp) (s : State) {s0 : State} (h0 : Same s0 s) : Same s0 (answerWaiters cseq r s) := by
  refine h0.trans ?_; clear h0 s0
  unfold answerWaiters
  repeat' first
    | with_reducible first
      | assumption
      | exact Same.refl _
      | (intro v)
      | (lift_lets; intro v)
      | apply answer_same
      | (apply foldl_same; rotate_left; intro _ _)
    | split

theorem completeMb_same (mb : Nat) (st : Status) (results : List Byte) (s : State) {s0 : State} (h0 : Same s0 s) : Same s0 (completeMb mb st results s) := by
  refine h0.trans ?_; clear h0 s0
  unfold completeMb
  repeat' first
    | with_reducible first
      | assumption
      | exact Same.refl _
      | (intro v; refine same_seq v ?_ fun hv => ?_; unfold v)
      | (intro v)
      | (lift_lets; intro v)
      | apply answer_same
      | apply answerWaiters_same
    | split
    | (with_reducible apply same_mk; rotate_left; rfl; rfl; rfl)

theorem completeWhere_same (p : Wait → Bool) (st : Status) (results : List Byte) (s : State) {s0 : State} (h0 : Same s0 s) : Same s0 (completeWhere p st results s) := by
  refine h0.trans ?_; clear h0 s0
  unfold completeWhere
  repeat' first
    | with_reducible first
      | assumption
      | exact Same.refl _
      | (intro v)
      | (lift_lets; intro v)
      | apply completeMb_same
      | (apply foldl_same; rotate_left; intro _ _)
    | split

theorem finish_same (mb : Nat) (r : CmdRes) (s : State) (h : ResSame s r) : Same s (finish mb r s) := by
  have k (o : Option Resp) {t : State} (ht : Same s t) : Same s (commitCredits mb (logCommit mb (s.mb mb).cseq o t)) :=
    commitCredits_same _ _ (logCommit_same _ _ _ _ ht)
  cases r <;> unfold finish <;> dsimp only
  case refuse => exact answer_same _ _ s (Same.refl s)
  case query => exact answer_same _ _ s (Same.refl s)
  case noted => exact answer_same _ _ _ (h.noted _ _ _ rfl)
  case session => exact answer_same _ _ _ (h.session _ _ rfl)
  all_goals split
  any_goals exact Same.refl s
  case commit.isTrue => exact answer_same _ _ _ (k _ (h.commit _ _ rfl))
  case commitWith.isTrue => exact answer_same _ _ _ (k _ (h.done _ _ _ rfl))
  case commitWait.isTrue => exact State.setMb_same _ _ _ (k _ (h.wait _ _ rfl))

theorem runCmd_same (mb : Nat) (op : Nat) (core : Req → State → CmdRes) (s : State)
    (h : ∀ r, ResSame s (core r s)) : OutSame s (runCmd mb op core s) := by
  unfold runCmd
  dsimp only
  split
  · exact outSame_next (finish_same _ _ _ (h _))
  · exact outSame_next (Same.refl s)

theorem rescueGate_same (op : Nat) (r : Req) (s : State) (c : CmdRes) (h : ResSame s c) :
    ResSame s (rescueGate op r s c) := by
  unfold rescueGate
  (repeat' split) <;> first | exact h | exact resSame_refuse trivial

theorem runOp_same (mb : Nat) (op : Nat) (core : Req → State → CmdRes) (s : State)
    (h : ∀ r, ResSame s (core r s)) : OutSame s (runOp mb op core s) := by
  refine runCmd_same _ _ _ _ fun r => ?_
  (repeat' split) <;> first | exact resSame_refuse trivial | exact rescueGate_same _ _ _ _ (h _)

theorem groupEvent_same (g : Nat) (code : Nat) (detail : List Byte) (s : State) {s0 : State} (h0 : Same s0 s) : Same s0 (groupEvent g code detail s) := by
  refine h0.trans ?_; clear h0 s0
  unfold groupEvent
  repeat' first
    | with_reducible first
      | assumption
      | exact Same.refl _
      | apply raiseEvent_same

theorem State.rqLevel_same (s : State) {s0 : State} (h0 : Same s0 s) : Same s0 (State.rqLevel s) := by
  refine h0.trans ?_; clear h0 s0
  unfold State.rqLevel
  repeat' first
    | with_reducible first
      | assumption
      | exact Same.refl _
    | (with_reducible apply same_mk; rotate_left; rfl; rfl; rfl)

theorem fillRing_same (n : Nat) {s0 : State} (s : State) (h0 : Same s0 s) : Same s0 (fillRing n s) := by
  induction n generalizing s with
  | zero => exact h0
  | succ n ih =>
    unfold fillRing
    (repeat' split) <;> first
      | exact h0
      | exact ih _ (h0.trans ⟨rfl, rfl, rfl, rfl, rfl⟩)

theorem State.refill_same (s : State) {s0 : State} (h0 : Same s0 s) : Same s0 (State.refill s) := by
  refine h0.trans ?_; clear h0 s0
  unfold State.refill
  repeat' first
    | with_reducible first
      | assumption
      | exact Same.refl _
      | apply State.rqLevel_same
      | apply fillRing_same

theorem skipTarget_same (slot : Nat) (target : Nat) (s : State) {s0 : State} (h0 : Same s0 s) : Same s0 (skipTarget slot target s) := by
  refine h0.trans ?_; clear h0 s0
  unfold skipTarget
  repeat' first
    | with_reducible first
      | assumption
      | exact Same.refl _
      | apply State.modChan_same

theorem abandonAt_same (d : Nat) (src : Nat) (s : State) {s0 : State} (h0 : Same s0 s) : Same s0 (abandonAt d src s) := by
  refine h0.trans ?_; clear h0 s0
  unfold abandonAt
  dsimp only
  split
  · exact Same.refl _
  · exact completeWhere_same _ _ _ _ (raiseEvent_same _ _ _ _ (State.setDom_same _ _ _ (Same.refl _)))

theorem wakeFrom_same (d : Nat) (src : Nat) (at_ : Nat) (s : State) {s0 : State} (h0 : Same s0 s) : Same s0 (wakeFrom d src at_ s) := by
  refine h0.trans ?_; clear h0 s0
  unfold wakeFrom
  repeat' first
    | with_reducible first
      | assumption
      | exact Same.refl _
      | (intro v)
      | (lift_lets; intro v)
      | apply State.setDom_same

theorem memDemand_same (d : Nat) (s : State) {s0 : State} (h0 : Same s0 s) : Same s0 (memDemand d s) := by
  refine h0.trans ?_; clear h0 s0
  unfold memDemand
  repeat' first
    | with_reducible first
      | assumption
      | exact Same.refl _
      | (intro v; refine same_seq v ?_ fun hv => ?_; unfold v)
      | (intro v)
      | (lift_lets; intro v)
      | apply State.setDom_same
      | apply abandonAt_same
      | apply wakeFrom_same
    | split

theorem storeMem_same (slot : Nat) (sp : Nat) (offset : Nat) (len : Nat) (s : State) {s0 : State} (h0 : Same s0 s) : Same s0 (storeMem slot sp offset len s) := by
  refine h0.trans ?_; clear h0 s0
  unfold storeMem
  repeat' first
    | with_reducible first
      | assumption
      | exact Same.refl _
      | apply memDemand_same
      | apply writeMem_same
      | (apply foldl_same; rotate_left; intro _ _)
    | split

theorem writeHistory_same (slot : Nat) (r : Rec) (s : State) {s0 : State} (h0 : Same s0 s) : Same s0 (writeHistory slot r s) := by
  refine h0.trans ?_; clear h0 s0
  unfold writeHistory
  repeat' first
    | with_reducible first
      | assumption
      | exact Same.refl _
      | (intro v; refine same_seq v ?_ fun hv => ?_; unfold v)
      | (intro v)
      | (lift_lets; intro v)
      | apply State.modChan_same
      | apply storeMem_same
    | split

theorem commitPlain_same (slot : Nat) (r : Rec) (s : State) {s0 : State} (h0 : Same s0 s) : Same s0 (commitPlain slot r s) := by
  refine h0.trans ?_; clear h0 s0
  unfold commitPlain
  repeat' first
    | with_reducible first
      | assumption
      | exact Same.refl _
      | (intro v; refine same_seq v ?_ fun hv => ?_; unfold v)
      | (intro v)
      | (lift_lets; intro v)
      | apply State.refill_same
      | apply State.setChan_same
      | apply writeHistory_same
    | split
    | (with_reducible apply same_mk; rotate_left; rfl; rfl; rfl)

theorem windowSkip_same (slot : Nat) (target : Nat) (s : State) {s0 : State} (h0 : Same s0 s) : Same s0 (windowSkip slot target s) := by
  refine h0.trans ?_; clear h0 s0
  unfold windowSkip
  repeat' first
    | with_reducible first
      | assumption
      | exact Same.refl _
      | (intro v; refine same_seq v ?_ fun hv => ?_; unfold v)
      | (intro v)
      | (lift_lets; intro v)
      | apply State.modChan_same
      | apply groupEvent_same
      | apply skipTarget_same
    | split

theorem commitRec_same (slot : Nat) (r : Rec) (target : Nat) (s : State) {s0 : State} (h0 : Same s0 s) : Same s0 (commitRec slot r target s) := by
  refine h0.trans ?_; clear h0 s0
  unfold commitRec
  repeat' first
    | with_reducible first
      | assumption
      | exact Same.refl _
      | (intro v)
      | (lift_lets; intro v)
      | apply State.setChan_same
      | apply commitPlain_same
      | apply skipTarget_same
      | apply windowSkip_same
    | split

theorem missRec_same (slot : Nat) (cause : Nat) (target : Nat) (s : State) {s0 : State} (h0 : Same s0 s) : Same s0 (missRec slot cause target s) := by
  refine h0.trans ?_; clear h0 s0
  unfold missRec
  repeat' first
    | with_reducible first
      | assumption
      | exact Same.refl _
      | (intro v; refine same_seq v ?_ fun hv => ?_; unfold v)
      | (intro v)
      | (lift_lets; intro v)
      | apply State.modChan_same
      | apply State.setChan_same
      | apply commitRec_same
    | split

theorem settlePassed_same (slot : Nat) (s : State) {s0 : State} (h0 : Same s0 s) : Same s0 (settlePassed slot s) := by
  refine h0.trans ?_; clear h0 s0
  unfold settlePassed
  repeat' first
    | with_reducible first
      | assumption
      | exact Same.refl _
      | (intro v; refine same_seq v ?_ fun hv => ?_; unfold v)
      | (intro v)
      | (lift_lets; intro v)
      | apply State.setChan_same
      | apply missRec_same
      | (apply foldl_same; rotate_left; intro _ _)
    | split

theorem anchorAt_same (tb : Nat) (aflags : Nat) (cycle : Nat) (angle : Nat) (ns : Nat) (s : State) {s0 : State} (h0 : Same s0 s) : Same s0 (anchorAt tb aflags cycle angle ns s) := by
  refine h0.trans ?_; clear h0 s0
  unfold anchorAt
  repeat' first
    | with_reducible first
      | assumption
      | exact Same.refl _
      | apply commitRec_same
    | split

theorem anchor_same (tb : Nat) (aflags : Nat) (s : State) {s0 : State} (h0 : Same s0 s) : Same s0 (anchor tb aflags s) := by
  refine h0.trans ?_; clear h0 s0
  unfold anchor
  repeat' first
    | with_reducible first
      | assumption
      | exact Same.refl _
      | apply anchorAt_same
    | split

theorem State.clocks_same (s : State) (n : Nat) {s0 : State} (h0 : Same s0 s) : Same s0 (State.clocks s n) := by
  refine h0.trans ?_; clear h0 s0
  unfold State.clocks
  repeat' first
    | with_reducible first
      | assumption
      | exact Same.refl _
      | (intro v)
      | (lift_lets; intro v)
    | (with_reducible apply same_mk; rotate_left; rfl; rfl; rfl)

theorem cycleAnchors_same (old : State ) (s : State) {s0 : State} (h0 : Same s0 s) : Same s0 (cycleAnchors old s) := by
  refine h0.trans ?_; clear h0 s0
  unfold cycleAnchors
  repeat' first
    | with_reducible first
      | assumption
      | exact Same.refl _
      | apply anchorAt_same
      | (apply foldl_same; rotate_left; intro _ _)

theorem linkOut_same (old : State ) (s : State) {s0 : State} (h0 : Same s0 s) : Same s0 (linkOut old s) := by
  refine h0.trans ?_; clear h0 s0
  unfold linkOut
  repeat' first
    | with_reducible first
      | assumption
      | exact Same.refl _
      | (intro v)
      | (lift_lets; intro v)
    | split
    | (with_reducible apply same_mk; rotate_left; rfl; rfl; rfl)

theorem State.breakers_same (s : State) (n : Nat) {s0 : State} (h0 : Same s0 s) : Same s0 (State.breakers s n) := by
  refine h0.trans ?_; clear h0 s0
  unfold State.breakers
  repeat' first
    | with_reducible first
      | assumption
      | exact Same.refl _
      | (intro v)
      | (lift_lets; intro v)
    | split
    | (with_reducible apply same_mk; rotate_left; rfl; rfl; rfl)

theorem State.elapse_same (n : Nat) (s : State) {s0 : State} (h0 : Same s0 s) : Same s0 (State.elapse n s) := by
  refine h0.trans ?_; clear h0 s0
  unfold State.elapse
  repeat' first
    | with_reducible first
      | assumption
      | exact Same.refl _
      | apply State.breakers_same
      | apply State.clocks_same
      | apply cycleAnchors_same
      | apply linkOut_same

theorem State.waitUntil_same (t : Nat) (s : State) {s0 : State} (h0 : Same s0 s) : Same s0 (State.waitUntil t s) := by
  refine h0.trans ?_; clear h0 s0
  unfold State.waitUntil
  repeat' first
    | with_reducible first
      | assumption
      | exact Same.refl _
      | apply State.elapse_same
    | split

theorem State.reach_same (tb : Nat) (target : Nat) (s : State) {s0 : State} (h0 : Same s0 s) : OptSame s0 (State.reach tb target s) := by
  refine optSame_trans h0 ?_; clear h0 s0
  unfold State.reach
  repeat' first
    | with_reducible first
      | assumption
      | exact Same.refl _
      | exact optSame_none trivial
      | apply optSame_some
      | (intro v)
      | (lift_lets; intro v; refine seq_same s v ?_ fun hv => ?_; unfold v)
      | apply State.waitUntil_same
    | split

end Sys2Proof.Machine
end

