-- ==== Sys2Proof/Laws/KeepEffects.lean ====
section
/-!
SUPPORT. The shared effects keep the queue, the part and the lock bits: counters, gates, fault reactions,
targets, items of a transaction.
-/

namespace Sys2Proof.Machine

theorem loopStop_same (p : Nat) (why : Nat) (s : State) {s0 : State} (h0 : Same s0 s) : Same s0 (loopStop p why s) := by
  refine h0.trans ?_; clear h0 s0
  unfold loopStop
  repeat' first
    | with_reducible first
      | assumption
      | exact Same.refl _
    | split
    | (with_reducible apply same_mk; rotate_left; rfl; rfl; rfl)

theorem activate_same (slot : Nat) (s : State) {s0 : State} (h0 : Same s0 s) : Same s0 (activate slot s) := by
  refine h0.trans ?_; clear h0 s0
  unfold activate
  repeat' first
    | with_reducible first
      | assumption
      | exact Same.refl _
      | (intro v; refine same_seq v ?_ fun hv => ?_; unfold v)
      | (intro v)
      | (lift_lets; intro v)
      | apply State.modChan_same
      | apply loopStop_same
    | split

theorem activateHeld_same (p : Nat) (s : State) {s0 : State} (h0 : Same s0 s) : Same s0 (activateHeld p s) := by
  refine h0.trans ?_; clear h0 s0
  unfold activateHeld
  repeat' first
    | with_reducible first
      | assumption
      | exact Same.refl _
      | apply activate_same
      | (apply foldl_same; rotate_left; intro _ _)
    | split

theorem haltChan_same (slot : Nat) (cause : Nat) (s : State) {s0 : State} (h0 : Same s0 s) : Same s0 (haltChan slot cause s) := by
  refine h0.trans ?_; clear h0 s0
  unfold haltChan
  repeat' first
    | with_reducible first
      | assumption
      | exact Same.refl _
      | (intro v)
      | (lift_lets; intro v)
      | apply State.setChan_same
      | apply groupEvent_same
    | split

theorem freeIfIdle_same (id : Nat) (s : State) {s0 : State} (h0 : Same s0 s) : Same s0 (freeIfIdle id s) := by
  refine h0.trans ?_; clear h0 s0
  unfold freeIfIdle
  repeat' first
    | with_reducible first
      | assumption
      | exact Same.refl _
      | (intro v)
      | (lift_lets; intro v; refine same_seq v ?_ fun hv => ?_; unfold v)
      | apply State.setDev_same
    | split
    | (with_reducible apply same_mk; rotate_left; rfl; rfl; rfl)

theorem closeSlot_same (slot : Nat) (s : State) {s0 : State} (h0 : Same s0 s) : Same s0 (closeSlot slot s) := by
  refine h0.trans ?_; clear h0 s0
  unfold closeSlot
  repeat' first
    | with_reducible first
      | assumption
      | exact Same.refl _
      | (intro v; refine same_seq v ?_ fun hv => ?_; unfold v)
      | (intro v)
      | (lift_lets; intro v)
      | apply State.setChan_same
      | apply freeIfIdle_same
      | apply groupEvent_same
      | apply unpoison_same
    | split
    | (with_reducible apply same_mk; rotate_left; rfl; rfl; rfl)

theorem settleLast_same (slot : Nat) (s : State) {s0 : State} (h0 : Same s0 s) : Same s0 (settleLast slot s) := by
  refine h0.trans ?_; clear h0 s0
  unfold settleLast
  repeat' first
    | with_reducible first
      | assumption
      | exact Same.refl _
      | (intro v)
      | (lift_lets; intro v)
      | apply closeSlot_same
    | split

theorem emitLast_same (slot : Nat) (s : State) {s0 : State} (h0 : Same s0 s) : Same s0 (emitLast slot s) := by
  refine h0.trans ?_; clear h0 s0
  unfold emitLast
  repeat' first
    | with_reducible first
      | assumption
      | exact Same.refl _
      | (intro v; refine same_seq v ?_ fun hv => ?_; unfold v)
      | (intro v)
      | (lift_lets; intro v)
      | apply State.modChan_same
      | apply State.setChan_same
      | apply commitRec_same
      | apply settleLast_same
    | split

theorem discardRecords_same (slot : Nat) (s : State) {s0 : State} (h0 : Same s0 s) : Same s0 (discardRecords slot s).2 := by
  refine h0.trans ?_; clear h0 s0
  unfold discardRecords
  repeat' first
    | with_reducible first
      | assumption
      | exact Same.refl _
      | (intro v; refine same_seq v ?_ fun hv => ?_; unfold v)
      | (intro v)
      | (lift_lets; intro v)
      | apply State.rqLevel_same
      | dsimp -zeta only
    | split
    | (with_reducible apply same_mk; rotate_left; rfl; rfl; rfl)

theorem finishAbort_same (slot : Nat) (s : State) {s0 : State} (h0 : Same s0 s) : Same s0 (finishAbort slot s) := by
  refine h0.trans ?_; clear h0 s0
  unfold finishAbort
  repeat' first
    | with_reducible first
      | assumption
      | exact Same.refl _
      | (intro v)
      | apply closeSlot_same
      | apply completeWhere_same
      | apply discardRecords_same

theorem settlePauses_same (s : State) {s0 : State} (h0 : Same s0 s) : Same s0 (settlePauses s) := by
  refine h0.trans ?_; clear h0 s0
  unfold settlePauses
  repeat' first
    | with_reducible first
      | assumption
      | exact Same.refl _
      | apply completeMb_same
      | (apply foldl_same; rotate_left; intro _ _)
    | split

theorem afterWire_same (slot : Nat) (s : State) {s0 : State} (h0 : Same s0 s) : Same s0 (afterWire slot s) := by
  refine h0.trans ?_; clear h0 s0
  unfold afterWire
  repeat' first
    | with_reducible first
      | assumption
      | exact Same.refl _
      | (intro v; refine same_seq v ?_ fun hv => ?_; unfold v)
      | (intro v)
      | (lift_lets; intro v)
      | apply State.setChan_same
      | apply emitLast_same
      | apply finishAbort_same
      | apply settlePauses_same
    | split

theorem ctrlEnd_same (slot : Nat) (reason : Nat) (s : State) {s0 : State} (h0 : Same s0 s) : Same s0 (ctrlEnd slot reason s) := by
  refine h0.trans ?_; clear h0 s0
  unfold ctrlEnd
  repeat' first
    | with_reducible first
      | assumption
      | exact Same.refl _
      | (intro v)
      | (lift_lets; intro v)
      | apply State.setChan_same
      | apply afterWire_same
      | apply completeWhere_same
    | split

theorem State.setWire_same (s : State) (p : Nat) (w : Option OnWire) {s0 : State} (h0 : Same s0 s) : Same s0 (State.setWire s p w) := by
  refine h0.trans ?_; clear h0 s0
  unfold State.setWire
  repeat' first
    | with_reducible first
      | assumption
      | exact Same.refl _
    | (with_reducible apply same_mk; rotate_left; rfl; rfl; rfl)

theorem devGone_same (id : Nat) (reason : Nat) (s : State) {s0 : State} (h0 : Same s0 s) : Same s0 (devGone id reason s) := by
  refine h0.trans ?_; clear h0 s0
  unfold devGone
  repeat' first
    | with_reducible first
      | assumption
      | exact Same.refl _
      | (intro v; refine same_seq v ?_ fun hv => ?_; unfold v)
      | (intro v)
      | (lift_lets; intro v)
      | apply State.setDev_same
      | apply ctrlEnd_same
      | apply freeIfIdle_same
      | apply groupEvent_same
      | apply haltChan_same
      | (apply foldl_same; rotate_left; intro _ _)
    | split

theorem portGone_same (p : Nat) (reason : Nat) (s : State) {s0 : State} (h0 : Same s0 s) : Same s0 (portGone p reason s) := by
  refine h0.trans ?_; clear h0 s0
  unfold portGone
  repeat' first
    | with_reducible first
      | assumption
      | exact Same.refl _
      | apply devGone_same
      | (apply foldl_same; rotate_left; intro _ _)

theorem forgetAddrs_same (p : Nat) (hub1 : Nat) (hub2 : Nat) (s : State) {s0 : State} (h0 : Same s0 s) : Same s0 (forgetAddrs p hub1 hub2 s) := by
  refine h0.trans ?_; clear h0 s0
  unfold forgetAddrs
  repeat' first
    | with_reducible first
      | assumption
      | exact Same.refl _
      | (intro v)
      | (lift_lets; intro v; refine same_seq v ?_ fun hv => ?_; unfold v)
      | apply State.modUsb_same
    | split
    | (with_reducible apply same_mk; rotate_left; rfl; rfl; rfl)

theorem hubPortLost_same (p : Nat) (hub1 : Nat) (hub2 : Nat) (s : State) {s0 : State} (h0 : Same s0 s) : Same s0 (hubPortLost p hub1 hub2 s) := by
  refine h0.trans ?_; clear h0 s0
  unfold hubPortLost
  repeat' first
    | with_reducible first
      | assumption
      | exact Same.refl _
      | (intro v; refine same_seq v ?_ fun hv => ?_; unfold v)
      | (intro v)
      | (lift_lets; intro v)
      | apply State.modUsb_same
      | apply devGone_same
      | (apply foldl_same; rotate_left; intro _ _)

theorem overClear_same (p : Nat) (s : State) {s0 : State} (h0 : Same s0 s) : Same s0 (overClear p s) := by
  refine h0.trans ?_; clear h0 s0
  unfold overClear
  repeat' first
    | with_reducible first
      | assumption
      | exact Same.refl _
      | (intro v)
      | (lift_lets; intro v; refine same_seq v ?_ fun hv => ?_; unfold v)
      | apply State.modUsb_same
    | split
    | (with_reducible apply same_mk; rotate_left; rfl; rfl; rfl)

theorem setPortState_same (p : Nat) (st : Nat) (cause : Nat) (s : State) {s0 : State} (h0 : Same s0 s) : Same s0 (setPortState p st cause s) := by
  refine h0.trans ?_; clear h0 s0
  unfold setPortState
  repeat' first
    | with_reducible first
      | assumption
      | exact Same.refl _
      | (intro v; refine same_seq v ?_ fun hv => ?_; unfold v)
      | (intro v)
      | (lift_lets; intro v)
      | apply State.modUsb_same
      | apply overClear_same
      | apply raiseEvent_same
    | split

theorem hubChange_same (p : Nat) (mask : Nat) (s : State) {s0 : State} (h0 : Same s0 s) : Same s0 (hubChange p mask s) := by
  refine h0.trans ?_; clear h0 s0
  unfold hubChange
  repeat' first
    | with_reducible first
      | assumption
      | exact Same.refl _
      | apply State.modUsb_same
    | split

theorem dropDevices_same (p : Nat) (s : State) {s0 : State} (h0 : Same s0 s) : Same s0 (dropDevices p s) := by
  refine h0.trans ?_; clear h0 s0
  unfold dropDevices
  repeat' first
    | with_reducible first
      | assumption
      | exact Same.refl _
      | (intro v; refine same_seq v ?_ fun hv => ?_; unfold v)
      | (intro v)
      | (lift_lets; intro v; refine same_seq v ?_ fun hv => ?_; unfold v)
      | (lift_lets; intro v)
      | apply State.setDev_same
      | apply portGone_same
      | (apply foldl_same; rotate_left; intro _ _)
    | split
    | (with_reducible apply same_mk; rotate_left; rfl; rfl; rfl)

theorem stepsOver_same (p : Nat) (s : State) {s0 : State} (h0 : Same s0 s) : Same s0 (stepsOver p s) := by
  refine h0.trans ?_; clear h0 s0
  unfold stepsOver
  repeat' first
    | with_reducible first
      | assumption
      | exact Same.refl _
      | (intro v)
      | (lift_lets; intro v; refine same_seq v ?_ fun hv => ?_; unfold v)
      | apply completeWhere_same

theorem toTransparent_same (p : Nat) (s : State) {s0 : State} (h0 : Same s0 s) : Same s0 (toTransparent p s) := by
  refine h0.trans ?_; clear h0 s0
  unfold toTransparent
  repeat' first
    | with_reducible first
      | assumption
      | exact Same.refl _
      | (intro v)
      | (lift_lets; intro v; refine same_seq v ?_ fun hv => ?_; unfold v)
      | apply State.modUsb_same
      | apply dropDevices_same
      | apply hubChange_same
      | apply raiseEvent_same
      | apply setPortState_same
      | apply stepsOver_same
    | split

theorem usbOver_same (p : Nat) (s : State) {s0 : State} (h0 : Same s0 s) : Same s0 (usbOver p s) := by
  refine h0.trans ?_; clear h0 s0
  unfold usbOver
  repeat' first
    | with_reducible first
      | assumption
      | exact Same.refl _
      | (intro v)
      | (lift_lets; intro v; refine same_seq v ?_ fun hv => ?_; unfold v)
      | apply State.modUsb_same
      | apply hubChange_same
      | apply stepsOver_same
    | split

theorem frontStop_same (p : Nat) (s : State) {s0 : State} (h0 : Same s0 s) : Same s0 (frontStop p s) := by
  refine h0.trans ?_; clear h0 s0
  unfold frontStop
  repeat' first
    | with_reducible first
      | assumption
      | exact Same.refl _
      | (intro v)
      | (lift_lets; intro v; refine same_seq v ?_ fun hv => ?_; unfold v)
      | apply State.modUsb_same
      | apply portGone_same
      | apply setPortState_same
      | apply usbOver_same
    | split

theorem sofNow_same (p : Nat) (s : State) {s0 : State} (h0 : Same s0 s) : Same s0 (sofNow p s) := by
  refine h0.trans ?_; clear h0 s0
  unfold sofNow
  repeat' first
    | with_reducible first
      | assumption
      | exact Same.refl _
      | (intro v)
      | apply State.modUsb_same

theorem afterBus_same (p : Nat) (s : State) {s0 : State} (h0 : Same s0 s) : Same s0 (afterBus p s) := by
  refine h0.trans ?_; clear h0 s0
  unfold afterBus
  repeat' first
    | with_reducible first
      | assumption
      | exact Same.refl _
      | (intro v)
      | (lift_lets; intro v; refine same_seq v ?_ fun hv => ?_; unfold v)
      | apply completeWhere_same
      | apply frontStop_same
      | apply setPortState_same
      | apply sofNow_same
      | apply toTransparent_same
    | split

theorem wireDrop_same (p : Nat) (s : State) {s0 : State} (h0 : Same s0 s) : Same s0 (wireDrop p s) := by
  refine h0.trans ?_; clear h0 s0
  unfold wireDrop
  repeat' first
    | with_reducible first
      | assumption
      | exact Same.refl _
      | (intro v)
      | (lift_lets; intro v; refine same_seq v ?_ fun hv => ?_; unfold v)
      | apply State.setWire_same
      | apply afterBus_same
      | apply afterWire_same
      | apply missRec_same
    | split

theorem sbuOpen_same (p : Nat) (reason : Nat) (s : State) {s0 : State} (h0 : Same s0 s) : Same s0 (sbuOpen p reason s) := by
  refine h0.trans ?_; clear h0 s0
  unfold sbuOpen
  repeat' first
    | with_reducible first
      | assumption
      | exact Same.refl _
      | (intro v; refine same_seq v ?_ fun hv => ?_; unfold v)
      | (intro v)
      | (lift_lets; intro v)
      | apply State.modPd_same
      | apply completeWhere_same
      | apply raiseEvent_same
    | split

theorem frsOff_same (p : Nat) (s : State) {s0 : State} (h0 : Same s0 s) : Same s0 (frsOff p s) := by
  refine h0.trans ?_; clear h0 s0
  unfold frsOff
  repeat' first
    | with_reducible first
      | assumption
      | exact Same.refl _
      | apply State.modPd_same
      | apply raiseEvent_same
    | split

theorem pdEnd_same (p : Nat) (s : State) {s0 : State} (h0 : Same s0 s) : Same s0 (pdEnd p s) := by
  refine h0.trans ?_; clear h0 s0
  unfold pdEnd
  repeat' first
    | with_reducible first
      | assumption
      | exact Same.refl _
      | (intro v)
      | (lift_lets; intro v; refine same_seq v ?_ fun hv => ?_; unfold v)
      | apply State.modPd_same
      | apply completeWhere_same
      | apply frsOff_same

theorem usbEnd_same (p : Nat) (why : Nat) (s : State) {s0 : State} (h0 : Same s0 s) : Same s0 (usbEnd p why s) := by
  refine h0.trans ?_; clear h0 s0
  unfold usbEnd
  repeat' first
    | with_reducible first
      | assumption
      | exact Same.refl _
      | (intro v)
      | (lift_lets; intro v; refine same_seq v ?_ fun hv => ?_; unfold v)
      | apply completeWhere_same
      | apply loopStop_same
      | apply usbOver_same
      | apply wireDrop_same

theorem gatesOff_same (p : Nat) (s : State) {s0 : State} (h0 : Same s0 s) : Same s0 (gatesOff p s) := by
  refine h0.trans ?_; clear h0 s0
  unfold gatesOff
  repeat' first
    | with_reducible first
      | assumption
      | exact Same.refl _
      | apply State.modPw_same

theorem releaseGrant_same (p : Nat) (s : State) {s0 : State} (h0 : Same s0 s) : Same s0 (releaseGrant p s) := by
  refine h0.trans ?_; clear h0 s0
  unfold releaseGrant
  repeat' first
    | with_reducible first
      | assumption
      | exact Same.refl _
      | apply State.modPw_same

theorem powerOff_same (p : Nat) (st : Nat) (cause : Nat) (reason : Nat) (keep : Bool) (s : State) {s0 : State} (h0 : Same s0 s) : Same s0 (powerOff p st cause reason keep s) := by
  refine h0.trans ?_; clear h0 s0
  unfold powerOff
  repeat' first
    | with_reducible first
      | assumption
      | exact Same.refl _
      | (intro v)
      | (lift_lets; intro v; refine same_seq v ?_ fun hv => ?_; unfold v)
      | apply State.modUsb_same
      | apply gatesOff_same
      | apply pdEnd_same
      | apply portGone_same
      | apply releaseGrant_same
      | apply sbuOpen_same
      | apply setPortState_same
      | apply usbEnd_same
    | split

theorem overCurrent_same (p : Nat) (s : State) {s0 : State} (h0 : Same s0 s) : Same s0 (overCurrent p s) := by
  refine h0.trans ?_; clear h0 s0
  unfold overCurrent
  repeat' first
    | with_reducible first
      | assumption
      | exact Same.refl _
      | apply State.modUsb_same
      | apply hubChange_same
    | split
    | (with_reducible apply same_mk; rotate_left; rfl; rfl; rfl)

theorem tripCore_same (p : Nat) (cause : Nat) (mA : Nat) (s : State) {s0 : State} (h0 : Same s0 s) : Same s0 (tripCore p cause mA s) := by
  refine h0.trans ?_; clear h0 s0
  unfold tripCore
  repeat' first
    | with_reducible first
      | assumption
      | exact Same.refl _
      | (intro v; refine same_seq v ?_ fun hv => ?_; unfold v)
      | (intro v)
      | (lift_lets; intro v)
      | apply State.modPw_same
      | apply State.setFlag_same
      | apply overCurrent_same
      | apply powerOff_same
      | apply raiseEvent_same

theorem groupGatesOff_same (g : Nat) (cause : Nat) (spare : Nat → Bool) (s : State) {s0 : State} (h0 : Same s0 s) : Same s0 (groupGatesOff g cause spare s) := by
  refine h0.trans ?_; clear h0 s0
  unfold groupGatesOff
  repeat' first
    | with_reducible first
      | assumption
      | exact Same.refl _
      | (intro v; refine same_seq v ?_ fun hv => ?_; unfold v)
      | (intro v)
      | (lift_lets; intro v)
      | apply State.modPw_same
      | apply gatesOff_same
      | apply powerOff_same
      | (apply foldl_same; rotate_left; intro _ _)
    | split

theorem gmgOff_same (g : Nat) (s : State) {s0 : State} (h0 : Same s0 s) : Same s0 (gmgOff g s) := by
  refine h0.trans ?_; clear h0 s0
  unfold gmgOff
  repeat' first
    | with_reducible first
      | assumption
      | exact Same.refl _
    | (with_reducible apply same_mk; rotate_left; rfl; rfl; rfl)

theorem gmgOn_same (g : Nat) (s : State) {s0 : State} (h0 : Same s0 s) : Same s0 (gmgOn g s) := by
  refine h0.trans ?_; clear h0 s0
  unfold gmgOn
  repeat' first
    | with_reducible first
      | assumption
      | exact Same.refl _
    | (with_reducible apply same_mk; rotate_left; rfl; rfl; rfl)

theorem askGrant_same (p : Nat) (s : State) {s0 : State} (h0 : Same s0 s) : Same s0 (askGrant p s) := by
  refine h0.trans ?_; clear h0 s0
  unfold askGrant
  repeat' first
    | with_reducible first
      | assumption
      | exact Same.refl _
      | (intro v)
      | (lift_lets; intro v; refine same_seq v ?_ fun hv => ?_; unfold v)
      | apply State.modPw_same
    | split
    | (with_reducible apply same_mk; rotate_left; rfl; rfl; rfl)

theorem txEnd_same (c : Nat) (b : Nat) (outcome : Nat) (reason : Nat) (s : State) {s0 : State} (h0 : Same s0 s) : Same s0 (txEnd c b outcome reason s) := by
  refine h0.trans ?_; clear h0 s0
  unfold txEnd
  repeat' first
    | with_reducible first
      | assumption
      | exact Same.refl _
      | (intro v; refine same_seq v ?_ fun hv => ?_; unfold v)
      | (intro v)
      | (lift_lets; intro v)
      | apply State.setCan_same
      | apply raiseEvent_same
    | split

theorem abortBufs_same (c : Nat) (mask : Nat) (reason : Nat) (s : State) {s0 : State} (h0 : Same s0 s) : Same s0 (abortBufs c mask reason s) := by
  refine h0.trans ?_; clear h0 s0
  unfold abortBufs
  repeat' first
    | with_reducible first
      | assumption
      | exact Same.refl _
      | apply txEnd_same
      | (apply foldl_same; rotate_left; intro _ _)

theorem canState_same (c : Nat) (st : Nat) (s : State) {s0 : State} (h0 : Same s0 s) : Same s0 (canState c st s) := by
  refine h0.trans ?_; clear h0 s0
  unfold canState
  repeat' first
    | with_reducible first
      | assumption
      | exact Same.refl _
      | (intro v)
      | (lift_lets; intro v)
      | apply State.setCan_same
      | apply raiseEvent_same
    | split

theorem canStopped_same (c : Nat) (s : State) {s0 : State} (h0 : Same s0 s) : Same s0 (canStopped c s) := by
  refine h0.trans ?_; clear h0 s0
  unfold canStopped
  repeat' first
    | with_reducible first
      | assumption
      | exact Same.refl _
      | (intro v)
      | (lift_lets; intro v; refine same_seq v ?_ fun hv => ?_; unfold v)
      | apply State.setCan_same
      | apply canState_same
      | apply completeMb_same
      | (apply foldl_same; rotate_left; intro _ _)
    | split

theorem canDisable_same (c : Nat) (s : State) {s0 : State} (h0 : Same s0 s) : Same s0 (canDisable c s) := by
  refine h0.trans ?_; clear h0 s0
  unfold canDisable
  repeat' first
    | with_reducible first
      | assumption
      | exact Same.refl _
      | (intro v; refine same_seq v ?_ fun hv => ?_; unfold v)
      | (intro v)
      | (lift_lets; intro v)
      | apply State.clrFlag_same
      | apply State.setCan_same
      | apply abortBufs_same
    | split

theorem canYarrow_same (s : State) {s0 : State} (h0 : Same s0 s) : Same s0 (canYarrow s) := by
  refine h0.trans ?_; clear h0 s0
  unfold canYarrow
  repeat' first
    | with_reducible first
      | assumption
      | exact Same.refl _
      | apply State.setCan_same
      | apply raiseEvent_same

theorem canTakeOver_same (s : State) {s0 : State} (h0 : Same s0 s) : Same s0 (canTakeOver s) := by
  refine h0.trans ?_; clear h0 s0
  unfold canTakeOver
  repeat' first
    | with_reducible first
      | assumption
      | exact Same.refl _
      | apply abortBufs_same
      | apply canYarrow_same

theorem lastReaction_same (n : Nat) (cls : Nat) (s : State) {s0 : State} (h0 : Same s0 s) : Same s0 (lastReaction n cls s) := by
  refine h0.trans ?_; clear h0 s0
  unfold lastReaction
  repeat' first
    | with_reducible first
      | assumption
      | exact Same.refl _
    | (with_reducible apply same_mk; rotate_left; rfl; rfl; rfl)

theorem portSafe_same (p : Nat) (s : State) {s0 : State} (h0 : Same s0 s) : Same s0 (portSafe p s) := by
  refine h0.trans ?_; clear h0 s0
  unfold portSafe
  repeat' first
    | with_reducible first
      | assumption
      | exact Same.refl _
      | apply State.modPw_same
      | apply powerOff_same

theorem groupSafe_same (g : Nat) (s : State) {s0 : State} (h0 : Same s0 s) : Same s0 (groupSafe g s) := by
  refine h0.trans ?_; clear h0 s0
  unfold groupSafe
  repeat' first
    | with_reducible first
      | assumption
      | exact Same.refl _
      | apply State.setFlag_same
      | apply gmgOff_same
      | apply groupGatesOff_same

theorem safeState_same (src : Nat) (s : State) {s0 : State} (h0 : Same s0 s) : Same s0 (safeState src s) := by
  refine h0.trans ?_; clear h0 s0
  unfold safeState
  repeat' first
    | with_reducible first
      | assumption
      | exact Same.refl _
      | (intro v)
      | (lift_lets; intro v; refine same_seq v ?_ fun hv => ?_; unfold v)
      | apply gatesOff_same
      | apply gmgOff_same
      | apply powerOff_same
      | apply sbuOpen_same
      | apply wireDrop_same
      | (apply foldl_same; rotate_left; intro _ _)
    | split
    | (with_reducible apply same_mk; rotate_left; rfl; rfl; rfl)

theorem wardenHold_same (cause : Nat) (s : State) {s0 : State} (h0 : Same s0 s) : Same s0 (wardenHold cause s) := by
  refine h0.trans ?_; clear h0 s0
  unfold wardenHold
  repeat' first
    | with_reducible first
      | assumption
      | exact Same.refl _
      | (intro v)
      | (lift_lets; intro v)
    | split
    | (with_reducible apply same_mk; rotate_left; rfl; rfl; rfl)

theorem wardenCut_same (s : State) {s0 : State} (h0 : Same s0 s) : Same s0 (wardenCut s) := by
  refine h0.trans ?_; clear h0 s0
  unfold wardenCut
  repeat' first
    | with_reducible first
      | assumption
      | exact Same.refl _
      | apply gmgOff_same
      | apply groupGatesOff_same
      | (apply foldl_same; rotate_left; intro _ _)
    | split

theorem wardenStart_same (cause : Nat) (s : State) {s0 : State} (h0 : Same s0 s) : Same s0 (wardenStart cause s) := by
  refine h0.trans ?_; clear h0 s0
  unfold wardenStart
  repeat' first
    | with_reducible first
      | assumption
      | exact Same.refl _
      | apply canTakeOver_same
      | apply wardenCut_same
      | apply wardenHold_same

theorem wardenEnter_same (cause : Nat) (s : State) {s0 : State} (h0 : Same s0 s) : Same s0 (wardenEnter cause s) := by
  refine h0.trans ?_; clear h0 s0
  unfold wardenEnter
  repeat' first
    | with_reducible first
      | assumption
      | exact Same.refl _
      | apply safeState_same
      | apply wardenStart_same
    | split

theorem react_same (n : Nat) (s : State) {s0 : State} (h0 : Same s0 s) : Same s0 (react n s) := by
  refine h0.trans ?_; clear h0 s0
  unfold react
  repeat' first
    | with_reducible first
      | assumption
      | exact Same.refl _
      | (intro v; refine same_seq v ?_ fun hv => ?_; unfold v)
      | (intro v)
      | (lift_lets; intro v)
      | apply State.setSrc_same
      | apply groupSafe_same
      | apply lastReaction_same
      | apply portSafe_same
      | apply raiseEvent_same
      | apply safeState_same
      | apply wardenEnter_same
    | split

theorem countEvent_same (n : Nat) (hold : Nat) (s : State) {s0 : State} (h0 : Same s0 s) : Same s0 (countEvent n hold s) := by
  refine h0.trans ?_; clear h0 s0
  unfold countEvent
  repeat' first
    | with_reducible first
      | assumption
      | exact Same.refl _
      | (intro v; refine same_seq v ?_ fun hv => ?_; unfold v)
      | (intro v)
      | (lift_lets; intro v)
      | apply State.setSrc_same
      | apply react_same
    | split

theorem faultPulse_same (n : Nat) (s : State) {s0 : State} (h0 : Same s0 s) : Same s0 (faultPulse n s) := by
  refine h0.trans ?_; clear h0 s0
  unfold faultPulse
  repeat' first
    | with_reducible first
      | assumption
      | exact Same.refl _
      | apply countEvent_same
      | apply lastReaction_same
      | apply safeState_same
    | split

theorem faultHold_same (n : Nat) (s : State) {s0 : State} (h0 : Same s0 s) : Same s0 (faultHold n s) := by
  refine h0.trans ?_; clear h0 s0
  unfold faultHold
  repeat' first
    | with_reducible first
      | assumption
      | exact Same.refl _
      | apply State.setSrc_same
      | apply countEvent_same
    | split

theorem faultGone_same (n : Nat) (s : State) {s0 : State} (h0 : Same s0 s) : Same s0 (faultGone n s) := by
  refine h0.trans ?_; clear h0 s0
  unfold faultGone
  repeat' first
    | with_reducible first
      | assumption
      | exact Same.refl _
      | (intro v)
      | (lift_lets; intro v)
      | apply State.setSrc_same

theorem portInput_same (p : Nat) (s : State) {s0 : State} (h0 : Same s0 s) : Same s0 (portInput p s) := by
  refine h0.trans ?_; clear h0 s0
  unfold portInput
  repeat' first
    | with_reducible first
      | assumption
      | exact Same.refl _
      | (intro v)
      | (lift_lets; intro v)
      | apply faultGone_same
    | split

theorem trip_same (p : Nat) (cause : Nat) (mA : Nat) (s : State) {s0 : State} (h0 : Same s0 s) : Same s0 (trip p cause mA s) := by
  refine h0.trans ?_; clear h0 s0
  unfold trip
  repeat' first
    | with_reducible first
      | assumption
      | exact Same.refl _
      | (intro v)
      | (lift_lets; intro v; refine same_seq v ?_ fun hv => ?_; unfold v)
      | apply faultHold_same
      | apply faultPulse_same
      | apply tripCore_same
    | split

theorem passChan_same (slot : Nat) (chg : Option (Option SchedSpec × Nat)) (s : State) {s0 : State} (h0 : Same s0 s) : Same s0 (passChan slot chg s) := by
  refine h0.trans ?_; clear h0 s0
  unfold passChan
  repeat' first
    | with_reducible first
      | assumption
      | exact Same.refl _
      | (intro v; refine same_seq v ?_ fun hv => ?_; unfold v)
      | (intro v)
      | (lift_lets; intro v)
      | refine OutSame.out ?_ _ ‹_ = Host.Outcome.next _›
      | apply State.setChan_same
      | apply missRec_same
      | (apply foldl_same; rotate_left; intro _ _)
    | dsimp -zeta only
    | split

theorem closeNow_same (slot : Nat) (s : State) {s0 : State} (h0 : Same s0 s) : Same s0 (closeNow slot s) := by
  refine h0.trans ?_; clear h0 s0
  unfold closeNow
  repeat' first
    | with_reducible first
      | assumption
      | exact Same.refl _
      | (intro v; refine same_seq v ?_ fun hv => ?_; unfold v)
      | (intro v)
      | (lift_lets; intro v)
      | apply State.setChan_same
      | apply emitLast_same
    | split

theorem State.setTxn_same (s : State) (t : SchedTxn) {s0 : State} (h0 : Same s0 s) : Same s0 (State.setTxn s t) := by
  refine h0.trans ?_; clear h0 s0
  unfold State.setTxn
  repeat' first
    | with_reducible first
      | assumption
      | exact Same.refl _
    | split
    | (with_reducible apply same_mk; rotate_left; rfl; rfl; rfl)

theorem startSync_same (p : Nat) (spec : SchedSpec) (pos : Nat) (s : State) {s0 : State} (h0 : Same s0 s) : Same s0 (startSync p spec pos s) := by
  refine h0.trans ?_; clear h0 s0
  unfold startSync
  repeat' first
    | with_reducible first
      | assumption
      | exact Same.refl _
      | (intro v)
      | (lift_lets; intro v)
    | (with_reducible apply same_mk; rotate_left; rfl; rfl; rfl)

theorem applyItem_same (tb : Nat) (pos : Nat) (i : Item) (s : State) {s0 : State} (h0 : Same s0 s) : Same s0 (applyItem tb pos i s).2 := by
  refine h0.trans ?_; clear h0 s0
  unfold applyItem
  repeat' first
    | with_reducible first
      | assumption
      | exact Same.refl _
      | (intro v; refine same_seq v ?_ fun hv => ?_; unfold v)
      | (intro v)
      | (lift_lets; intro v)
      | apply State.modChan_same
      | apply State.modPw_same
      | apply State.setCan_same
      | apply askGrant_same
      | apply closeNow_same
      | apply startSync_same
      | dsimp -zeta only
    | split
    | (clear_value *; split)
    | (with_reducible apply same_mk; rotate_left; rfl; rfl; rfl)

theorem applyTxn_same (pos : Nat) (t : SchedTxn) (s : State) {s0 : State} (h0 : Same s0 s) : Same s0 (applyTxn pos t s) := by
  refine h0.trans ?_; clear h0 s0
  unfold applyTxn
  repeat' first
    | with_reducible first
      | assumption
      | exact Same.refl _
      | (intro v)
      | (lift_lets; intro v)
      | apply State.setTxn_same
      | apply applyItem_same
      | apply groupEvent_same
      | (apply foldl_same; rotate_left; intro _ _)
      | (apply foldl_same2; rotate_left; intro _ _)
      | dsimp -zeta only
    | split

theorem atApply_same (t : SchedTxn) (s : State) {s0 : State} (h0 : Same s0 s) : Same s0 (atApply t s) := by
  refine h0.trans ?_; clear h0 s0
  unfold atApply
  repeat' first
    | with_reducible first
      | assumption
      | exact Same.refl _
      | refine optSame_out ‹_ = some _› ?_
      | apply State.reach_same
      | apply applyTxn_same
    | split

theorem newFrom_same (t : SchedTxn) (s : State) {s0 : State} (h0 : Same s0 s) : Same s0 (newFrom t s) := by
  refine h0.trans ?_; clear h0 s0
  unfold newFrom
  repeat' first
    | with_reducible first
      | assumption
      | exact Same.refl _
      | (intro v)
      | (lift_lets; intro v)
      | apply State.setChan_same
      | (apply foldl_same; rotate_left; intro _ _)
    | split

theorem passTargets_same (tb : Nat) (s : State) {s0 : State} (h0 : Same s0 s) : Same s0 (passTargets tb s) := by
  refine h0.trans ?_; clear h0 s0
  unfold passTargets
  repeat' first
    | with_reducible first
      | assumption
      | exact Same.refl _
      | (intro v; refine same_seq v ?_ fun hv => ?_; unfold v)
      | (intro v)
      | (lift_lets; intro v)
      | refine OutSame.out ?_ _ ‹_ = Host.Outcome.next _›
      | apply applyTxn_same
      | apply newFrom_same
      | apply passChan_same
      | (apply foldl_same; rotate_left; intro _ _)
    | split
    | (clear_value *; split)
    | (with_reducible apply same_mk; rotate_left; rfl; rfl; rfl)

theorem voidTxns_same (s : State) {s0 : State} (h0 : Same s0 s) : Same s0 (voidTxns s) := by
  refine h0.trans ?_; clear h0 s0
  unfold voidTxns
  repeat' first
    | with_reducible first
      | assumption
      | exact Same.refl _
      | (intro v; refine same_seq v ?_ fun hv => ?_; unfold v)
      | (intro v)
      | (lift_lets; intro v)
      | apply closeSlot_same
      | (apply foldl_same; rotate_left; intro _ _)
    | split
    | (with_reducible apply same_mk; rotate_left; rfl; rfl; rfl)

end Sys2Proof.Machine
end

