-- ==== Sys2Proof/Laws/KeepTime.lean ====
section
/-!
SUPPORT. The rows of the clocks keep the queue, the part and the lock bits.
-/

namespace Sys2Proof.Machine

theorem State.setPho_same (s : State) (n : Nat) (x : PhaseOut) {s0 : State} (h0 : Same s0 s) : Same s0 (State.setPho s n x) := by
  refine h0.trans ?_; clear h0 s0
  unfold State.setPho
  repeat' first
    | with_reducible first
      | assumption
      | exact Same.refl _
    | (with_reducible apply same_mk; rotate_left; rfl; rfl; rfl)

theorem phoAim_same (n : Nat) (s : State) {s0 : State} (h0 : Same s0 s) : Same s0 (phoAim n s) := by
  refine h0.trans ?_; clear h0 s0
  unfold phoAim
  repeat' first
    | with_reducible first
      | assumption
      | exact Same.refl _
      | (intro v)
      | (lift_lets; intro v)
      | apply State.setPho_same

theorem phoOn_same (n : Nat) (s : State) {s0 : State} (h0 : Same s0 s) : Same s0 (phoOn n s) := by
  refine h0.trans ?_; clear h0 s0
  unfold phoOn
  repeat' first
    | with_reducible first
      | assumption
      | exact Same.refl _
      | apply State.setFlag_same
      | apply phoAim_same

theorem phoOff_same (n : Nat) (s : State) {s0 : State} (h0 : Same s0 s) : Same s0 (phoOff n s) := by
  refine h0.trans ?_; clear h0 s0
  unfold phoOff
  repeat' first
    | with_reducible first
      | assumption
      | exact Same.refl _
      | (intro v)
      | (lift_lets; intro v)
      | apply State.clrFlag_same
      | apply State.setPho_same

theorem phoFire_same (n : Nat) (s : State) {s0 : State} (h0 : Same s0 s) : Same s0 (phoFire n s) := by
  refine h0.trans ?_; clear h0 s0
  unfold phoFire
  repeat' first
    | with_reducible first
      | assumption
      | exact Same.refl _
      | (intro v; refine same_seq v ?_ fun hv => ?_; unfold v)
      | (intro v)
      | (lift_lets; intro v)
      | apply State.setFlag_same
      | apply State.setPho_same
    | split

theorem angState_same (k : Nat) (st : Nat) (s : State) {s0 : State} (h0 : Same s0 s) : Same s0 (angState k st s) := by
  refine h0.trans ?_; clear h0 s0
  unfold angState
  repeat' first
    | with_reducible first
      | assumption
      | exact Same.refl _
      | (intro v; refine same_seq v ?_ fun hv => ?_; unfold v)
      | (intro v)
      | (lift_lets; intro v)
      | apply State.setAng_same
      | apply anchor_same
      | apply raiseEvent_same
    | split

theorem reaim_same (k : Nat) (s : State) {s0 : State} (h0 : Same s0 s) : Same s0 (reaim k s) := by
  refine h0.trans ?_; clear h0 s0
  unfold reaim
  repeat' first
    | with_reducible first
      | assumption
      | exact Same.refl _
      | (intro v)
      | (lift_lets; intro v; refine same_seq v ?_ fun hv => ?_; unfold v)
      | apply State.modChan_same
      | apply phoAim_same
      | (apply foldl_same; rotate_left; intro _ _)
    | split
    | (with_reducible apply same_mk; rotate_left; rfl; rfl; rfl)

theorem angOn_same (k : Nat) (s : State) {s0 : State} (h0 : Same s0 s) : Same s0 (angOn k s) := by
  refine h0.trans ?_; clear h0 s0
  unfold angOn
  repeat' first
    | with_reducible first
      | assumption
      | exact Same.refl _
      | (intro v)
      | (lift_lets; intro v; refine same_seq v ?_ fun hv => ?_; unfold v)
      | apply State.setAng_same
      | apply State.setFlag_same
      | apply angState_same
      | apply reaim_same
    | split

theorem refFault_same (k : Nat) (kind : Nat) (s : State) {s0 : State} (h0 : Same s0 s) : Same s0 (refFault k kind s) := by
  refine h0.trans ?_; clear h0 s0
  unfold refFault
  repeat' first
    | with_reducible first
      | assumption
      | exact Same.refl _
      | (intro v)
      | (lift_lets; intro v; refine same_seq v ?_ fun hv => ?_; unfold v)
      | apply State.setFlag_same
      | apply faultHold_same
      | apply faultPulse_same
      | apply raiseEvent_same
    | split

theorem refQuiet_same (k : Nat) (s : State) {s0 : State} (h0 : Same s0 s) : Same s0 (refQuiet k s) := by
  refine h0.trans ?_; clear h0 s0
  unfold refQuiet
  repeat' first
    | with_reducible first
      | assumption
      | exact Same.refl _
      | apply faultGone_same
    | split

theorem angOff_same (k : Nat) (s : State) {s0 : State} (h0 : Same s0 s) : Same s0 (angOff k s) := by
  refine h0.trans ?_; clear h0 s0
  unfold angOff
  repeat' first
    | with_reducible first
      | assumption
      | exact Same.refl _
      | (intro v)
      | (lift_lets; intro v; refine same_seq v ?_ fun hv => ?_; unfold v)
      | apply State.clrFlag_same
      | apply State.setAng_same
      | apply angState_same
      | apply refQuiet_same
      | apply txEnd_same
      | (apply foldl_same; rotate_left; intro _ _)

theorem refLoss_same (k : Nat) (s : State) {s0 : State} (h0 : Same s0 s) : Same s0 (refLoss k s) := by
  refine h0.trans ?_; clear h0 s0
  unfold refLoss
  repeat' first
    | with_reducible first
      | assumption
      | exact Same.refl _
      | (intro v; refine same_seq v ?_ fun hv => ?_; unfold v)
      | (intro v)
      | (lift_lets; intro v)
      | apply State.incFld_same
      | apply angState_same
    | split

theorem lockTest_same (k : Nat) (err : Int) (newCycle : Bool) (s : State) {s0 : State} (h0 : Same s0 s) : Same s0 (lockTest k err newCycle s) := by
  refine h0.trans ?_; clear h0 s0
  unfold lockTest
  repeat' first
    | with_reducible first
      | assumption
      | exact Same.refl _
      | (intro v; refine same_seq v ?_ fun hv => ?_; unfold v)
      | (intro v)
      | (lift_lets; intro v)
      | apply State.setAng_same
      | apply angState_same
    | split

theorem refFirst_same (k : Nat) (s : State) {s0 : State} (h0 : Same s0 s) : Same s0 (refFirst k s) := by
  refine h0.trans ?_; clear h0 s0
  unfold refFirst
  repeat' first
    | with_reducible first
      | assumption
      | exact Same.refl _
      | (intro v)
      | (lift_lets; intro v)
      | apply State.setAng_same

theorem refUpdate_same (k : Nat) (s : State) {s0 : State} (h0 : Same s0 s) : Same s0 (refUpdate k s) := by
  refine h0.trans ?_; clear h0 s0
  unfold refUpdate
  repeat' first
    | with_reducible first
      | assumption
      | exact Same.refl _
      | (intro v; refine same_seq v ?_ fun hv => ?_; unfold v)
      | (intro v)
      | (lift_lets; intro v)
      | apply State.setAng_same
      | apply angState_same
      | apply lockTest_same
      | apply refFault_same
      | apply refLoss_same
    | split

theorem edgeRate_same (k : Nat) (s : State) {s0 : State} (h0 : Same s0 s) : Same s0 (edgeRate k s) := by
  refine h0.trans ?_; clear h0 s0
  unfold edgeRate
  repeat' first
    | with_reducible first
      | assumption
      | exact Same.refl _
      | (intro v; refine same_seq v ?_ fun hv => ?_; unfold v)
      | (intro v)
      | (lift_lets; intro v)
      | apply State.setAng_same
      | apply refFault_same
      | apply refLoss_same
    | split

theorem reverseOn_same (k : Nat) (s : State) {s0 : State} (h0 : Same s0 s) : Same s0 (reverseOn k s) := by
  refine h0.trans ?_; clear h0 s0
  unfold reverseOn
  repeat' first
    | with_reducible first
      | assumption
      | exact Same.refl _
      | (intro v)
      | (lift_lets; intro v)
      | apply State.setAng_same
      | apply raiseEvent_same
    | split

theorem reverseOff_same (k : Nat) (s : State) {s0 : State} (h0 : Same s0 s) : Same s0 (reverseOff k s) := by
  refine h0.trans ?_; clear h0 s0
  unfold reverseOff
  repeat' first
    | with_reducible first
      | assumption
      | exact Same.refl _
      | (intro v; refine same_seq v ?_ fun hv => ?_; unfold v)
      | (intro v)
      | (lift_lets; intro v)
      | apply State.setAng_same
      | apply angState_same
      | apply raiseEvent_same
      | apply refFirst_same
    | split

theorem refEvent_same (k : Nat) (s : State) {s0 : State} (h0 : Same s0 s) : Same s0 (refEvent k s) := by
  refine h0.trans ?_; clear h0 s0
  unfold refEvent
  repeat' first
    | with_reducible first
      | assumption
      | exact Same.refl _
      | (intro v; refine same_seq v ?_ fun hv => ?_; unfold v)
      | (intro v)
      | (lift_lets; intro v)
      | apply refFirst_same
      | apply refQuiet_same
      | apply refUpdate_same
      | apply reverseOff_same
    | split

theorem track_same (k : Nat) (n : Nat) (s : State) {s0 : State} (h0 : Same s0 s) : Same s0 (track k n s) := by
  refine h0.trans ?_; clear h0 s0
  unfold track
  repeat' first
    | with_reducible first
      | assumption
      | exact Same.refl _
      | (intro v)
      | (lift_lets; intro v)
      | apply State.setAng_same
    | split

theorem wallPair_same (s : State) {s0 : State} (h0 : Same s0 s) : Same s0 (wallPair s) := by
  refine h0.trans ?_; clear h0 s0
  unfold wallPair
  repeat' first
    | with_reducible first
      | assumption
      | exact Same.refl _
    | (with_reducible apply same_mk; rotate_left; rfl; rfl; rfl)

theorem wallStep_same (ns : Nat) (s : State) {s0 : State} (h0 : Same s0 s) : Same s0 (wallStep ns s) := by
  refine h0.trans ?_; clear h0 s0
  unfold wallStep
  repeat' first
    | with_reducible first
      | assumption
      | exact Same.refl _
      | apply anchor_same
      | apply passTargets_same
    | (with_reducible apply same_mk; rotate_left; rfl; rfl; rfl)

theorem wallState_same (st : Nat) (s : State) {s0 : State} (h0 : Same s0 s) : Same s0 (wallState st s) := by
  refine h0.trans ?_; clear h0 s0
  unfold wallState
  repeat' first
    | with_reducible first
      | assumption
      | exact Same.refl _
      | apply anchor_same
    | split
    | (with_reducible apply same_mk; rotate_left; rfl; rfl; rfl)

theorem wallOn_same (s : State) {s0 : State} (h0 : Same s0 s) : Same s0 (wallOn s) := by
  refine h0.trans ?_; clear h0 s0
  unfold wallOn
  repeat' first
    | with_reducible first
      | assumption
      | exact Same.refl _
      | (intro v)
      | (lift_lets; intro v; refine same_seq v ?_ fun hv => ?_; unfold v)
      | apply State.setFlag_same
      | apply wallState_same
    | split
    | (with_reducible apply same_mk; rotate_left; rfl; rfl; rfl)

theorem wallOff_same (s : State) {s0 : State} (h0 : Same s0 s) : Same s0 (wallOff s) := by
  refine h0.trans ?_; clear h0 s0
  unfold wallOff
  repeat' first
    | with_reducible first
      | assumption
      | exact Same.refl _
      | apply State.clrFlag_same
      | apply wallState_same
    | (with_reducible apply same_mk; rotate_left; rfl; rfl; rfl)

theorem wallEdge_same (ago : Nat) (s : State) {s0 : State} (h0 : Same s0 s) : Same s0 (wallEdge ago s) := by
  refine h0.trans ?_; clear h0 s0
  unfold wallEdge
  repeat' first
    | with_reducible first
      | assumption
      | exact Same.refl _
      | (intro v)
      | (lift_lets; intro v; refine same_seq v ?_ fun hv => ?_; unfold v)
      | apply State.drawn_same
      | apply wallState_same
      | apply wallStep_same
    | split
    | (with_reducible apply same_mk; rotate_left; rfl; rfl; rfl)

theorem State.setPcap_same (s : State) (m : Nat) (x : Pcap) {s0 : State} (h0 : Same s0 s) : Same s0 (State.setPcap s m x) := by
  refine h0.trans ?_; clear h0 s0
  unfold State.setPcap
  repeat' first
    | with_reducible first
      | assumption
      | exact Same.refl _
    | (with_reducible apply same_mk; rotate_left; rfl; rfl; rfl)

theorem capture_same (m : Nat) (s : State) {s0 : State} (h0 : Same s0 s) : Same s0 (capture m s) := by
  refine h0.trans ?_; clear h0 s0
  unfold capture
  repeat' first
    | with_reducible first
      | assumption
      | exact Same.refl _
      | (intro v; refine same_seq v ?_ fun hv => ?_; unfold v)
      | (intro v)
      | (lift_lets; intro v)
      | apply State.setFlag_same
      | apply State.setFld_same
      | apply State.setPcap_same
    | split

theorem State.setPsync_same (s : State) (p : Nat) (x : PhaseOut) {s0 : State} (h0 : Same s0 s) : Same s0 (State.setPsync s p x) := by
  refine h0.trans ?_; clear h0 s0
  unfold State.setPsync
  repeat' first
    | with_reducible first
      | assumption
      | exact Same.refl _
    | (with_reducible apply same_mk; rotate_left; rfl; rfl; rfl)

theorem State.setSyncPat_same (s : State) (p : Nat) (x : SyncPat) {s0 : State} (h0 : Same s0 s) : Same s0 (State.setSyncPat s p x) := by
  refine h0.trans ?_; clear h0 s0
  unfold State.setSyncPat
  repeat' first
    | with_reducible first
      | assumption
      | exact Same.refl _
    | (with_reducible apply same_mk; rotate_left; rfl; rfl; rfl)

theorem psyncFire_same (p : Nat) (s : State) {s0 : State} (h0 : Same s0 s) : Same s0 (psyncFire p s) := by
  refine h0.trans ?_; clear h0 s0
  unfold psyncFire
  repeat' first
    | with_reducible first
      | assumption
      | exact Same.refl _
      | (intro v; refine same_seq v ?_ fun hv => ?_; unfold v)
      | (intro v)
      | (lift_lets; intro v)
      | apply State.incFld_same
      | apply State.setPsync_same
      | apply State.setSyncPat_same
    | split

theorem slotConflict_same (i : Nat) (s : State) {s0 : State} (h0 : Same s0 s) : Same s0 (slotConflict i s) := by
  refine h0.trans ?_; clear h0 s0
  unfold slotConflict
  repeat' first
    | with_reducible first
      | assumption
      | exact Same.refl _
      | apply State.setFlag_same
      | apply raiseEvent_same
    | split

theorem linkCount_same (k : Nat) (count : Nat) (s : State) {s0 : State} (h0 : Same s0 s) : Same s0 (linkCount k count s) := by
  refine h0.trans ?_; clear h0 s0
  unfold linkCount
  repeat' first
    | with_reducible first
      | assumption
      | exact Same.refl _
      | (intro v)
      | (lift_lets; intro v)
      | apply State.setAng_same
      | apply anchor_same
      | apply passTargets_same
      | apply raiseEvent_same
    | split

theorem linkMarkFor_same (k : Nat) (count : Option Nat) (s : State) {s0 : State} (h0 : Same s0 s) : Same s0 (linkMarkFor k count s) := by
  refine h0.trans ?_; clear h0 s0
  unfold linkMarkFor
  repeat' first
    | with_reducible first
      | assumption
      | exact Same.refl _
      | (intro v)
      | (lift_lets; intro v; refine same_seq v ?_ fun hv => ?_; unfold v)
      | apply edgeRate_same
      | apply linkCount_same
      | apply refEvent_same
    | split

theorem linkCycleMark_same (i : Nat) (s : State) {s0 : State} (h0 : Same s0 s) : Same s0 (linkCycleMark i s) := by
  refine h0.trans ?_; clear h0 s0
  unfold linkCycleMark
  repeat' first
    | with_reducible first
      | assumption
      | exact Same.refl _
      | (intro v)
      | (lift_lets; intro v; refine same_seq v ?_ fun hv => ?_; unfold v)
      | apply linkMarkFor_same
      | apply slotConflict_same
      | (apply foldl_same; rotate_left; intro _ _)
    | split
    | (with_reducible apply same_mk; rotate_left; rfl; rfl; rfl)

theorem linkSecondMark_same (s : State) {s0 : State} (h0 : Same s0 s) : Same s0 (linkSecondMark s) := by
  refine h0.trans ?_; clear h0 s0
  unfold linkSecondMark
  repeat' first
    | with_reducible first
      | assumption
      | exact Same.refl _
      | (intro v; refine same_seq v ?_ fun hv => ?_; unfold v)
      | (intro v)
      | (lift_lets; intro v)
      | apply wallEdge_same
    | split
    | (with_reducible apply same_mk; rotate_left; rfl; rfl; rfl)

theorem frameError_same (s : State) {s0 : State} (h0 : Same s0 s) : Same s0 (frameError s) := by
  refine h0.trans ?_; clear h0 s0
  unfold frameError
  repeat' first
    | with_reducible first
      | assumption
      | exact Same.refl _
      | apply State.incFld_same
      | apply State.setFlag_same

theorem linkFrameBad_same (ty : Nat) (s : State) {s0 : State} (h0 : Same s0 s) : Same s0 (linkFrameBad ty s) := by
  refine h0.trans ?_; clear h0 s0
  unfold linkFrameBad
  repeat' first
    | with_reducible first
      | assumption
      | exact Same.refl _
      | (intro v)
      | (lift_lets; intro v; refine same_seq v ?_ fun hv => ?_; unfold v)
      | apply frameError_same
      | apply refFault_same
      | (apply foldl_same; rotate_left; intro _ _)
    | split

theorem linkWallFrame_same (ns : Nat) (s : State) {s0 : State} (h0 : Same s0 s) : Same s0 (linkWallFrame ns s) := by
  refine h0.trans ?_; clear h0 s0
  unfold linkWallFrame
  repeat' first
    | with_reducible first
      | assumption
      | exact Same.refl _
      | (intro v; refine same_seq v ?_ fun hv => ?_; unfold v)
      | (intro v)
      | (lift_lets; intro v)
      | apply wallPair_same
      | apply wallStep_same
    | split
    | (with_reducible apply same_mk; rotate_left; rfl; rfl; rfl)

theorem linkFrameIn_same (f : List Byte) (s : State) {s0 : State} (h0 : Same s0 s) : Same s0 (linkFrameIn f s) := by
  refine h0.trans ?_; clear h0 s0
  unfold linkFrameIn
  repeat' first
    | with_reducible first
      | assumption
      | exact Same.refl _
      | (intro v)
      | (lift_lets; intro v)
      | apply linkFrameBad_same
      | apply linkWallFrame_same
    | split
    | (with_reducible apply same_mk; rotate_left; rfl; rfl; rfl)

theorem linkBit_same (b : Bool) (s : State) {s0 : State} (h0 : Same s0 s) : Same s0 (linkBit b s) := by
  refine h0.trans ?_; clear h0 s0
  unfold linkBit
  repeat' first
    | with_reducible first
      | assumption
      | exact Same.refl _
      | (intro v)
      | (lift_lets; intro v)
      | apply frameError_same
      | apply linkFrameIn_same
    | split
    | (with_reducible apply same_mk; rotate_left; rfl; rfl; rfl)

theorem linkRestart_same (s : State) {s0 : State} (h0 : Same s0 s) : Same s0 (linkRestart s) := by
  refine h0.trans ?_; clear h0 s0
  unfold linkRestart
  repeat' first
    | with_reducible first
      | assumption
      | exact Same.refl _
      | apply refLoss_same
      | (apply foldl_same; rotate_left; intro _ _)
    | split

theorem angLoad_same (k : Nat) (r : Req) (s : State) {s0 : State} (h0 : Same s0 s) : Same s0 (angLoad k r s) := by
  refine h0.trans ?_; clear h0 s0
  unfold angLoad
  repeat' first
    | with_reducible first
      | assumption
      | exact Same.refl _
      | (intro v; refine same_seq v ?_ fun hv => ?_; unfold v)
      | (intro v)
      | (lift_lets; intro v)
      | apply State.setReg_same

theorem coreAngConfig_same (r : Req) (s : State) : ResSame s (coreAngConfig r s) := by
  unfold coreAngConfig
  repeat' first
    | with_reducible first
      | assumption
      | exact Same.refl _
      | exact resSame_refuse trivial
      | apply resSame_commit
      | (intro v)
      | (lift_lets; intro v)
      | apply angLoad_same
    | split

theorem execAngConfig_same (mb : Fin 8) (s : State) : OutSame s (execAngConfig mb s) := by
  exact runOp_same _ _ _ s fun r => coreAngConfig_same r s

theorem coreAngEnable_same (r : Req) (s : State) : ResSame s (coreAngEnable r s) := by
  unfold coreAngEnable
  repeat' first
    | with_reducible first
      | assumption
      | exact Same.refl _
      | exact resSame_refuse trivial
      | apply resSame_commit
      | (intro v)
      | (lift_lets; intro v)
      | apply angOff_same
      | apply angOn_same
    | split

theorem execAngEnable_same (mb : Fin 8) (s : State) : OutSame s (execAngEnable mb s) := by
  exact runOp_same _ _ _ s fun r => coreAngEnable_same r s

theorem coreAngStatus_same (r : Req) (s : State) : ResSame s (coreAngStatus r s) := by
  unfold coreAngStatus
  repeat' first
    | with_reducible first
      | assumption
      | exact Same.refl _
      | exact resSame_query trivial

theorem execAngStatus_same (mb : Fin 8) (s : State) : OutSame s (execAngStatus mb s) := by
  exact runOp_same _ _ _ s fun r => coreAngStatus_same r s

theorem coreTimeSet_same (r : Req) (s : State) : ResSame s (coreTimeSet r s) := by
  unfold coreTimeSet
  repeat' first
    | with_reducible first
      | assumption
      | exact Same.refl _
      | exact resSame_refuse trivial
      | apply resSame_commit
      | (intro v; refine seq_same s v ?_ fun hv => ?_; unfold v)
      | (intro v)
      | (lift_lets; intro v)
      | apply wallPair_same
      | apply wallStep_same
    | split
    | (with_reducible apply same_mk; rotate_left; rfl; rfl; rfl)

theorem execTimeSet_same (mb : Fin 8) (s : State) : OutSame s (execTimeSet mb s) := by
  exact runOp_same _ _ _ s fun r => coreTimeSet_same r s

theorem coreTimeAdjust_same (r : Req) (s : State) : ResSame s (coreTimeAdjust r s) := by
  unfold coreTimeAdjust
  repeat' first
    | with_reducible first
      | assumption
      | exact Same.refl _
      | exact resSame_refuse trivial
      | apply resSame_commit
      | (intro v)
      | (lift_lets; intro v)
    | split
    | (with_reducible apply same_mk; rotate_left; rfl; rfl; rfl)

theorem execTimeAdjust_same (mb : Fin 8) (s : State) : OutSame s (execTimeAdjust mb s) := by
  exact runOp_same _ _ _ s fun r => coreTimeAdjust_same r s

theorem coreTimeDisc_same (r : Req) (s : State) : ResSame s (coreTimeDisc r s) := by
  unfold coreTimeDisc
  repeat' first
    | with_reducible first
      | assumption
      | exact Same.refl _
      | exact resSame_refuse trivial
      | apply resSame_commit
      | (intro v; refine seq_same s v ?_ fun hv => ?_; unfold v)
      | (intro v)
      | (lift_lets; intro v)
      | apply State.setReg_same
      | apply wallOff_same
      | apply wallOn_same
    | split

theorem execTimeDisc_same (mb : Fin 8) (s : State) : OutSame s (execTimeDisc mb s) := by
  exact runOp_same _ _ _ s fun r => coreTimeDisc_same r s

theorem corePhaseSet_same (r : Req) (s : State) : ResSame s (corePhaseSet r s) := by
  unfold corePhaseSet
  repeat' first
    | with_reducible first
      | assumption
      | exact Same.refl _
      | exact resSame_refuse trivial
      | apply resSame_commit
      | (intro v; refine seq_same s v ?_ fun hv => ?_; unfold v)
      | (intro v)
      | (lift_lets; intro v)
      | apply State.setReg_same
      | apply phoOff_same
      | apply phoOn_same
    | split

theorem execPhaseSet_same (mb : Fin 8) (s : State) : OutSame s (execPhaseSet mb s) := by
  exact runOp_same _ _ _ s fun r => corePhaseSet_same r s

theorem postWrite_same (dom : Nat) (off : Nat) (val : Nat) (s : State) {s0 : State} (h0 : Same s0 s) : Same s0 (postWrite dom off val s) := by
  refine h0.trans ?_; clear h0 s0
  unfold postWrite
  repeat' first
    | with_reducible first
      | assumption
      | exact Same.refl _
    | (with_reducible apply same_mk; rotate_left; rfl; rfl; rfl)

theorem corePhasePsync_same (r : Req) (s : State) : ResSame s (corePhasePsync r s) := by
  unfold corePhasePsync
  repeat' first
    | with_reducible first
      | assumption
      | exact Same.refl _
      | exact resSame_refuse trivial
      | apply resSame_commit
      | (intro v)
      | (lift_lets; intro v)
      | apply postWrite_same
    | split

theorem execPhasePsync_same (mb : Fin 8) (s : State) : OutSame s (execPhasePsync mb s) := by
  exact runOp_same _ _ _ s fun r => corePhasePsync_same r s

theorem corePhaseCapture_same (r : Req) (s : State) : ResSame s (corePhaseCapture r s) := by
  unfold corePhaseCapture
  repeat' first
    | with_reducible first
      | assumption
      | exact Same.refl _
      | exact resSame_refuse trivial
      | apply resSame_commit
      | (intro v)
      | (lift_lets; intro v)
      | apply State.setReg_same
    | split

theorem execPhaseCapture_same (mb : Fin 8) (s : State) : OutSame s (execPhaseCapture mb s) := by
  exact runOp_same _ _ _ s fun r => corePhaseCapture_same r s

theorem corePhaseLink_same (r : Req) (s : State) : ResSame s (corePhaseLink r s) := by
  unfold corePhaseLink
  repeat' first
    | with_reducible first
      | assumption
      | exact Same.refl _
      | exact resSame_refuse trivial
      | apply resSame_commit
      | (intro v; refine seq_same s v ?_ fun hv => ?_; unfold v)
      | (intro v)
      | (lift_lets; intro v)
      | apply State.setFld_same
      | apply State.setReg_same
      | apply linkRestart_same
    | split

theorem execPhaseLink_same (mb : Fin 8) (s : State) : OutSame s (execPhaseLink mb s) := by
  exact runOp_same _ _ _ s fun r => corePhaseLink_same r s

theorem execReferenceEvent_same (k : Fin 4) (chg : PinChange) (s : State) : OutSame s (execReferenceEvent k chg s) := by
  unfold execReferenceEvent
  repeat' first
    | with_reducible first
      | assumption
      | exact Same.refl _
      | apply outSame_next
      | (intro v; refine seq_same s v ?_ fun hv => ?_; unfold v)
      | (intro v)
      | (lift_lets; intro v)
      | refine OutSame.out ?_ _ ‹_ = Host.Outcome.next _›
      | apply State.incFld_same
      | apply State.setAng_same
      | apply State.waitUntil_same
      | apply edgeRate_same
      | apply refEvent_same
      | apply refFault_same
      | apply reverseOn_same
      | apply track_same
    | split
    | (clear_value *; split)

theorem indexSeen_same (k : Nat) (s : State) {s0 : State} (h0 : Same s0 s) : Same s0 (indexSeen k s) := by
  refine h0.trans ?_; clear h0 s0
  unfold indexSeen
  repeat' first
    | with_reducible first
      | assumption
      | exact Same.refl _
      | (intro v; refine same_seq v ?_ fun hv => ?_; unfold v)
      | (intro v)
      | (lift_lets; intro v)
      | apply State.incFld_same
      | apply State.setAng_same
      | apply refFault_same
    | split

theorem execIndexEdge_same (k : Fin 4) (m : Fin 8) (after : Nat) (hold : Nat) (rising : Bool) (s : State) : OutSame s (execIndexEdge k m after hold rising s) := by
  unfold execIndexEdge
  repeat' first
    | with_reducible first
      | assumption
      | exact Same.refl _
      | apply outSame_next
      | (intro v)
      | (lift_lets; intro v; refine seq_same s v ?_ fun hv => ?_; unfold v)
      | apply State.incFld_same
      | apply State.waitUntil_same
      | apply indexSeen_same
    | split

theorem execReverse_same (k : Fin 4) (aLeads : Bool) (s : State) : OutSame s (execReverse k aLeads s) := by
  unfold execReverse
  repeat' first
    | with_reducible first
      | assumption
      | exact Same.refl _
      | apply outSame_next
      | apply reverseOff_same
      | apply reverseOn_same
    | split

theorem execReferenceLoss_same (k : Fin 4) (s : State) : OutSame s (execReferenceLoss k s) := by
  unfold execReferenceLoss
  repeat' first
    | with_reducible first
      | assumption
      | exact Same.refl _
      | apply outSame_next
      | (intro v)
      | (lift_lets; intro v)
      | apply State.waitUntil_same
      | apply refLoss_same
    | split

theorem wallHoldEnd_same (s : State) {s0 : State} (h0 : Same s0 s) : Same s0 (wallHoldEnd s) := by
  refine h0.trans ?_; clear h0 s0
  unfold wallHoldEnd
  repeat' first
    | with_reducible first
      | assumption
      | exact Same.refl _
      | apply State.waitUntil_same
      | apply wallState_same
    | split

theorem execHoldLimExpiry_same (tb : Fin 5) (s : State) : OutSame s (execHoldLimExpiry tb s) := by
  unfold execHoldLimExpiry
  repeat' first
    | with_reducible first
      | assumption
      | exact Same.refl _
      | apply outSame_next
      | (intro v)
      | (lift_lets; intro v)
      | apply State.waitUntil_same
      | apply angState_same
      | apply wallHoldEnd_same
    | split

theorem execCycleWrap_same (k : Fin 4) (s : State) : OutSame s (execCycleWrap k s) := by
  unfold execCycleWrap
  repeat' first
    | with_reducible first
      | assumption
      | exact Same.refl _
      | apply outSame_next
      | refine optSame_out ‹_ = some _› ?_
      | refine OutSame.out ?_ _ ‹_ = Host.Outcome.next _›
      | apply State.reach_same
    | split

theorem execAnchorPeriodic_same (tb : Fin 5) (s : State) : OutSame s (execAnchorPeriodic tb s) := by
  unfold execAnchorPeriodic
  repeat' first
    | with_reducible first
      | assumption
      | exact Same.refl _
      | apply outSame_next
      | (intro v; refine seq_same s v ?_ fun hv => ?_; unfold v)
      | (intro v)
      | (lift_lets; intro v)
      | apply State.reach_same
      | apply anchor_same
      | (apply optSame_getD; rotate_left)
    | split
    | (with_reducible apply same_mk; rotate_left; rfl; rfl; rfl)

theorem timeSetFirst_same (s : State) {s0 : State} (h0 : Same s0 s) : Same s0 (timeSetFirst s) := by
  refine h0.trans ?_; clear h0 s0
  unfold timeSetFirst
  repeat' first
    | with_reducible first
      | assumption
      | exact Same.refl _
      | refine OutSame.out ?_ _ ‹_ = Host.Outcome.next _›
      | apply coreTimeSet_same
      | (apply foldl_same; rotate_left; intro _ _)
      | (apply runOp_same; intro _)
    | split

theorem execWallDisciplineEdge_same (after : Nat) (rising : Bool) (s : State) : OutSame s (execWallDisciplineEdge after rising s) := by
  unfold execWallDisciplineEdge
  repeat' first
    | with_reducible first
      | assumption
      | exact Same.refl _
      | apply outSame_next
      | (intro v)
      | (lift_lets; intro v; refine seq_same s v ?_ fun hv => ?_; unfold v)
      | apply State.waitUntil_same
      | apply timeSetFirst_same
      | apply wallEdge_same
    | split

theorem execWallHoldover_same (s : State) : OutSame s (execWallHoldover s) := by
  unfold execWallHoldover
  repeat' first
    | with_reducible first
      | assumption
      | exact Same.refl _
      | apply outSame_next
      | (intro v)
      | (lift_lets; intro v)
      | apply State.waitUntil_same
      | apply wallHoldEnd_same
      | apply wallState_same
    | split

theorem execWallSlewEnd_same (s : State) : OutSame s (execWallSlewEnd s) := by
  unfold execWallSlewEnd
  repeat' first
    | with_reducible first
      | assumption
      | exact Same.refl _
      | apply outSame_next
      | apply State.elapse_same

theorem linkPulse_same (s : State) (x : LinkPulse) {s0 : State} (h0 : Same s0 s) : Same s0 (linkPulse s x) := by
  refine h0.trans ?_; clear h0 s0
  unfold linkPulse
  repeat' first
    | with_reducible first
      | assumption
      | exact Same.refl _
      | (intro v; refine same_seq v ?_ fun hv => ?_; unfold v)
      | (intro v)
      | (lift_lets; intro v)
      | apply State.waitUntil_same
      | apply frameError_same
      | apply linkBit_same
      | apply linkCycleMark_same
      | apply linkSecondMark_same
      | apply timeSetFirst_same
      | apply track_same
      | (apply foldl_same; rotate_left; intro _ _)
    | split
    | (clear_value *; split)
    | (with_reducible apply same_mk; rotate_left; rfl; rfl; rfl)

theorem execLinkMark_same (pulse : LinkPulse) (s : State) : OutSame s (execLinkMark pulse s) := by
  unfold execLinkMark
  repeat' first
    | with_reducible first
      | assumption
      | exact Same.refl _
      | apply outSame_next
      | apply linkPulse_same

theorem execLinkFrame_same (pulses : List LinkPulse) (s : State) : OutSame s (execLinkFrame pulses s) := by
  unfold execLinkFrame
  repeat' first
    | with_reducible first
      | assumption
      | exact Same.refl _
      | apply outSame_next
      | apply linkPulse_same
      | (apply foldl_same; rotate_left; intro _ _)

theorem execLinkTransmit_same (s : State) : OutSame s (execLinkTransmit s) := by
  unfold execLinkTransmit
  repeat' first
    | with_reducible first
      | assumption
      | exact Same.refl _
      | apply outSame_next
      | (intro v)
      | (lift_lets; intro v)
    | split
    | (with_reducible apply same_mk; rotate_left; rfl; rfl; rfl)

theorem pcapGlitch_same (m : Nat) (s : State) {s0 : State} (h0 : Same s0 s) : Same s0 (pcapGlitch m s) := by
  refine h0.trans ?_; clear h0 s0
  unfold pcapGlitch
  repeat' first
    | with_reducible first
      | assumption
      | exact Same.refl _
      | (intro v)
      | (lift_lets; intro v)
      | apply State.incFld_same
    | split

theorem execCaptureEdge_same (m : Fin 8) (after : Nat) (hold : Nat) (rising : Bool) (s : State) : OutSame s (execCaptureEdge m after hold rising s) := by
  unfold execCaptureEdge
  repeat' first
    | with_reducible first
      | assumption
      | exact Same.refl _
      | apply outSame_next
      | (intro v)
      | (lift_lets; intro v; refine seq_same s v ?_ fun hv => ?_; unfold v)
      | apply State.waitUntil_same
      | apply capture_same
      | apply pcapGlitch_same
    | split

theorem execPhaseOutputTarget_same (n : Fin 16) (s : State) : OutSame s (execPhaseOutputTarget n s) := by
  unfold execPhaseOutputTarget
  repeat' first
    | with_reducible first
      | assumption
      | exact Same.refl _
      | apply outSame_next
      | (intro v)
      | (lift_lets; intro v)
      | refine OutSame.out ?_ _ ‹_ = Host.Outcome.next _›
      | apply State.setPho_same
      | apply State.waitUntil_same
      | apply phoFire_same
    | split

theorem execPsyncTarget_same (p : Port) (s : State) : OutSame s (execPsyncTarget p s) := by
  unfold execPsyncTarget
  repeat' first
    | with_reducible first
      | assumption
      | exact Same.refl _
      | apply outSame_next
      | (intro v)
      | (lift_lets; intro v)
      | refine OutSame.out ?_ _ ‹_ = Host.Outcome.next _›
      | apply State.waitUntil_same
      | apply psyncFire_same
    | split

end Sys2Proof.Machine
end

