-- ==== Sys2Proof/Laws/KeepPorts.lean ====
section
/-!
SUPPORT. The rows of the ports keep the queue, the part and the lock bits.
-/

namespace Sys2Proof.Machine

theorem startReset_same (p : Nat) (who : Nat) (s : State) {s0 : State} (h0 : Same s0 s) : Same s0 (startReset p who s) := by
  refine h0.trans ?_; clear h0 s0
  unfold startReset
  repeat' first
    | with_reducible first
      | assumption
      | exact Same.refl _
      | (intro v)
      | (lift_lets; intro v; refine same_seq v ?_ fun hv => ?_; unfold v)
      | apply State.modUsb_same
      | apply activateHeld_same
      | apply completeWhere_same
      | apply setPortState_same
      | apply wireDrop_same

theorem startResume_same (p : Nat) (s : State) {s0 : State} (h0 : Same s0 s) : Same s0 (startResume p s) := by
  refine h0.trans ?_; clear h0 s0
  unfold startResume
  repeat' first
    | with_reducible first
      | assumption
      | exact Same.refl _
      | apply State.modUsb_same
    | split

theorem unprepareDom_same (d : Nat) (s : State) {s0 : State} (h0 : Same s0 s) : Same s0 (unprepareDom d s) := by
  refine h0.trans ?_; clear h0 s0
  unfold unprepareDom
  repeat' first
    | with_reducible first
      | assumption
      | exact Same.refl _
      | (intro v; refine same_seq v ?_ fun hv => ?_; unfold v)
      | (intro v)
      | (lift_lets; intro v)
      | apply State.modUsb_same
      | apply startResume_same
      | (apply foldl_same; rotate_left; intro _ _)
    | split

theorem padHold_same (d : Nat) (on : Bool) (s : State) {s0 : State} (h0 : Same s0 s) : Same s0 (padHold d on s) := by
  refine h0.trans ?_; clear h0 s0
  unfold padHold
  repeat' first
    | with_reducible first
      | assumption
      | exact Same.refl _
      | (intro v; refine same_seq v ?_ fun hv => ?_; unfold v)
      | (intro v)
      | (lift_lets; intro v)
      | apply raiseEvent_same
    | split
    | (with_reducible apply same_mk; rotate_left; rfl; rfl; rfl)

theorem vcoreAsk_same (mv : Nat) (s : State) {s0 : State} (h0 : Same s0 s) : Same s0 (vcoreAsk mv s) := by
  refine h0.trans ?_; clear h0 s0
  unfold vcoreAsk
  repeat' first
    | with_reducible first
      | assumption
      | exact Same.refl _
    | split
    | (with_reducible apply same_mk; rotate_left; rfl; rfl; rfl)

theorem abandonEntry_same (d : Nat) (src : Nat) (s : State) {s0 : State} (h0 : Same s0 s) : Same s0 (abandonEntry d src s) := by
  refine h0.trans ?_; clear h0 s0
  unfold abandonEntry
  repeat' first
    | with_reducible first
      | assumption
      | exact Same.refl _
      | apply abandonAt_same
      | apply padHold_same
      | apply unprepareDom_same
    | split

theorem beginWake_same (d : Nat) (src : Nat) (at_ : Nat) (s : State) {s0 : State} (h0 : Same s0 s) : Same s0 (beginWake d src at_ s) := by
  refine h0.trans ?_; clear h0 s0
  unfold beginWake
  repeat' first
    | with_reducible first
      | assumption
      | exact Same.refl _
      | (intro v)
      | (lift_lets; intro v; refine same_seq v ?_ fun hv => ?_; unfold v)
      | apply vcoreAsk_same
      | apply wakeFrom_same
    | split

theorem domWake_same (d : Nat) (src : Nat) (s : State) {s0 : State} (h0 : Same s0 s) : Same s0 (domWake d src s) := by
  refine h0.trans ?_; clear h0 s0
  unfold domWake
  repeat' first
    | with_reducible first
      | assumption
      | exact Same.refl _
      | (intro v; refine same_seq v ?_ fun hv => ?_; unfold v)
      | (intro v)
      | (lift_lets; intro v)
      | apply State.setDom_same
      | apply abandonEntry_same
      | apply beginWake_same
    | split

theorem wakeAll_same (src : Nat) (s : State) {s0 : State} (h0 : Same s0 s) : Same s0 (wakeAll src s) := by
  refine h0.trans ?_; clear h0 s0
  unfold wakeAll
  repeat' first
    | with_reducible first
      | assumption
      | exact Same.refl _
      | apply domWake_same
      | (apply foldl_same; rotate_left; intro _ _)

theorem attachWake_same (p : Nat) (s : State) {s0 : State} (h0 : Same s0 s) : Same s0 (attachWake p s) := by
  refine h0.trans ?_; clear h0 s0
  unfold attachWake
  repeat' first
    | with_reducible first
      | assumption
      | exact Same.refl _
      | apply domWake_same
      | (apply foldl_same; rotate_left; intro _ _)

theorem connectWake_same (p : Nat) (s : State) {s0 : State} (h0 : Same s0 s) : Same s0 (connectWake p s) := by
  refine h0.trans ?_; clear h0 s0
  unfold connectWake
  repeat' first
    | with_reducible first
      | assumption
      | exact Same.refl _
      | apply domWake_same
    | split

theorem strikeTest_same (p : Nat) (counts : Bool) (s : State) {s0 : State} (h0 : Same s0 s) : Same s0 (strikeTest p counts s) := by
  refine h0.trans ?_; clear h0 s0
  unfold strikeTest
  repeat' first
    | with_reducible first
      | assumption
      | exact Same.refl _
      | (intro v)
      | (lift_lets; intro v)
      | apply faultPulse_same
    | split
    | (with_reducible apply same_mk; rotate_left; rfl; rfl; rfl)

theorem noteRecovery_same (p : Nat) (s : State) {s0 : State} (h0 : Same s0 s) : Same s0 (noteRecovery p s) := by
  refine h0.trans ?_; clear h0 s0
  unfold noteRecovery
  repeat' first
    | with_reducible first
      | assumption
      | exact Same.refl _
      | apply State.modUsb_same

theorem switchMode_same (p : Nat) (transp : Bool) (s : State) {s0 : State} (h0 : Same s0 s) : Same s0 (switchMode p transp s) := by
  refine h0.trans ?_; clear h0 s0
  unfold switchMode
  repeat' first
    | with_reducible first
      | assumption
      | exact Same.refl _
      | (intro v)
      | (lift_lets; intro v; refine same_seq v ?_ fun hv => ?_; unfold v)
      | apply State.modUsb_same
      | apply overClear_same
      | apply raiseEvent_same
      | apply startReset_same
      | apply stepsOver_same
      | apply toTransparent_same
    | split
    | (with_reducible apply same_mk; rotate_left; rfl; rfl; rfl)

theorem sessionCut_same (cause : Nat) (s : State) {s0 : State} (h0 : Same s0 s) : Same s0 (sessionCut cause s) := by
  refine h0.trans ?_; clear h0 s0
  unfold sessionCut
  repeat' first
    | with_reducible first
      | assumption
      | exact Same.refl _
      | apply raiseEvent_same
    | (with_reducible apply same_mk; rotate_left; rfl; rfl; rfl)

theorem hubDefault_same (s : State) {s0 : State} (h0 : Same s0 s) : Same s0 (hubDefault s) := by
  refine h0.trans ?_; clear h0 s0
  unfold hubDefault
  repeat' first
    | with_reducible first
      | assumption
      | exact Same.refl _
      | (intro v; refine same_seq v ?_ fun hv => ?_; unfold v)
      | (intro v)
      | (lift_lets; intro v)
      | apply State.modUsb_same
      | apply setPortState_same
      | (apply foldl_same; rotate_left; intro _ _)
    | split
    | (with_reducible apply same_mk; rotate_left; rfl; rfl; rfl)

theorem sampleOc_same (s : State) {s0 : State} (h0 : Same s0 s) : Same s0 (sampleOc s) := by
  refine h0.trans ?_; clear h0 s0
  unfold sampleOc
  repeat' first
    | with_reducible first
      | assumption
      | exact Same.refl _
    | (with_reducible apply same_mk; rotate_left; rfl; rfl; rfl)

theorem portFrontOff_same (p : Nat) (s : State) {s0 : State} (h0 : Same s0 s) : Same s0 (portFrontOff p s) := by
  refine h0.trans ?_; clear h0 s0
  unfold portFrontOff
  repeat' first
    | with_reducible first
      | assumption
      | exact Same.refl _
      | apply State.modUsb_same
      | apply frontStop_same
    | split

theorem portFrontOn_same (p : Nat) (s : State) {s0 : State} (h0 : Same s0 s) : Same s0 (portFrontOn p s) := by
  refine h0.trans ?_; clear h0 s0
  unfold portFrontOn
  repeat' first
    | with_reducible first
      | assumption
      | exact Same.refl _
      | apply State.modUsb_same

theorem corePortMode_same (r : Req) (s : State) : ResSame s (corePortMode r s) := by
  unfold corePortMode
  repeat' first
    | with_reducible first
      | assumption
      | exact Same.refl _
      | exact resSame_refuse trivial
      | apply resSame_commit
      | apply resSame_commitWait
      | (intro v)
      | (lift_lets; intro v)
      | apply switchMode_same
    | split

theorem execPortMode_same (mb : Fin 8) (s : State) : OutSame s (execPortMode mb s) := by
  exact runOp_same _ _ _ s fun r => corePortMode_same r s

theorem corePortReset_same (r : Req) (s : State) : ResSame s (corePortReset r s) := by
  unfold corePortReset
  repeat' first
    | with_reducible first
      | assumption
      | exact Same.refl _
      | exact resSame_refuse trivial
      | apply resSame_commitWait
      | (intro v)
      | (lift_lets; intro v)
      | apply ctrlEnd_same
      | apply startReset_same
      | (apply foldl_same; rotate_left; intro _ _)
    | split

theorem execPortReset_same (mb : Fin 8) (s : State) : OutSame s (execPortReset mb s) := by
  exact runOp_same _ _ _ s fun r => corePortReset_same r s

theorem corePortSuspend_same (r : Req) (s : State) : ResSame s (corePortSuspend r s) := by
  unfold corePortSuspend
  repeat' first
    | with_reducible first
      | assumption
      | exact Same.refl _
      | exact resSame_refuse trivial
      | apply resSame_commit
      | apply resSame_commitWait
      | (intro v)
      | (lift_lets; intro v)
      | apply setPortState_same
    | split

theorem execPortSuspend_same (mb : Fin 8) (s : State) : OutSame s (execPortSuspend mb s) := by
  exact runOp_same _ _ _ s fun r => corePortSuspend_same r s

theorem corePortResume_same (r : Req) (s : State) : ResSame s (corePortResume r s) := by
  unfold corePortResume
  repeat' first
    | with_reducible first
      | assumption
      | exact Same.refl _
      | exact resSame_refuse trivial
      | apply resSame_commit
      | apply resSame_commitWait
      | (intro v)
      | (lift_lets; intro v)
      | apply startResume_same
    | split

theorem execPortResume_same (mb : Fin 8) (s : State) : OutSame s (execPortResume mb s) := by
  exact runOp_same _ _ _ s fun r => corePortResume_same r s

theorem corePortStatus_same (r : Req) (s : State) : ResSame s (corePortStatus r s) := by
  unfold corePortStatus
  repeat' first
    | with_reducible first
      | assumption
      | exact Same.refl _
      | exact resSame_query trivial

theorem execPortStatus_same (mb : Fin 8) (s : State) : OutSame s (execPortStatus mb s) := by
  exact runOp_same _ _ _ s fun r => corePortStatus_same r s

theorem corePortCfg_same (r : Req) (s : State) : ResSame s (corePortCfg r s) := by
  unfold corePortCfg
  repeat' first
    | with_reducible first
      | assumption
      | exact Same.refl _
      | exact resSame_refuse trivial
      | apply resSame_commit
      | (intro v)
      | (lift_lets; intro v)
      | apply State.setReg_same
    | split

theorem execPortCfg_same (mb : Fin 8) (s : State) : OutSame s (execPortCfg mb s) := by
  exact runOp_same _ _ _ s fun r => corePortCfg_same r s

theorem embeddedReset_same (s : State) {s0 : State} (h0 : Same s0 s) : Same s0 (embeddedReset s) := by
  refine h0.trans ?_; clear h0 s0
  unfold embeddedReset
  repeat' first
    | with_reducible first
      | assumption
      | exact Same.refl _
      | apply sessionCut_same
    | (with_reducible apply same_mk; rotate_left; rfl; rfl; rfl)

theorem execSetPortFeaturePortReset_same (h : HubPort) (s : State) : OutSame s (execSetPortFeaturePortReset h s) := by
  unfold execSetPortFeaturePortReset
  repeat' first
    | with_reducible first
      | assumption
      | exact Same.refl _
      | apply outSame_next
      | refine OutSame.out ?_ _ ‹_ = Host.Outcome.next _›
      | apply embeddedReset_same
      | apply startReset_same
    | split

theorem execSetPortFeaturePortSuspend_same (h : HubPort) (s : State) : OutSame s (execSetPortFeaturePortSuspend h s) := by
  unfold execSetPortFeaturePortSuspend
  repeat' first
    | with_reducible first
      | assumption
      | exact Same.refl _
      | apply outSame_next
      | refine OutSame.out ?_ _ ‹_ = Host.Outcome.next _›
      | apply State.modUsb_same
      | apply setPortState_same
      | apply wireDrop_same
    | split
    | (with_reducible apply same_mk; rotate_left; rfl; rfl; rfl)

theorem execClearPortFeaturePortSuspend_same (h : HubPort) (s : State) : OutSame s (execClearPortFeaturePortSuspend h s) := by
  unfold execClearPortFeaturePortSuspend
  repeat' first
    | with_reducible first
      | assumption
      | exact Same.refl _
      | apply outSame_next
      | refine OutSame.out ?_ _ ‹_ = Host.Outcome.next _›
      | apply startResume_same
    | split
    | (with_reducible apply same_mk; rotate_left; rfl; rfl; rfl)

theorem execClearPortFeaturePortEnable_same (h : HubPort) (s : State) : OutSame s (execClearPortFeaturePortEnable h s) := by
  unfold execClearPortFeaturePortEnable
  repeat' first
    | with_reducible first
      | assumption
      | exact Same.refl _
      | apply outSame_next
      | refine OutSame.out ?_ _ ‹_ = Host.Outcome.next _›
      | apply State.modUsb_same
      | apply setPortState_same
    | split

theorem execSetPortFeaturePortIndicator_same (h : HubPort) (sel : Fin 4) (s : State) : OutSame s (execSetPortFeaturePortIndicator h sel s) := by
  unfold execSetPortFeaturePortIndicator
  repeat' first
    | with_reducible first
      | assumption
      | exact Same.refl _
      | apply outSame_next
      | refine OutSame.out ?_ _ ‹_ = Host.Outcome.next _›
      | apply State.modUsb_same
    | split

theorem execSetPortFeaturePortTest_same (h : HubPort) (sel : Fin 6) (s : State) : OutSame s (execSetPortFeaturePortTest h sel s) := by
  unfold execSetPortFeaturePortTest
  repeat' first
    | with_reducible first
      | assumption
      | exact Same.refl _
      | apply outSame_next
      | refine OutSame.out ?_ _ ‹_ = Host.Outcome.next _›
      | apply State.modUsb_same
    | split

theorem execAlternateSettingChange_same (alt : Fin 2) (busy : Nat) (s : State) : OutSame s (execAlternateSettingChange alt busy s) := by
  unfold execAlternateSettingChange
  repeat' first
    | with_reducible first
      | assumption
      | exact Same.refl _
      | apply outSame_next
      | (intro v)
      | (lift_lets; intro v)
      | apply State.elapse_same
    | (with_reducible apply same_mk; rotate_left; rfl; rfl; rfl)

theorem execHubSetConfiguration_same (configured : Bool) (s : State) : OutSame s (execHubSetConfiguration configured s) := by
  unfold execHubSetConfiguration
  repeat' first
    | with_reducible first
      | assumption
      | exact Same.refl _
      | apply outSame_next
      | (intro v; refine seq_same s v ?_ fun hv => ?_; unfold v)
      | (intro v)
      | (lift_lets; intro v)
      | apply State.modUsb_same
      | apply hubChange_same
      | (apply foldl_same; rotate_left; intro _ _)
    | split
    | (with_reducible apply same_mk; rotate_left; rfl; rfl; rfl)

theorem execGlobalSuspend_same (rwake : Bool) (caside : Bool) (s : State) : OutSame s (execGlobalSuspend rwake caside s) := by
  unfold execGlobalSuspend
  repeat' first
    | with_reducible first
      | assumption
      | exact Same.refl _
      | apply outSame_next
      | apply setPortState_same
      | apply wireDrop_same
      | (apply foldl_same; rotate_left; intro _ _)
    | split
    | (with_reducible apply same_mk; rotate_left; rfl; rfl; rfl)

theorem execUpstreamResume_same (s : State) : OutSame s (execUpstreamResume s) := by
  unfold execUpstreamResume
  repeat' first
    | with_reducible first
      | assumption
      | exact Same.refl _
      | apply outSame_next
      | (intro v)
      | (lift_lets; intro v)
      | apply State.modUsb_same
      | apply hubChange_same
      | apply setPortState_same
      | (apply foldl_same; rotate_left; intro _ _)
    | split
    | (with_reducible apply same_mk; rotate_left; rfl; rfl; rfl)

theorem execConnectSensed_same (p : Port) (pull : Pull) (s : State) : OutSame s (execConnectSensed p pull s) := by
  unfold execConnectSensed
  repeat' first
    | with_reducible first
      | assumption
      | exact Same.refl _
      | apply outSame_next
      | (intro v; refine seq_same s v ?_ fun hv => ?_; unfold v)
      | (intro v)
      | (lift_lets; intro v)
      | refine OutSame.out ?_ _ ‹_ = Host.Outcome.next _›
      | apply State.modUsb_same
      | apply connectWake_same
      | apply hubChange_same
      | apply setPortState_same
    | split

theorem execConnectDebounceEnd_same (p : Port) (s : State) : OutSame s (execConnectDebounceEnd p s) := by
  unfold execConnectDebounceEnd
  repeat' first
    | with_reducible first
      | assumption
      | exact Same.refl _
      | apply outSame_next
      | refine OutSame.out ?_ _ ‹_ = Host.Outcome.next _›
      | apply State.waitUntil_same
      | apply startReset_same
    | split

theorem execResetEnd_same (p : Port) (chirp : Chirp) (s : State) : OutSame s (execResetEnd p chirp s) := by
  unfold execResetEnd
  repeat' first
    | with_reducible first
      | assumption
      | exact Same.refl _
      | apply outSame_next
      | (intro v; refine seq_same s v ?_ fun hv => ?_; unfold v)
      | (intro v)
      | (lift_lets; intro v)
      | refine OutSame.out ?_ _ ‹_ = Host.Outcome.next _›
      | apply State.incFld_same
      | apply State.modUsb_same
      | apply State.setFlag_same
      | apply State.waitUntil_same
      | apply completeWhere_same
      | apply hubChange_same
      | apply raiseEvent_same
      | apply setPortState_same
    | split

theorem execUsbDisconnect_same (p : Port) (lost : DisconnectAt) (s : State) : OutSame s (execUsbDisconnect p lost s) := by
  unfold execUsbDisconnect
  repeat' first
    | with_reducible first
      | assumption
      | exact Same.refl _
      | apply outSame_next
      | (intro v; refine seq_same s v ?_ fun hv => ?_; unfold v)
      | (intro v)
      | (lift_lets; intro v)
      | refine OutSame.out ?_ _ ‹_ = Host.Outcome.next _›
      | apply State.incFld_same
      | apply State.modUsb_same
      | apply hubPortLost_same
      | apply portGone_same
      | apply setPortState_same
      | apply usbEnd_same
    | split

theorem execRemoteWake_same (p : Port) (s : State) : OutSame s (execRemoteWake p s) := by
  unfold execRemoteWake
  repeat' first
    | with_reducible first
      | assumption
      | exact Same.refl _
      | apply outSame_next
      | (intro v; refine seq_same s v ?_ fun hv => ?_; unfold v)
      | (intro v)
      | (lift_lets; intro v)
      | apply State.modUsb_same
      | apply connectWake_same
      | apply startResume_same
    | split
    | (with_reducible apply same_mk; rotate_left; rfl; rfl; rfl)

theorem execResumeEnd_same (p : Port) (s : State) : OutSame s (execResumeEnd p s) := by
  unfold execResumeEnd
  repeat' first
    | with_reducible first
      | assumption
      | exact Same.refl _
      | apply outSame_next
      | (intro v; refine seq_same s v ?_ fun hv => ?_; unfold v)
      | (intro v)
      | (lift_lets; intro v)
      | apply State.modUsb_same
      | apply State.setFlag_same
      | apply State.waitUntil_same
      | apply hubChange_same
      | apply raiseEvent_same
      | apply setPortState_same
    | split

theorem execResumeRecoveryEnd_same (p : Port) (s : State) : OutSame s (execResumeRecoveryEnd p s) := by
  unfold execResumeRecoveryEnd
  repeat' first
    | with_reducible first
      | assumption
      | exact Same.refl _
      | apply outSame_next
      | (intro v; refine seq_same s v ?_ fun hv => ?_; unfold v)
      | (intro v)
      | (lift_lets; intro v)
      | apply State.modUsb_same
      | apply State.waitUntil_same
      | apply activateHeld_same
      | apply completeWhere_same
    | split

theorem surgeError_same (p : Nat) (s : State) {s0 : State} (h0 : Same s0 s) : Same s0 (surgeError p s) := by
  refine h0.trans ?_; clear h0 s0
  unfold surgeError
  repeat' first
    | with_reducible first
      | assumption
      | exact Same.refl _
      | (intro v)
      | (lift_lets; intro v; refine same_seq v ?_ fun hv => ?_; unfold v)
      | apply State.modUsb_same
      | apply loopStop_same
      | apply portGone_same
      | apply setPortState_same
      | apply stepsOver_same
      | apply wireDrop_same

theorem execSurgeRecovery_same (p : Port) (s : State) : OutSame s (execSurgeRecovery p s) := by
  unfold execSurgeRecovery
  repeat' first
    | with_reducible first
      | assumption
      | exact Same.refl _
      | apply outSame_next
      | (intro v; refine seq_same s v ?_ fun hv => ?_; unfold v)
      | (intro v)
      | (lift_lets; intro v; refine seq_same s v ?_ fun hv => ?_; unfold v)
      | (lift_lets; intro v)
      | refine OutSame.out ?_ _ ‹_ = Host.Outcome.next _›
      | apply State.incFld_same
      | apply State.modUsb_same
      | apply State.waitUntil_same
      | apply ctrlEnd_same
      | apply hubChange_same
      | apply noteRecovery_same
      | apply setPortState_same
      | apply startReset_same
      | apply surgeError_same
      | (apply foldl_same; rotate_left; intro _ _)
    | split

theorem execBabble_same (p : Port) (s : State) : OutSame s (execBabble p s) := by
  unfold execBabble
  repeat' first
    | with_reducible first
      | assumption
      | exact Same.refl _
      | apply outSame_next
      | (intro v; refine seq_same s v ?_ fun hv => ?_; unfold v)
      | (intro v)
      | (lift_lets; intro v)
      | refine OutSame.out ?_ _ ‹_ = Host.Outcome.next _›
      | apply State.modUsb_same
      | apply State.setFlag_same
      | apply hubChange_same
      | apply portGone_same
      | apply raiseEvent_same
      | apply setPortState_same
      | apply wireDrop_same
    | split

theorem execBabbleReset_same (p : Port) (s : State) : OutSame s (execBabbleReset p s) := by
  unfold execBabbleReset
  repeat' first
    | with_reducible first
      | assumption
      | exact Same.refl _
      | apply outSame_next
      | (intro v; refine seq_same s v ?_ fun hv => ?_; unfold v)
      | (intro v)
      | (lift_lets; intro v; refine seq_same s v ?_ fun hv => ?_; unfold v)
      | (lift_lets; intro v)
      | refine OutSame.out ?_ _ ‹_ = Host.Outcome.next _›
      | apply State.modUsb_same
      | apply State.waitUntil_same
      | apply ctrlEnd_same
      | apply startReset_same
      | (apply foldl_same; rotate_left; intro _ _)
    | split

end Sys2Proof.Machine
end

