-- ==== Sys2Proof/Laws/KeepPower.lean ====
section
/-!
SUPPORT. The rows of port power keep the queue, the part and the lock bits.
-/

namespace Sys2Proof.Machine

theorem book_same (p : Nat) (r : Nat) (t : Nat) (s : State) {s0 : State} (h0 : Same s0 s) : OptSame s0 (book p r t s) := by
  refine optSame_trans h0 ?_; clear h0 s0
  unfold book
  repeat' first
    | with_reducible first
      | assumption
      | exact Same.refl _
      | apply optSame_some
      | apply State.modPw_same
      | (apply optSame_map; intro _)

theorem attachHeld_same (p : Nat) (reason : Nat) (s : State) {s0 : State} (h0 : Same s0 s) : Same s0 (attachHeld p reason s) := by
  refine h0.trans ?_; clear h0 s0
  unfold attachHeld
  repeat' first
    | with_reducible first
      | assumption
      | exact Same.refl _
      | apply raiseEvent_same

theorem requestGrant_same (p : Nat) (s : State) {s0 : State} (h0 : Same s0 s) : Same s0 (requestGrant p s) := by
  refine h0.trans ?_; clear h0 s0
  unfold requestGrant
  repeat' first
    | with_reducible first
      | assumption
      | exact Same.refl _
      | (intro v)
      | (lift_lets; intro v; refine same_seq v ?_ fun hv => ?_; unfold v)
      | apply askGrant_same
      | apply attachHeld_same
    | split

theorem resumeCheck_same (p : Nat) (s : State) {s0 : State} (h0 : Same s0 s) : Same s0 (resumeCheck p s) := by
  refine h0.trans ?_; clear h0 s0
  unfold resumeCheck
  repeat' first
    | with_reducible first
      | assumption
      | exact Same.refl _
      | apply State.modPd_same
    | split

theorem grantPort_same (p : Nat) (s : State) {s0 : State} (h0 : Same s0 s) : Same s0 (grantPort p s) := by
  refine h0.trans ?_; clear h0 s0
  unfold grantPort
  repeat' first
    | with_reducible first
      | assumption
      | exact Same.refl _
      | (intro v)
      | (lift_lets; intro v; refine same_seq v ?_ fun hv => ?_; unfold v)
      | (lift_lets; intro v)
      | refine optSame_out ‹_ = some _› ?_
      | apply State.modPw_same
      | apply book_same
    | split
    | (with_reducible apply same_mk; rotate_left; rfl; rfl; rfl)

theorem shedClass_same (c : Nat) (s : State) {s0 : State} (h0 : Same s0 s) : Same s0 (shedClass c s) := by
  refine h0.trans ?_; clear h0 s0
  unfold shedClass
  repeat' first
    | with_reducible first
      | assumption
      | exact Same.refl _
      | (intro v; refine same_seq v ?_ fun hv => ?_; unfold v)
      | (intro v)
      | (lift_lets; intro v)
      | apply State.modPw_same
      | apply attachHeld_same
      | apply powerOff_same
      | (apply foldl_same; rotate_left; intro _ _)
    | split
    | (with_reducible apply same_mk; rotate_left; rfl; rfl; rfl)

theorem coverCheck_same (s : State) {s0 : State} (h0 : Same s0 s) : Same s0 (coverCheck s) := by
  refine h0.trans ?_; clear h0 s0
  unfold coverCheck
  repeat' first
    | with_reducible first
      | assumption
      | exact Same.refl _
      | (intro v; refine same_seq v ?_ fun hv => ?_; unfold v)
      | (intro v)
      | (lift_lets; intro v)
    | split
    | (with_reducible apply same_mk; rotate_left; rfl; rfl; rfl)

theorem feedsSettle_same (old : State ) (s : State) {s0 : State} (h0 : Same s0 s) : Same s0 (feedsSettle old s) := by
  refine h0.trans ?_; clear h0 s0
  unfold feedsSettle
  repeat' first
    | with_reducible first
      | assumption
      | exact Same.refl _
      | (intro v)
      | (lift_lets; intro v)
      | apply State.setFeed_same
      | apply coverCheck_same
    | (with_reducible apply same_mk; rotate_left; rfl; rfl; rfl)

theorem gmgStuckAt_same (p : Nat) (s : State) {s0 : State} (h0 : Same s0 s) : Same s0 (gmgStuckAt p s) := by
  refine h0.trans ?_; clear h0 s0
  unfold gmgStuckAt
  repeat' first
    | with_reducible first
      | assumption
      | exact Same.refl _
      | (intro v)
      | (lift_lets; intro v; refine same_seq v ?_ fun hv => ?_; unfold v)
      | apply State.setFlag_same
      | apply gmgOff_same
      | apply groupGatesOff_same
      | apply raiseEvent_same
    | split

theorem gmgStuckOff_same (g : Nat) (s : State) {s0 : State} (h0 : Same s0 s) : Same s0 (gmgStuckOff g s) := by
  refine h0.trans ?_; clear h0 s0
  unfold gmgStuckOff
  repeat' first
    | with_reducible first
      | assumption
      | exact Same.refl _
      | apply gmgStuckAt_same
    | split

theorem groupReturn_same (g : Nat) (s : State) {s0 : State} (h0 : Same s0 s) : Same s0 (groupReturn g s) := by
  refine h0.trans ?_; clear h0 s0
  unfold groupReturn
  repeat' first
    | with_reducible first
      | assumption
      | exact Same.refl _
      | (intro v; refine same_seq v ?_ fun hv => ?_; unfold v)
      | (intro v)
      | (lift_lets; intro v)
      | apply State.modPw_same
      | apply gmgOn_same
      | apply requestGrant_same
      | (apply foldl_same; rotate_left; intro _ _)
    | split

theorem fuseOff_same (p : Nat) (s : State) {s0 : State} (h0 : Same s0 s) : Same s0 (fuseOff p s) := by
  refine h0.trans ?_; clear h0 s0
  unfold fuseOff
  repeat' first
    | with_reducible first
      | assumption
      | exact Same.refl _
      | (intro v; refine same_seq v ?_ fun hv => ?_; unfold v)
      | (intro v)
      | (lift_lets; intro v)
      | apply State.clrFlag_same
      | apply gatesOff_same
      | apply powerOff_same
      | apply releaseGrant_same
    | split

theorem fuseOn_same (p : Nat) (s : State) {s0 : State} (h0 : Same s0 s) : Same s0 (fuseOn p s) := by
  refine h0.trans ?_; clear h0 s0
  unfold fuseOn
  repeat' first
    | with_reducible first
      | assumption
      | exact Same.refl _
      | (intro v)
      | (lift_lets; intro v; refine same_seq v ?_ fun hv => ?_; unfold v)
      | apply State.setFlag_same
      | apply resumeCheck_same
    | split

theorem commandOff_same (p : Nat) (s : State) {s0 : State} (h0 : Same s0 s) : Same s0 (commandOff p s) := by
  refine h0.trans ?_; clear h0 s0
  unfold commandOff
  repeat' first
    | with_reducible first
      | assumption
      | exact Same.refl _
      | (intro v; refine same_seq v ?_ fun hv => ?_; unfold v)
      | (intro v)
      | (lift_lets; intro v)
      | apply State.modPd_same
      | apply gatesOff_same
      | apply powerOff_same
      | apply releaseGrant_same
    | split

theorem corePwrOn_same (r : Req) (s : State) : ResSame s (corePwrOn r s) := by
  unfold corePwrOn
  repeat' first
    | with_reducible first
      | assumption
      | exact Same.refl _
      | apply resSame_commit
      | (intro v; refine seq_same s v ?_ fun hv => ?_; unfold v)
      | (intro v)
      | (lift_lets; intro v)
      | apply State.modPw_same
      | apply resumeCheck_same
    | split

theorem execPwrOn_same (mb : Fin 8) (s : State) : OutSame s (execPwrOn mb s) := by
  exact runOp_same _ _ _ s fun r => corePwrOn_same r s

theorem corePwrOff_same (r : Req) (s : State) : ResSame s (corePwrOff r s) := by
  unfold corePwrOff
  repeat' first
    | with_reducible first
      | assumption
      | exact Same.refl _
      | exact resSame_refuse trivial
      | apply resSame_commit
      | (intro v)
      | (lift_lets; intro v)
      | apply State.modPw_same
      | apply commandOff_same
    | split

theorem execPwrOff_same (mb : Fin 8) (s : State) : OutSame s (execPwrOff mb s) := by
  exact runOp_same _ _ _ s fun r => corePwrOff_same r s

theorem corePwrClear_same (r : Req) (s : State) : ResSame s (corePwrClear r s) := by
  unfold corePwrClear
  repeat' first
    | with_reducible first
      | assumption
      | exact Same.refl _
      | exact resSame_refuse trivial
      | apply resSame_commit
      | (intro v; refine seq_same s v ?_ fun hv => ?_; unfold v)
      | (intro v)
      | (lift_lets; intro v)
      | apply State.modPw_same
      | apply groupReturn_same
      | apply portInput_same
      | apply raiseEvent_same
      | apply resumeCheck_same
      | apply setPortState_same
    | split

theorem execPwrClear_same (mb : Fin 8) (s : State) : OutSame s (execPwrClear mb s) := by
  exact runOp_same _ _ _ s fun r => corePwrClear_same r s

theorem corePwrCurve_same (r : Req) (s : State) : ResSame s (corePwrCurve r s) := by
  unfold corePwrCurve
  repeat' first
    | with_reducible first
      | assumption
      | exact Same.refl _
      | exact resSame_refuse trivial
      | apply resSame_commit
      | (intro v; refine seq_same s v ?_ fun hv => ?_; unfold v)
      | (intro v)
      | (lift_lets; intro v)
      | apply State.setFld_same
      | apply State.setReg_same
      | (apply foldl_same; rotate_left; intro _ _)
    | split

theorem execPwrCurve_same (mb : Fin 8) (s : State) : OutSame s (execPwrCurve mb s) := by
  exact runOp_same _ _ _ s fun r => corePwrCurve_same r s

theorem corePwrRails_same (r : Req) (s : State) : ResSame s (corePwrRails r s) := by
  unfold corePwrRails
  repeat' first
    | with_reducible first
      | assumption
      | exact Same.refl _
      | exact resSame_refuse trivial
      | apply resSame_commit
      | (intro v; refine seq_same s v ?_ fun hv => ?_; unfold v)
      | (intro v)
      | (lift_lets; intro v)
      | apply State.setFld_same
      | apply State.setReg_same
      | apply coverCheck_same
    | split
    | (with_reducible apply same_mk; rotate_left; rfl; rfl; rfl)

theorem execPwrRails_same (mb : Fin 8) (s : State) : OutSame s (execPwrRails mb s) := by
  exact runOp_same _ _ _ s fun r => corePwrRails_same r s

theorem corePwrPriority_same (r : Req) (s : State) : ResSame s (corePwrPriority r s) := by
  unfold corePwrPriority
  repeat' first
    | with_reducible first
      | assumption
      | exact Same.refl _
      | exact resSame_refuse trivial
      | apply resSame_commit
      | (intro v)
      | (lift_lets; intro v)
      | apply State.setFld_same
    | split

theorem execPwrPriority_same (mb : Fin 8) (s : State) : OutSame s (execPwrPriority mb s) := by
  exact runOp_same _ _ _ s fun r => corePwrPriority_same r s

theorem corePwrStagger_same (r : Req) (s : State) : ResSame s (corePwrStagger r s) := by
  unfold corePwrStagger
  repeat' first
    | with_reducible first
      | assumption
      | exact Same.refl _
      | exact resSame_refuse trivial
      | apply resSame_commit
      | (intro v)
      | (lift_lets; intro v)
      | apply State.setFld_same
    | split

theorem execPwrStagger_same (mb : Fin 8) (s : State) : OutSame s (execPwrStagger mb s) := by
  exact runOp_same _ _ _ s fun r => corePwrStagger_same r s

theorem corePwrStatus_same (r : Req) (s : State) : ResSame s (corePwrStatus r s) := by
  unfold corePwrStatus
  repeat' first
    | with_reducible first
      | assumption
      | exact Same.refl _
      | exact resSame_query trivial
      | (intro v)
      | (lift_lets; intro v)
    | split

theorem execPwrStatus_same (mb : Fin 8) (s : State) : OutSame s (execPwrStatus mb s) := by
  exact runOp_same _ _ _ s fun r => corePwrStatus_same r s

theorem execClearPortFeaturePortPower_same (h : HubPort) (s : State) : OutSame s (execClearPortFeaturePortPower h s) := by
  unfold execClearPortFeaturePortPower
  repeat' first
    | with_reducible first
      | assumption
      | exact Same.refl _
      | apply outSame_next
      | refine OutSame.out ?_ _ ‹_ = Host.Outcome.next _›
      | apply State.modUsb_same
      | apply commandOff_same
    | split

theorem execSetPortFeaturePortPower_same (h : HubPort) (s : State) : OutSame s (execSetPortFeaturePortPower h s) := by
  unfold execSetPortFeaturePortPower
  repeat' first
    | with_reducible first
      | assumption
      | exact Same.refl _
      | apply outSame_next
      | (intro v)
      | (lift_lets; intro v; refine seq_same s v ?_ fun hv => ?_; unfold v)
      | (lift_lets; intro v)
      | refine OutSame.out ?_ _ ‹_ = Host.Outcome.next _›
      | apply State.modUsb_same
      | apply resumeCheck_same
    | split

theorem grantFirst_same (p : Nat) (s : State) {s0 : State} (h0 : Same s0 s) : Same s0 (grantFirst p s) := by
  refine h0.trans ?_; clear h0 s0
  unfold grantFirst
  repeat' first
    | with_reducible first
      | assumption
      | exact Same.refl _
      | apply grantPort_same
    | split
    | (with_reducible apply same_mk; rotate_left; rfl; rfl; rfl)

theorem execBudgetGrant_same (p : Port) (s : State) : OutSame s (execBudgetGrant p s) := by
  unfold execBudgetGrant
  repeat' first
    | with_reducible first
      | assumption
      | exact Same.refl _
      | apply outSame_next
      | refine optSame_out ‹_ = some _› ?_
      | refine OutSame.out ?_ _ ‹_ = Host.Outcome.next _›
      | apply State.reach_same
      | apply grantFirst_same
    | split

theorem execStaggerSlotOpen_same (p : Port) (voMv : Nat) (s : State) : OutSame s (execStaggerSlotOpen p voMv s) := by
  unfold execStaggerSlotOpen
  lift_lets
  intro x l
  cases x.pw.booked with
  | none => exact outSame_next (Same.refl _)
  | some br =>
  obtain ⟨b, r⟩ := br
  dsimp -zeta only
  repeat' first
    | with_reducible first
      | assumption
      | exact Same.refl _
      | apply outSame_next
      | (intro v; refine seq_same s v ?_ fun hv => ?_; unfold v)
      | (intro v)
      | (lift_lets; intro v; refine seq_same s v ?_ fun hv => ?_; unfold v)
      | refine optSame_out ‹_ = some _› ?_
      | refine OutSame.out ?_ _ ‹_ = Host.Outcome.next _›
      | apply State.modPw_same
      | apply State.waitUntil_same
      | apply book_same
      | apply gmgOn_same
      | apply setPortState_same
      | (apply optSame_getD; rotate_left)
    | dsimp -zeta only
    | split

theorem execPowerGood_same (p : Port) (gateMv : Nat) (voMv : Nat) (railMv : Nat) (dropMv : Nat) (s : State) : OutSame s (execPowerGood p gateMv voMv railMv dropMv s) := by
  unfold execPowerGood
  repeat' first
    | with_reducible first
      | assumption
      | exact Same.refl _
      | apply outSame_next
      | (intro v; refine seq_same s v ?_ fun hv => ?_; unfold v)
      | (intro v)
      | (lift_lets; intro v)
      | refine OutSame.out ?_ _ ‹_ = Host.Outcome.next _›
      | apply State.modPw_same
      | apply State.setFlag_same
      | apply raiseEvent_same
      | apply setPortState_same
    | split

theorem execInrushFail_same (p : Port) (mA : Nat) (s : State) : OutSame s (execInrushFail p mA s) := by
  unfold execInrushFail
  repeat' first
    | with_reducible first
      | assumption
      | exact Same.refl _
      | apply outSame_next
      | (intro v)
      | (lift_lets; intro v)
      | apply State.waitUntil_same
      | apply trip_same
    | split

theorem execPgLost_same (p : Port) (voMv : Nat) (s : State) : OutSame s (execPgLost p voMv s) := by
  unfold execPgLost
  repeat' first
    | with_reducible first
      | assumption
      | exact Same.refl _
      | apply outSame_next
      | (intro v)
      | (lift_lets; intro v)
      | apply State.modPw_same
      | apply trip_same
    | split

theorem execItTrip_same (p : Port) (mA : Nat) (s : State) : OutSame s (execItTrip p mA s) := by
  unfold execItTrip
  repeat' first
    | with_reducible first
      | assumption
      | exact Same.refl _
      | apply outSame_next
      | (intro v)
      | (lift_lets; intro v)
      | refine OutSame.out ?_ _ ‹_ = Host.Outcome.next _›
      | apply State.elapse_same
      | apply State.modPw_same
      | apply gmgStuckAt_same
      | apply trip_same
    | split

theorem execFastTrip_same (p : Port) (mA : Nat) (s : State) : OutSame s (execFastTrip p mA s) := by
  unfold execFastTrip
  repeat' first
    | with_reducible first
      | assumption
      | exact Same.refl _
      | apply outSame_next
      | (intro v)
      | (lift_lets; intro v)
      | apply gmgStuckAt_same
      | apply trip_same
    | split

theorem execCooldownExpiry_same (p : Port) (s : State) : OutSame s (execCooldownExpiry p s) := by
  unfold execCooldownExpiry
  repeat' first
    | with_reducible first
      | assumption
      | exact Same.refl _
      | apply outSame_next
      | (intro v; refine seq_same s v ?_ fun hv => ?_; unfold v)
      | (intro v)
      | (lift_lets; intro v; refine seq_same s v ?_ fun hv => ?_; unfold v)
      | (lift_lets; intro v)
      | refine optSame_out ‹_ = some _› ?_
      | refine OutSame.out ?_ _ ‹_ = Host.Outcome.next _›
      | apply State.modPw_same
      | apply State.waitUntil_same
      | apply book_same
      | apply requestGrant_same
      | apply resumeCheck_same
      | apply setPortState_same
      | (apply optSame_getD; rotate_left)
    | split

theorem execLadderReset_same (p : Port) (s : State) : OutSame s (execLadderReset p s) := by
  unfold execLadderReset
  repeat' first
    | with_reducible first
      | assumption
      | exact Same.refl _
      | apply outSame_next
      | refine OutSame.out ?_ _ ‹_ = Host.Outcome.next _›
      | apply State.modPw_same
      | apply State.waitUntil_same
    | split

theorem execStuckOn_same (p : Port) (voMv : Nat) (s : State) : OutSame s (execStuckOn p voMv s) := by
  unfold execStuckOn
  repeat' first
    | with_reducible first
      | assumption
      | exact Same.refl _
      | apply outSame_next
      | (intro v; refine seq_same s v ?_ fun hv => ?_; unfold v)
      | (intro v)
      | (lift_lets; intro v)
      | apply State.modPw_same
      | apply faultHold_same
      | apply overCurrent_same
      | apply powerOff_same
      | apply raiseEvent_same
    | split

theorem execGmgStuck_same (g : Fin 6) (s : State) : OutSame s (execGmgStuck g s) := by
  unfold execGmgStuck
  repeat' first
    | with_reducible first
      | assumption
      | exact Same.refl _
      | apply outSame_next
      | apply gmgStuckOff_same

theorem execFetWarn_same (p : Port) (dropMv : Nat) (mA : Nat) (s : State) : OutSame s (execFetWarn p dropMv mA s) := by
  unfold execFetWarn
  repeat' first
    | with_reducible first
      | assumption
      | exact Same.refl _
      | apply outSame_next
      | (intro v; refine seq_same s v ?_ fun hv => ?_; unfold v)
      | (intro v)
      | (lift_lets; intro v)
      | apply State.modPw_same
      | apply State.setFlag_same
      | apply raiseEvent_same
    | split

theorem execFeedReverseOff_same (f : Fin 2) (s : State) : OutSame s (execFeedReverseOff f s) := by
  unfold execFeedReverseOff
  repeat' first
    | with_reducible first
      | assumption
      | exact Same.refl _
      | apply outSame_next
      | apply State.setFeed_same

theorem ovEnd_same (f : Nat) (s : State) {s0 : State} (h0 : Same s0 s) : Same s0 (ovEnd f s) := by
  refine h0.trans ?_; clear h0 s0
  unfold ovEnd
  repeat' first
    | with_reducible first
      | assumption
      | exact Same.refl _
      | apply State.setFeed_same
      | apply feedsSettle_same

theorem execFeedPresenceChange_same (f : Fin 2) (mv : Nat) (s : State) : OutSame s (execFeedPresenceChange f mv s) := by
  unfold execFeedPresenceChange
  repeat' first
    | with_reducible first
      | assumption
      | exact Same.refl _
      | apply outSame_next
      | (intro v)
      | (lift_lets; intro v)
      | apply State.elapse_same
      | apply State.setFeed_same
      | apply feedsSettle_same
      | apply ovEnd_same
      | apply raiseEvent_same
    | split
    | (with_reducible apply same_mk; rotate_left; rfl; rfl; rfl)

theorem execFeedOv_same (f : Fin 2) (mv : Nat) (s : State) : OutSame s (execFeedOv f mv s) := by
  unfold execFeedOv
  repeat' first
    | with_reducible first
      | assumption
      | exact Same.refl _
      | apply outSame_next
      | (intro v; refine seq_same s v ?_ fun hv => ?_; unfold v)
      | (intro v)
      | (lift_lets; intro v)
      | apply State.setFeed_same
      | apply faultPulse_same
      | apply raiseEvent_same
    | split

theorem reofferAll_same (s : State) {s0 : State} (h0 : Same s0 s) : Same s0 (reofferAll s) := by
  refine h0.trans ?_; clear h0 s0
  unfold reofferAll
  repeat' first
    | with_reducible first
      | assumption
      | exact Same.refl _
    | split
    | (with_reducible apply same_mk; rotate_left; rfl; rfl; rfl)

theorem execRailOutOfBand_same (r : Fin 2) (mv : Nat) (s : State) : OutSame s (execRailOutOfBand r mv s) := by
  unfold execRailOutOfBand
  repeat' first
    | with_reducible first
      | assumption
      | exact Same.refl _
      | apply outSame_next
      | (intro v; refine seq_same s v ?_ fun hv => ?_; unfold v)
      | (intro v)
      | (lift_lets; intro v)
      | apply State.setRail_same
      | apply faultPulse_same
      | apply raiseEvent_same
      | apply reofferAll_same
    | split

theorem execRailInBand_same (r : Fin 2) (mv : Nat) (s : State) : OutSame s (execRailInBand r mv s) := by
  unfold execRailInBand
  repeat' first
    | with_reducible first
      | assumption
      | exact Same.refl _
      | apply outSame_next
      | (intro v; refine seq_same s v ?_ fun hv => ?_; unfold v)
      | (intro v)
      | (lift_lets; intro v)
      | apply State.setRail_same
      | apply raiseEvent_same
      | apply reofferAll_same
    | split

theorem execRailPowerRemoval_same (r : Fin 2) (s : State) : OutSame s (execRailPowerRemoval r s) := by
  unfold execRailPowerRemoval
  repeat' first
    | with_reducible first
      | assumption
      | exact Same.refl _
      | apply outSame_next
      | (intro v; refine seq_same s v ?_ fun hv => ?_; unfold v)
      | (intro v)
      | (lift_lets; intro v)
      | apply State.modPw_same
      | apply State.setRail_same
      | apply State.waitUntil_same
      | apply powerOff_same
      | (apply foldl_same; rotate_left; intro _ _)
    | split

theorem execRailRestore_same (r : Fin 2) (s : State) : OutSame s (execRailRestore r s) := by
  unfold execRailRestore
  repeat' first
    | with_reducible first
      | assumption
      | exact Same.refl _
      | apply outSame_next
      | (intro v; refine seq_same s v ?_ fun hv => ?_; unfold v)
      | (intro v)
      | (lift_lets; intro v; refine same_seq v ?_ fun hv => ?_; unfold v)
      | (lift_lets; intro v)
      | apply State.modPw_same
      | apply State.setRail_same
      | apply State.waitUntil_same
      | apply requestGrant_same
      | (apply foldl_same; rotate_left; intro _ _)
    | split

theorem shedDown_same (c : Nat) (l : List Nat) {s0 : State} (s : State) (h0 : Same s0 s) :
    Same s0 (shedDown c l s).2 := by
  induction c generalizing l s with
  | zero => exact h0
  | succ c ih =>
    unfold shedDown
    split
    · exact h0
    · exact ih _ _ (shedClass_same _ _ h0)

theorem execShed_same (s : State) : OutSame s (execShed s) := by
  unfold execShed
  repeat' first
    | with_reducible first
      | assumption
      | exact Same.refl _
      | apply outSame_next
      | (intro v; refine seq_same s v ?_ fun hv => ?_; unfold v)
      | (intro v)
      | (lift_lets; intro v)
      | apply State.incFld_same
      | apply coverCheck_same
      | apply raiseEvent_same
      | apply shedDown_same
      | dsimp -zeta only
    | split
    | (with_reducible apply same_mk; rotate_left; rfl; rfl; rfl)

theorem execShedRestore_same (s : State) : OutSame s (execShedRestore s) := by
  unfold execShedRestore
  repeat' first
    | with_reducible first
      | assumption
      | exact Same.refl _
      | apply outSame_next
      | (intro v; refine seq_same s v ?_ fun hv => ?_; unfold v)
      | (intro v)
      | (lift_lets; intro v; refine same_seq v ?_ fun hv => ?_; unfold v)
      | (lift_lets; intro v)
      | apply State.modPw_same
      | apply State.waitUntil_same
      | apply raiseEvent_same
      | apply requestGrant_same
      | (apply foldl_same; rotate_left; intro _ _)
    | split
    | (with_reducible apply same_mk; rotate_left; rfl; rfl; rfl)

end Sys2Proof.Machine
end

