-- ==== Sys2Proof/Laws/KeepPd.lean ====
section
/-!
SUPPORT. The rows of the power negotiation keep the queue, the part and the lock bits.
-/

namespace Sys2Proof.Machine

theorem pdSend_same (p : Nat) (m : PdSent) (objs : List Nat) (s : State) {s0 : State} (h0 : Same s0 s) : Same s0 (pdSend p m objs s) := by
  refine h0.trans ?_; clear h0 s0
  unfold pdSend
  repeat' first
    | with_reducible first
      | assumption
      | exact Same.refl _
      | apply State.modPd_same

theorem ownSequence_same (p : Nat) (s : State) {s0 : State} (h0 : Same s0 s) : Same s0 (ownSequence p s) := by
  refine h0.trans ?_; clear h0 s0
  unfold ownSequence
  repeat' first
    | with_reducible first
      | assumption
      | exact Same.refl _
      | (intro v)
      | (lift_lets; intro v)
      | apply State.modPd_same

theorem offer_same (p : Nat) (s : State) {s0 : State} (h0 : Same s0 s) : Same s0 (offer p s) := by
  refine h0.trans ?_; clear h0 s0
  unfold offer
  repeat' first
    | with_reducible first
      | assumption
      | exact Same.refl _
      | (intro v; refine same_seq v ?_ fun hv => ?_; unfold v)
      | (intro v)
      | (lift_lets; intro v)
      | apply State.modPd_same
      | apply pdSend_same

theorem frsCheck_same (p : Nat) (s : State) {s0 : State} (h0 : Same s0 s) : Same s0 (frsCheck p s) := by
  refine h0.trans ?_; clear h0 s0
  unfold frsCheck
  repeat' first
    | with_reducible first
      | assumption
      | exact Same.refl _
      | (intro v)
      | (lift_lets; intro v)
      | apply State.modPd_same
      | apply raiseEvent_same
    | split

theorem fallback_same (p : Nat) (reason : Nat) (s : State) {s0 : State} (h0 : Same s0 s) : Same s0 (fallback p reason s) := by
  refine h0.trans ?_; clear h0 s0
  unfold fallback
  repeat' first
    | with_reducible first
      | assumption
      | exact Same.refl _
      | (intro v)
      | (lift_lets; intro v; refine same_seq v ?_ fun hv => ?_; unfold v)
      | apply State.modPd_same
      | apply State.modPw_same
      | apply raiseEvent_same

theorem swapLost_same (p : Nat) (s : State) {s0 : State} (h0 : Same s0 s) : Same s0 (swapLost p s) := by
  refine h0.trans ?_; clear h0 s0
  unfold swapLost
  repeat' first
    | with_reducible first
      | assumption
      | exact Same.refl _
      | apply State.drawn_same
      | apply State.modPd_same
      | apply completeWhere_same
    | split

theorem softReset_same (p : Nat) (byPartner : Bool) (reason : Nat) (s : State) {s0 : State} (h0 : Same s0 s) : Same s0 (softReset p byPartner reason s) := by
  refine h0.trans ?_; clear h0 s0
  unfold softReset
  repeat' first
    | with_reducible first
      | assumption
      | exact Same.refl _
      | (intro v; refine same_seq v ?_ fun hv => ?_; unfold v)
      | (intro v)
      | (lift_lets; intro v)
      | apply State.modPd_same
      | apply completeWhere_same
      | apply pdSend_same
      | apply raiseEvent_same
      | apply swapLost_same

theorem swapEnd_same (p : Nat) (outcome : Nat) (s : State) {s0 : State} (h0 : Same s0 s) : Same s0 (swapEnd p outcome s) := by
  refine h0.trans ?_; clear h0 s0
  unfold swapEnd
  repeat' first
    | with_reducible first
      | assumption
      | exact Same.refl _
      | (intro v)
      | (lift_lets; intro v; refine same_seq v ?_ fun hv => ?_; unfold v)
      | apply State.modPd_same
      | apply completeWhere_same
      | apply raiseEvent_same

theorem hardReset_same (p : Nat) (byPartner : Bool) (reason : Nat) (s : State) {s0 : State} (h0 : Same s0 s) : Same s0 (hardReset p byPartner reason s) := by
  refine h0.trans ?_; clear h0 s0
  unfold hardReset
  repeat' first
    | with_reducible first
      | assumption
      | exact Same.refl _
      | (intro v; refine same_seq v ?_ fun hv => ?_; unfold v)
      | (intro v)
      | (lift_lets; intro v)
      | apply State.modPd_same
      | apply pdSend_same
      | apply powerOff_same
      | apply raiseEvent_same
      | apply sbuOpen_same
      | apply swapEnd_same
    | split

theorem toSink_same (p : Nat) (s : State) {s0 : State} (h0 : Same s0 s) : Same s0 (toSink p s) := by
  refine h0.trans ?_; clear h0 s0
  unfold toSink
  repeat' first
    | with_reducible first
      | assumption
      | exact Same.refl _
      | (intro v)
      | (lift_lets; intro v; refine same_seq v ?_ fun hv => ?_; unfold v)
      | apply State.modPd_same
      | apply State.modUsb_same
      | apply gatesOff_same
      | apply pdEnd_same
      | apply portGone_same
      | apply releaseGrant_same
      | apply sbuOpen_same
      | apply setPortState_same
      | apply usbEnd_same

theorem toSource_same (p : Nat) (s : State) {s0 : State} (h0 : Same s0 s) : Same s0 (toSource p s) := by
  refine h0.trans ?_; clear h0 s0
  unfold toSource
  repeat' first
    | with_reducible first
      | assumption
      | exact Same.refl _
      | (intro v)
      | (lift_lets; intro v; refine same_seq v ?_ fun hv => ?_; unfold v)
      | apply State.modPd_same
      | apply State.modPw_same
      | apply book_same
      | apply pdEnd_same
      | (apply optSame_getD; rotate_left)

theorem enterMode_same (p : Nat) (m : Nat) (s : State) {s0 : State} (h0 : Same s0 s) : Same s0 (enterMode p m s) := by
  refine h0.trans ?_; clear h0 s0
  unfold enterMode
  repeat' first
    | with_reducible first
      | assumption
      | exact Same.refl _
      | (intro v)
      | (lift_lets; intro v; refine same_seq v ?_ fun hv => ?_; unfold v)
      | apply State.modPd_same
      | apply ownSequence_same
      | apply pdSend_same

theorem exitMode_same (p : Nat) (next : Nat) (s : State) {s0 : State} (h0 : Same s0 s) : Same s0 (exitMode p next s) := by
  refine h0.trans ?_; clear h0 s0
  unfold exitMode
  repeat' first
    | with_reducible first
      | assumption
      | exact Same.refl _
      | (intro v)
      | (lift_lets; intro v; refine same_seq v ?_ fun hv => ?_; unfold v)
      | apply State.modPd_same
      | apply ownSequence_same
      | apply pdSend_same
      | apply sbuOpen_same

theorem takeMode_same (p : Nat) (m : Nat) (s : State) {s0 : State} (h0 : Same s0 s) : Same s0 (takeMode p m s) := by
  refine h0.trans ?_; clear h0 s0
  unfold takeMode
  repeat' first
    | with_reducible first
      | assumption
      | exact Same.refl _
      | apply enterMode_same
      | apply exitMode_same
      | apply sbuOpen_same
    | split

theorem enterFailed_same (p : Nat) (s : State) {s0 : State} (h0 : Same s0 s) : Same s0 (enterFailed p s) := by
  refine h0.trans ?_; clear h0 s0
  unfold enterFailed
  repeat' first
    | with_reducible first
      | assumption
      | exact Same.refl _
      | (intro v; refine same_seq v ?_ fun hv => ?_; unfold v)
      | (intro v)
      | (lift_lets; intro v)
      | apply State.modPd_same
      | apply completeWhere_same
      | apply raiseEvent_same

theorem exitDone_same (p : Nat) (s : State) {s0 : State} (h0 : Same s0 s) : Same s0 (exitDone p s) := by
  refine h0.trans ?_; clear h0 s0
  unfold exitDone
  repeat' first
    | with_reducible first
      | assumption
      | exact Same.refl _
      | (intro v; refine same_seq v ?_ fun hv => ?_; unfold v)
      | (intro v)
      | (lift_lets; intro v)
      | apply State.modPd_same
      | apply completeWhere_same
      | apply enterMode_same
    | split

theorem pinWet_same (thr : Nat) (kohm : Nat) (s : State) {s0 : State} (h0 : Same s0 s) : Same s0 (pinWet thr kohm s).2 := by
  refine h0.trans ?_; clear h0 s0
  unfold pinWet
  repeat' first
    | with_reducible first
      | assumption
      | exact Same.refl _
      | apply State.drawn_same
      | dsimp -zeta only
    | split

theorem moisture_same (p : Nat) (kohm1 : Nat) (kohm2 : Nat) (s : State) {s0 : State} (h0 : Same s0 s) : Same s0 (moisture p kohm1 kohm2 s).2 := by
  refine h0.trans ?_; clear h0 s0
  unfold moisture
  repeat' first
    | with_reducible first
      | assumption
      | exact Same.refl _
      | (intro v)
      | (lift_lets; intro v)
      | apply State.elapse_same
      | apply State.modPd_same
      | apply pinWet_same

theorem corePdStatus_same (r : Req) (s : State) : ResSame s (corePdStatus r s) := by
  unfold corePdStatus
  repeat' first
    | with_reducible first
      | assumption
      | exact Same.refl _
      | exact resSame_query trivial

theorem execPdStatus_same (mb : Fin 8) (s : State) : OutSame s (execPdStatus mb s) := by
  exact runOp_same _ _ _ s fun r => corePdStatus_same r s

theorem corePdCaps_same (r : Req) (s : State) : ResSame s (corePdCaps r s) := by
  unfold corePdCaps
  repeat' first
    | with_reducible first
      | assumption
      | exact Same.refl _
      | exact resSame_refuse trivial
      | apply resSame_commit
      | (intro v)
      | (lift_lets; intro v)
      | apply State.modPd_same
    | split

theorem execPdCaps_same (mb : Fin 8) (s : State) : OutSame s (execPdCaps mb s) := by
  exact runOp_same _ _ _ s fun r => corePdCaps_same r s

theorem corePdHardreset_same (r : Req) (s : State) : ResSame s (corePdHardreset r s) := by
  unfold corePdHardreset
  repeat' first
    | with_reducible first
      | assumption
      | exact Same.refl _
      | exact resSame_refuse trivial
      | apply resSame_commit
      | (intro v)
      | (lift_lets; intro v)
      | apply hardReset_same
    | split

theorem execPdHardreset_same (mb : Fin 8) (s : State) : OutSame s (execPdHardreset mb s) := by
  exact runOp_same _ _ _ s fun r => corePdHardreset_same r s

theorem corePdSwap_same (r : Req) (s : State) : ResSame s (corePdSwap r s) := by
  unfold corePdSwap
  repeat' first
    | with_reducible first
      | assumption
      | exact Same.refl _
      | exact resSame_refuse trivial
      | apply resSame_commitWait
      | (intro v; refine seq_same s v ?_ fun hv => ?_; unfold v)
      | (intro v)
      | (lift_lets; intro v)
      | apply State.modPd_same
      | apply ownSequence_same
      | apply pdSend_same
    | split

theorem execPdSwap_same (mb : Fin 8) (s : State) : OutSame s (execPdSwap mb s) := by
  exact runOp_same _ _ _ s fun r => corePdSwap_same r s

theorem corePdFrs_same (r : Req) (s : State) : ResSame s (corePdFrs r s) := by
  unfold corePdFrs
  repeat' first
    | with_reducible first
      | assumption
      | exact Same.refl _
      | exact resSame_refuse trivial
      | apply resSame_commit
      | (intro v)
      | (lift_lets; intro v)
      | apply State.modPd_same
      | apply frsCheck_same
    | split

theorem execPdFrs_same (mb : Fin 8) (s : State) : OutSame s (execPdFrs mb s) := by
  exact runOp_same _ _ _ s fun r => corePdFrs_same r s

theorem corePdMoist_same (r : Req) (s : State) : ResSame s (corePdMoist r s) := by
  unfold corePdMoist
  repeat' first
    | with_reducible first
      | assumption
      | exact Same.refl _
      | exact resSame_refuse trivial
      | apply resSame_commit
      | (intro v)
      | (lift_lets; intro v)
      | apply State.modPd_same
    | split

theorem execPdMoist_same (mb : Fin 8) (s : State) : OutSame s (execPdMoist mb s) := by
  exact runOp_same _ _ _ s fun r => corePdMoist_same r s

theorem corePdAltmode_same (r : Req) (s : State) : ResSame s (corePdAltmode r s) := by
  unfold corePdAltmode
  repeat' first
    | with_reducible first
      | assumption
      | exact Same.refl _
      | exact resSame_refuse trivial
      | apply resSame_commit
      | apply resSame_commitWait
      | (intro v)
      | (lift_lets; intro v)
      | apply exitMode_same
      | apply takeMode_same
    | split

theorem execPdAltmode_same (mb : Fin 8) (s : State) : OutSame s (execPdAltmode mb s) := by
  exact runOp_same _ _ _ s fun r => corePdAltmode_same r s

theorem execCcAttach_same (p : Port) (kind : AttachKind) (s : State) : OutSame s (execCcAttach p kind s) := by
  unfold execCcAttach
  repeat' first
    | with_reducible first
      | assumption
      | exact Same.refl _
      | apply outSame_next
      | (intro v; refine seq_same s v ?_ fun hv => ?_; unfold v)
      | (intro v)
      | (lift_lets; intro v; refine seq_same s v ?_ fun hv => ?_; unfold v)
      | refine OutSame.out ?_ _ ‹_ = Host.Outcome.next _›
      | apply State.incFld_same
      | apply State.modPd_same
      | apply State.modPw_same
      | apply State.modUsb_same
      | apply attachHeld_same
      | apply attachWake_same
      | apply resumeCheck_same
      | apply setPortState_same
      | apply toSink_same
    | split

theorem execCcDetach_same (p : Port) (s : State) : OutSame s (execCcDetach p s) := by
  unfold execCcDetach
  repeat' first
    | with_reducible first
      | assumption
      | exact Same.refl _
      | apply outSame_next
      | (intro v; refine seq_same s v ?_ fun hv => ?_; unfold v)
      | (intro v)
      | (lift_lets; intro v; refine seq_same s v ?_ fun hv => ?_; unfold v)
      | apply State.modPd_same
      | apply State.modUsb_same
      | apply portInput_same
      | apply powerOff_same
    | split

theorem execMoistureReading_same (p : Port) (kohm1 : Nat) (kohm2 : Nat) (s : State) : OutSame s (execMoistureReading p kohm1 kohm2 s) := by
  unfold execMoistureReading
  repeat' first
    | with_reducible first
      | assumption
      | exact Same.refl _
      | apply outSame_next
      | (intro v; refine seq_same s v ?_ fun hv => ?_; unfold v)
      | (intro v)
      | (lift_lets; intro v; refine seq_same s v ?_ fun hv => ?_; unfold v)
      | (lift_lets; intro v)
      | apply State.modPd_same
      | apply State.modPw_same
      | apply attachHeld_same
      | apply moisture_same
      | apply raiseEvent_same
      | apply requestGrant_same
      | apply setPortState_same
      | dsimp -zeta only
    | split

theorem execMoistureInterval_same (p : Port) (kohm1 : Nat) (kohm2 : Nat) (s : State) : OutSame s (execMoistureInterval p kohm1 kohm2 s) := by
  unfold execMoistureInterval
  repeat' first
    | with_reducible first
      | assumption
      | exact Same.refl _
      | apply outSame_next
      | (intro v; refine seq_same s v ?_ fun hv => ?_; unfold v)
      | (intro v)
      | (lift_lets; intro v; refine seq_same s v ?_ fun hv => ?_; unfold v)
      | (lift_lets; intro v)
      | apply State.modPd_same
      | apply State.modPw_same
      | apply State.waitUntil_same
      | apply moisture_same
      | apply powerOff_same
      | apply raiseEvent_same
      | apply requestGrant_same
      | apply setPortState_same
      | dsimp -zeta only
    | split

theorem execSurgeSignature_same (p : Port) (data : Bool) (cc : Bool) (vo : Bool) (s : State) : OutSame s (execSurgeSignature p data cc vo s) := by
  unfold execSurgeSignature
  repeat' first
    | with_reducible first
      | assumption
      | exact Same.refl _
      | apply outSame_next
      | (intro v; refine seq_same s v ?_ fun hv => ?_; unfold v)
      | (intro v)
      | (lift_lets; intro v)
      | refine OutSame.out ?_ _ ‹_ = Host.Outcome.next _›
      | apply State.incFld_same
      | apply State.modPd_same
      | apply State.modUsb_same
      | apply State.setFlag_same
      | apply faultPulse_same
      | apply loopStop_same
      | apply raiseEvent_same
      | apply strikeTest_same
      | apply wireDrop_same
    | split

theorem execSourceCapabilitiesSend_same (p : Port) (answered : Bool) (s : State) : OutSame s (execSourceCapabilitiesSend p answered s) := by
  unfold execSourceCapabilitiesSend
  repeat' first
    | with_reducible first
      | assumption
      | exact Same.refl _
      | apply outSame_next
      | (intro v)
      | (lift_lets; intro v)
      | refine OutSame.out ?_ _ ‹_ = Host.Outcome.next _›
      | apply State.modPd_same
      | apply State.waitUntil_same
      | apply offer_same
    | split

theorem execRequest_same (p : Port) (rdo : Word) (pd2 : Bool) (s : State) : OutSame s (execRequest p rdo pd2 s) := by
  unfold execRequest
  repeat' first
    | with_reducible first
      | assumption
      | exact Same.refl _
      | apply outSame_next
      | (intro v; refine seq_same s v ?_ fun hv => ?_; unfold v)
      | (intro v)
      | (lift_lets; intro v)
      | refine optSame_out ‹_ = some _› ?_
      | refine OutSame.out ?_ _ ‹_ = Host.Outcome.next _›
      | apply State.modPd_same
      | apply State.modPw_same
      | apply book_same
      | apply fallback_same
      | apply pdSend_same
      | apply softReset_same
    | split
    | (with_reducible apply same_mk; rotate_left; rfl; rfl; rfl)

theorem rescueContract_same (p : Nat) (s : State) {s0 : State} (h0 : Same s0 s) : Same s0 (rescueContract p s) := by
  refine h0.trans ?_; clear h0 s0
  unfold rescueContract
  repeat' first
    | with_reducible first
      | assumption
      | exact Same.refl _
      | (intro v)
      | (lift_lets; intro v)
    | split
    | (with_reducible apply same_mk; rotate_left; rfl; rfl; rfl)

theorem execPsRdy_same (p : Port) (s : State) : OutSame s (execPsRdy p s) := by
  unfold execPsRdy
  repeat' first
    | with_reducible first
      | assumption
      | exact Same.refl _
      | apply outSame_next
      | (intro v; refine seq_same s v ?_ fun hv => ?_; unfold v)
      | (intro v)
      | (lift_lets; intro v)
      | refine OutSame.out ?_ _ ‹_ = Host.Outcome.next _›
      | apply State.modPd_same
      | apply State.waitUntil_same
      | apply frsCheck_same
      | apply pdSend_same
      | apply raiseEvent_same
      | apply rescueContract_same
    | split

theorem execPdResponseTimeout_same (p : Port) (s : State) : OutSame s (execPdResponseTimeout p s) := by
  unfold execPdResponseTimeout
  repeat' first
    | with_reducible first
      | assumption
      | exact Same.refl _
      | apply outSame_next
      | (intro v; refine seq_same s v ?_ fun hv => ?_; unfold v)
      | (intro v)
      | (lift_lets; intro v)
      | refine OutSame.out ?_ _ ‹_ = Host.Outcome.next _›
      | apply State.waitUntil_same
      | apply enterFailed_same
      | apply exitDone_same
      | apply fallback_same
      | apply hardReset_same
      | apply softReset_same
    | split

theorem execSoftReset_same (p : Port) (byPartner : Bool) (s : State) : OutSame s (execSoftReset p byPartner s) := by
  unfold execSoftReset
  repeat' first
    | with_reducible first
      | assumption
      | exact Same.refl _
      | apply outSame_next
      | (intro v)
      | (lift_lets; intro v)
      | apply State.modPd_same
      | apply State.waitUntil_same
      | apply softReset_same
    | split

theorem execHardReset_same (p : Port) (byPartner : Bool) (s : State) : OutSame s (execHardReset p byPartner s) := by
  unfold execHardReset
  repeat' first
    | with_reducible first
      | assumption
      | exact Same.refl _
      | apply outSame_next
      | (intro v)
      | (lift_lets; intro v)
      | apply State.modPd_same
      | apply State.waitUntil_same
      | apply hardReset_same
      | apply raiseEvent_same
    | split
    | (with_reducible apply same_mk; rotate_left; rfl; rfl; rfl)

theorem execHardResetWaitEnd_same (p : Port) (s : State) : OutSame s (execHardResetWaitEnd p s) := by
  unfold execHardResetWaitEnd
  repeat' first
    | with_reducible first
      | assumption
      | exact Same.refl _
      | apply outSame_next
      | (intro v; refine seq_same s v ?_ fun hv => ?_; unfold v)
      | (intro v)
      | (lift_lets; intro v)
      | apply State.modPd_same
      | apply State.waitUntil_same
      | apply book_same
      | (apply optSame_getD; rotate_left)
    | split

theorem execTypeCOnlyFallback_same (p : Port) (s : State) : OutSame s (execTypeCOnlyFallback p s) := by
  unfold execTypeCOnlyFallback
  repeat' first
    | with_reducible first
      | assumption
      | exact Same.refl _
      | apply outSame_next
      | (intro v)
      | (lift_lets; intro v)
      | apply State.waitUntil_same
      | apply fallback_same
    | split

theorem execFallbackReoffer_same (p : Port) (s : State) : OutSame s (execFallbackReoffer p s) := by
  unfold execFallbackReoffer
  repeat' first
    | with_reducible first
      | assumption
      | exact Same.refl _
      | apply outSame_next
      | (intro v; refine seq_same s v ?_ fun hv => ?_; unfold v)
      | (intro v)
      | (lift_lets; intro v)
      | apply State.modPd_same
      | apply State.waitUntil_same
      | apply offer_same
    | split

theorem execHrstReset_same (p : Port) (s : State) : OutSame s (execHrstReset p s) := by
  unfold execHrstReset
  repeat' first
    | with_reducible first
      | assumption
      | exact Same.refl _
      | apply outSame_next
      | (intro v)
      | (lift_lets; intro v)
      | apply State.modPd_same
      | apply State.waitUntil_same
    | split

theorem execPrSwap_same (p : Port) (partnerStarts : Bool) (answer : PdAnswer) (s : State) : OutSame s (execPrSwap p partnerStarts answer s) := by
  unfold execPrSwap
  repeat' first
    | with_reducible first
      | assumption
      | exact Same.refl _
      | apply outSame_next
      | (intro v; refine seq_same s v ?_ fun hv => ?_; unfold v)
      | (intro v)
      | (lift_lets; intro v)
      | refine OutSame.out ?_ _ ‹_ = Host.Outcome.next _›
      | apply State.modPd_same
      | apply State.waitUntil_same
      | apply answer_same
      | apply completeWhere_same
      | apply pdSend_same
      | apply raiseEvent_same
      | apply softReset_same
      | apply swapEnd_same
      | apply toSink_same
      | apply toSource_same
    | split

theorem execFrSwap_same (p : Port) (s : State) : OutSame s (execFrSwap p s) := by
  unfold execFrSwap
  repeat' first
    | with_reducible first
      | assumption
      | exact Same.refl _
      | apply outSame_next
      | (intro v; refine seq_same s v ?_ fun hv => ?_; unfold v)
      | (intro v)
      | (lift_lets; intro v; refine seq_same s v ?_ fun hv => ?_; unfold v)
      | apply State.modPd_same
      | apply pdSend_same
      | apply raiseEvent_same
      | apply toSink_same
    | split
    | (with_reducible apply same_mk; rotate_left; rfl; rfl; rfl)

theorem execDiscoverIdentity_same (p : Port) (ufp : Bool) (svid : Nat) (modes : List Nat) (s : State) : OutSame s (execDiscoverIdentity p ufp svid modes s) := by
  unfold execDiscoverIdentity
  repeat' first
    | with_reducible first
      | assumption
      | exact Same.refl _
      | apply outSame_next
      | (intro v; refine seq_same s v ?_ fun hv => ?_; unfold v)
      | (intro v)
      | (lift_lets; intro v)
      | refine OutSame.out ?_ _ ‹_ = Host.Outcome.next _›
      | apply State.elapse_same
      | apply State.modPd_same
      | apply pdSend_same
      | apply takeMode_same
    | split

theorem execEnterModeAck_same (p : Port) (ans : ModeAnswer) (s : State) : OutSame s (execEnterModeAck p ans s) := by
  unfold execEnterModeAck
  repeat' first
    | with_reducible first
      | assumption
      | exact Same.refl _
      | apply outSame_next
      | (intro v; refine seq_same s v ?_ fun hv => ?_; unfold v)
      | (intro v)
      | (lift_lets; intro v)
      | refine OutSame.out ?_ _ ‹_ = Host.Outcome.next _›
      | apply State.elapse_same
      | apply State.modPd_same
      | apply State.waitUntil_same
      | apply completeWhere_same
      | apply enterFailed_same
      | apply enterMode_same
      | apply exitDone_same
      | apply pdSend_same
      | apply raiseEvent_same
    | split

theorem execPartnerExitMode_same (p : Port) (s : State) : OutSame s (execPartnerExitMode p s) := by
  unfold execPartnerExitMode
  repeat' first
    | with_reducible first
      | assumption
      | exact Same.refl _
      | apply outSame_next
      | (intro v)
      | (lift_lets; intro v)
      | apply pdSend_same
      | apply sbuOpen_same
    | split

theorem execPdMessageReceived_same (p : Port) (msg : PdMessage) (s : State) : OutSame s (execPdMessageReceived p msg s) := by
  unfold execPdMessageReceived
  repeat' first
    | with_reducible first
      | assumption
      | exact Same.refl _
      | apply outSame_next
      | (intro v)
      | (lift_lets; intro v)
      | refine OutSame.out ?_ _ ‹_ = Host.Outcome.next _›
      | apply State.modPd_same
      | apply frsCheck_same
      | apply offer_same
      | apply pdSend_same
      | apply softReset_same
      | apply swapEnd_same
    | split

theorem execPartnerSourceCapabilities_same (p : Port) (pdos : List Word) (s : State) : OutSame s (execPartnerSourceCapabilities p pdos s) := by
  unfold execPartnerSourceCapabilities
  repeat' first
    | with_reducible first
      | assumption
      | exact Same.refl _
      | apply outSame_next
      | (intro v; refine seq_same s v ?_ fun hv => ?_; unfold v)
      | (intro v)
      | (lift_lets; intro v)
      | apply State.modPd_same
      | apply pdSend_same
    | split
    | (with_reducible apply same_mk; rotate_left; rfl; rfl; rfl)

theorem execRescueVbus_same (p : Port) (mv : Nat) (s : State) : OutSame s (execRescueVbus p mv s) := by
  unfold execRescueVbus
  repeat' first
    | with_reducible first
      | assumption
      | exact Same.refl _
      | apply outSame_next
      | (intro v; refine seq_same s v ?_ fun hv => ?_; unfold v)
      | (intro v)
      | (lift_lets; intro v; refine seq_same s v ?_ fun hv => ?_; unfold v)
      | apply State.modUsb_same
      | apply toSink_same
    | split
    | (with_reducible apply same_mk; rotate_left; rfl; rfl; rfl)

theorem execRescueRegulationCheck_same (p : Port) (mv : Nat) (s : State) : OutSame s (execRescueRegulationCheck p mv s) := by
  unfold execRescueRegulationCheck
  repeat' first
    | with_reducible first
      | assumption
      | exact Same.refl _
      | apply outSame_next
      | (intro v; refine seq_same s v ?_ fun hv => ?_; unfold v)
      | (intro v)
      | (lift_lets; intro v)
      | apply State.elapse_same
    | split
    | (with_reducible apply same_mk; rotate_left; rfl; rfl; rfl)

end Sys2Proof.Machine
end

