-- ==== Sys2Proof/Laws/KeepChannels.lean ====
section
/-!
SUPPORT. The rows of channels, schedule and devices keep the queue, the part and the lock bits.
-/

namespace Sys2Proof.Machine

theorem placeChan_same (c : Chan) (s : State) {s0 : State} (h0 : Same s0 s) : OptSame2 s0 (placeChan c s) := by
  refine optSame2_trans h0 ?_; clear h0 s0
  unfold placeChan
  repeat' first
    | with_reducible first
      | assumption
      | exact Same.refl _
      | exact optSame2_none trivial
      | apply optSame2_some
      | (intro v)
      | (lift_lets; intro v)
      | apply State.setChan_same
      | apply allocChan_same
    | split
    | (with_reducible apply same_mk; rotate_left; rfl; rfl; rfl)

theorem openCommit_same (c : Chan) (s : State) {s0 : State} (h0 : Same s0 s) : OptSame2 s0 (openCommit c s) := by
  refine optSame2_trans h0 ?_; clear h0 s0
  unfold openCommit
  repeat' first
    | with_reducible first
      | assumption
      | exact Same.refl _
      | (intro v)
      | (lift_lets; intro v)
      | apply placeChan_same

theorem ackSeqs_same (slot : Nat) (seqs : List Nat) (s : State) {s0 : State} (h0 : Same s0 s) : Same s0 (ackSeqs slot seqs s) := by
  refine h0.trans ?_; clear h0 s0
  unfold ackSeqs
  repeat' first
    | with_reducible first
      | assumption
      | exact Same.refl _
      | (intro v; refine same_seq v ?_ fun hv => ?_; unfold v)
      | (intro v)
      | (lift_lets; intro v)
      | apply State.modChan_same
      | apply State.setChan_same
      | apply closeSlot_same
      | apply settlePassed_same
    | split
    | (with_reducible apply same_mk; rotate_left; rfl; rfl; rfl)

theorem deliverRec_same (r : Rec) (s : State) {s0 : State} (h0 : Same s0 s) : Same s0 (deliverRec r s) := by
  refine h0.trans ?_; clear h0 s0
  unfold deliverRec
  repeat' first
    | with_reducible first
      | assumption
      | exact Same.refl _
      | (intro v; refine same_seq v ?_ fun hv => ?_; unfold v)
      | (intro v)
      | (lift_lets; intro v)
      | apply State.setChan_same
      | apply ackSeqs_same
    | split
    | (with_reducible apply same_mk; rotate_left; rfl; rfl; rfl)

theorem sendAgain_same (keep : Nat) (recs : List Rec) (s : State) {s0 : State} (h0 : Same s0 s) : Same s0 (sendAgain keep recs s) := by
  refine h0.trans ?_; clear h0 s0
  unfold sendAgain
  repeat' first
    | with_reducible first
      | assumption
      | exact Same.refl _
      | apply State.refill_same
    | (with_reducible apply same_mk; rotate_left; rfl; rfl; rfl)

theorem rewind_same (slot : Nat) (s : State) {s0 : State} (h0 : Same s0 s) : Same s0 (rewind slot s).2 := by
  refine h0.trans ?_; clear h0 s0
  unfold rewind
  repeat' first
    | with_reducible first
      | assumption
      | exact Same.refl _
      | (intro v; refine same_seq v ?_ fun hv => ?_; unfold v)
      | (intro v)
      | (lift_lets; intro v)
      | apply sendAgain_same
      | dsimp -zeta only
    | split
    | (with_reducible apply same_mk; rotate_left; rfl; rfl; rfl)

theorem settleBuiltLast_same (s : State) {s0 : State} (h0 : Same s0 s) : Same s0 (settleBuiltLast s) := by
  refine h0.trans ?_; clear h0 s0
  unfold settleBuiltLast
  repeat' first
    | with_reducible first
      | assumption
      | exact Same.refl _
      | apply State.modChan_same
      | apply commitPlain_same
      | apply settleLast_same
      | (apply foldl_same; rotate_left; intro _ _)
    | split

theorem changeLevel_same (l : Nat) (s : State) {s0 : State} (h0 : Same s0 s) : Same s0 (changeLevel l s) := by
  refine h0.trans ?_; clear h0 s0
  unfold changeLevel
  repeat' first
    | with_reducible first
      | assumption
      | exact Same.refl _
      | (intro v; refine same_seq v ?_ fun hv => ?_; unfold v)
      | (intro v)
      | (lift_lets; intro v)
      | apply anchor_same
      | apply groupEvent_same
      | apply settleBuiltLast_same
      | apply settlePassed_same
      | (apply foldl_same; rotate_left; intro _ _)
    | split
    | (with_reducible apply same_mk; rotate_left; rfl; rfl; rfl)

theorem coreChanOpen_same (r : Req) (s : State) : ResSame s (coreChanOpen r s) := by
  unfold coreChanOpen
  repeat' first
    | with_reducible first
      | assumption
      | exact Same.refl _
      | exact resSame_refuse trivial
      | apply resSame_commit
      | (intro v)
      | (lift_lets; intro v)
      | refine optSame2_out ‹_ = some _› ?_
      | apply loopStop_same
      | apply openCommit_same
    | dsimp -zeta only
    | split

theorem execChanOpen_same (mb : Fin 8) (s : State) : OutSame s (execChanOpen mb s) := by
  exact runOp_same _ _ _ s fun r => coreChanOpen_same r s

theorem coreChanClose_same (r : Req) (s : State) : ResSame s (coreChanClose r s) := by
  unfold coreChanClose
  repeat' first
    | with_reducible first
      | assumption
      | exact Same.refl _
      | exact resSame_refuse trivial
      | apply resSame_commit
      | apply resSame_commitWait
      | (intro v; refine seq_same s v ?_ fun hv => ?_; unfold v)
      | (intro v)
      | (lift_lets; intro v)
      | apply State.modChan_same
      | apply State.setChan_same
      | apply closeNow_same
      | apply closeSlot_same
      | apply ctrlEnd_same
      | apply discardRecords_same
      | dsimp -zeta only
    | split

theorem execChanClose_same (mb : Fin 8) (s : State) : OutSame s (execChanClose mb s) := by
  exact runOp_same _ _ _ s fun r => coreChanClose_same r s

theorem coreChanPause_same (r : Req) (s : State) : ResSame s (coreChanPause r s) := by
  unfold coreChanPause
  repeat' first
    | with_reducible first
      | assumption
      | exact Same.refl _
      | exact resSame_refuse trivial
      | apply resSame_commit
      | apply resSame_commitWait
      | (intro v)
      | (lift_lets; intro v)
      | apply State.setChan_same
    | split

theorem execChanPause_same (mb : Fin 8) (s : State) : OutSame s (execChanPause mb s) := by
  exact runOp_same _ _ _ s fun r => coreChanPause_same r s

theorem goOn_same (slot : Nat) (s : State) {s0 : State} (h0 : Same s0 s) : Same s0 (goOn slot s) := by
  refine h0.trans ?_; clear h0 s0
  unfold goOn
  repeat' first
    | with_reducible first
      | assumption
      | exact Same.refl _
      | apply State.modChan_same
      | apply activate_same
    | split

theorem coreChanResume_same (clearOk : Bool) (r : Req) (s : State) : ResSame s (coreChanResume clearOk r s) := by
  unfold coreChanResume
  split
  · exact resSame_refuse trivial
  · dsimp only
    repeat' (with_reducible apply resSame_ite)
    case h_2.h => exact resSame_refuse trivial
    case h_2.k.h => exact resSame_refuse trivial
    case h_2.k.k.h => exact resSame_commit (Same.refl _)
    case h_2.k.k.k.h => exact resSame_refuse trivial
    case h_2.k.k.k.k.h => exact resSame_commit (settlePauses_same _ (goOn_same _ _ (Same.refl _)))
    all_goals try with_reducible exact resSame_refuse trivial
    · refine resSame_commit (goOn_same _ _ (State.setChan_same _ _ _ ?_))
      exact Same.trans (Same.refl s) ⟨rfl, rfl, rfl, rfl, rfl⟩
    · refine resSame_commit (goOn_same _ _ ?_)
      split
      · exact State.setChan_same _ _ _ (Same.refl s)
      · exact Same.refl s

theorem execChanResume_same (mb : Fin 8) (clearOk : Bool) (s : State) : OutSame s (execChanResume mb clearOk s) := by
  unfold execChanResume
  repeat' first
    | with_reducible first
      | assumption
      | exact Same.refl _
      | apply outSame_next
      | apply coreChanResume_same
      | (apply runOp_same; intro _)

theorem coreChanStopGroup_same (r : Req) (s : State) : ResSame s (coreChanStopGroup r s) := by
  unfold coreChanStopGroup
  repeat' first
    | with_reducible first
      | assumption
      | exact Same.refl _
      | apply resSame_commit
      | apply resSame_commitWait
      | (intro v; refine seq_same s v ?_ fun hv => ?_; unfold v)
      | (intro v)
      | (lift_lets; intro v)
      | apply State.modChan_same
      | apply State.setGroup_same
      | apply groupEvent_same
      | (apply foldl_same; rotate_left; intro _ _)
    | split

theorem execChanStopGroup_same (mb : Fin 8) (s : State) : OutSame s (execChanStopGroup mb s) := by
  exact runOp_same _ _ _ s fun r => coreChanStopGroup_same r s

theorem coreChanStartGroup_same (r : Req) (s : State) : ResSame s (coreChanStartGroup r s) := by
  unfold coreChanStartGroup
  repeat' first
    | with_reducible first
      | assumption
      | exact Same.refl _
      | apply resSame_commit
      | (intro v; refine seq_same s v ?_ fun hv => ?_; unfold v)
      | (intro v)
      | (lift_lets; intro v)
      | apply State.setGroup_same
      | apply goOn_same
      | apply groupEvent_same
      | apply settlePauses_same
      | (apply foldl_same; rotate_left; intro _ _)
    | split

theorem execChanStartGroup_same (mb : Fin 8) (s : State) : OutSame s (execChanStartGroup mb s) := by
  exact runOp_same _ _ _ s fun r => coreChanStartGroup_same r s

theorem coreChanCtrl_same (r : Req) (s : State) : ResSame s (coreChanCtrl r s) := by
  unfold coreChanCtrl
  repeat' first
    | with_reducible first
      | assumption
      | exact Same.refl _
      | exact resSame_refuse trivial
      | apply resSame_commitWait
      | (intro v)
      | (lift_lets; intro v)
      | apply State.setChan_same
    | split

theorem execChanCtrl_same (mb : Fin 8) (s : State) : OutSame s (execChanCtrl mb s) := by
  exact runOp_same _ _ _ s fun r => coreChanCtrl_same r s

theorem coreChanWrite_same (r : Req) (s : State) : ResSame s (coreChanWrite r s) := by
  unfold coreChanWrite
  repeat' first
    | with_reducible first
      | assumption
      | exact Same.refl _
      | exact resSame_refuse trivial
      | apply resSame_commit
      | (intro v; refine seq_same s v ?_ fun hv => ?_; unfold v)
      | (intro v)
      | (lift_lets; intro v)
      | apply State.setChan_same
      | apply storeMem_same
      | (apply foldl_same; rotate_left; intro _ _)
    | split

theorem execChanWrite_same (mb : Fin 8) (s : State) : OutSame s (execChanWrite mb s) := by
  exact runOp_same _ _ _ s fun r => coreChanWrite_same r s

theorem coreChanInfo_same (r : Req) (s : State) : ResSame s (coreChanInfo r s) := by
  unfold coreChanInfo
  repeat' first
    | with_reducible first
      | assumption
      | exact Same.refl _
      | exact resSame_refuse trivial
      | exact resSame_query trivial
      | (intro v)
      | (lift_lets; intro v)
    | split

theorem execChanInfo_same (mb : Fin 8) (s : State) : OutSame s (execChanInfo mb s) := by
  exact runOp_same _ _ _ s fun r => coreChanInfo_same r s

theorem coreChanLatest_same (r : Req) (s : State) : ResSame s (coreChanLatest r s) := by
  unfold coreChanLatest
  repeat' first
    | with_reducible first
      | assumption
      | exact Same.refl _
      | exact resSame_refuse trivial
      | exact resSame_query trivial
      | (intro v)
      | (lift_lets; intro v)
    | split

theorem execChanLatest_same (mb : Fin 8) (s : State) : OutSame s (execChanLatest mb s) := by
  exact runOp_same _ _ _ s fun r => coreChanLatest_same r s

theorem coreChanHistory_same (r : Req) (s : State) : ResSame s (coreChanHistory r s) := by
  unfold coreChanHistory
  repeat' first
    | with_reducible first
      | assumption
      | exact Same.refl _
      | exact resSame_refuse trivial
      | exact resSame_query trivial
      | (intro v)
      | (lift_lets; intro v)
    | split

theorem execChanHistory_same (mb : Fin 8) (s : State) : OutSame s (execChanHistory mb s) := by
  exact runOp_same _ _ _ s fun r => coreChanHistory_same r s

theorem coreChanAck_same (r : Req) (s : State) : ResSame s (coreChanAck r s) := by
  unfold coreChanAck
  repeat' first
    | with_reducible first
      | assumption
      | exact Same.refl _
      | exact resSame_refuse trivial
      | apply resSame_commit
      | (intro v; refine seq_same s v ?_ fun hv => ?_; unfold v)
      | (intro v)
      | (lift_lets; intro v)
      | apply ackSeqs_same
      | (apply foldl_same; rotate_left; intro _ _)
    | split

theorem execChanAck_same (mb : Fin 8) (s : State) : OutSame s (execChanAck mb s) := by
  exact runOp_same _ _ _ s fun r => coreChanAck_same r s

theorem coreChanRewind_same (r : Req) (s : State) : ResSame s (coreChanRewind r s) := by
  unfold coreChanRewind
  repeat' first
    | with_reducible first
      | assumption
      | exact Same.refl _
      | exact resSame_refuse trivial
      | apply resSame_commit
      | (intro v)
      | (lift_lets; intro v)
      | apply rewind_same
      | dsimp -zeta only
    | split

theorem execChanRewind_same (mb : Fin 8) (s : State) : OutSame s (execChanRewind mb s) := by
  exact runOp_same _ _ _ s fun r => coreChanRewind_same r s

theorem coreSchedBegin_same (x1 : Req) (s : State) : ResSame s (coreSchedBegin x1 s) := by
  unfold coreSchedBegin
  repeat' first
    | with_reducible first
      | assumption
      | exact Same.refl _
      | exact resSame_refuse trivial
      | apply resSame_commit
      | (intro v)
      | (lift_lets; intro v)
    | split
    | (with_reducible apply same_mk; rotate_left; rfl; rfl; rfl)

theorem execSchedBegin_same (mb : Fin 8) (s : State) : OutSame s (execSchedBegin mb s) := by
  exact runOp_same _ _ _ s fun r => coreSchedBegin_same r s

theorem touchTxn_same (t : SchedTxn) (s : State) {s0 : State} (h0 : Same s0 s) : Same s0 (touchTxn t s) := by
  refine h0.trans ?_; clear h0 s0
  unfold touchTxn
  repeat' first
    | with_reducible first
      | assumption
      | exact Same.refl _
      | apply State.setTxn_same

theorem refuseTxn_same (n : Nat) (st : Status) (res : List Byte) (s : State) : ResSame s (refuseTxn n st res s) := by
  unfold refuseTxn
  repeat' first
    | with_reducible first
      | assumption
      | exact Same.refl _
      | exact resSame_refuse trivial
      | apply resSame_noted
      | apply touchTxn_same
    | split

theorem addItem_same (txn : Nat) (i : Item) (s : State) : ResSame s (addItem txn i s) := by
  unfold addItem
  repeat' first
    | with_reducible first
      | assumption
      | exact Same.refl _
      | exact resSame_refuse trivial
      | apply resSame_commit
      | apply State.setTxn_same
      | apply refuseTxn_same
    | split

theorem coreSchedAdd_same (r : Req) (s : State) : ResSame s (coreSchedAdd r s) := by
  unfold coreSchedAdd
  repeat' first
    | with_reducible first
      | assumption
      | exact Same.refl _
      | apply addItem_same
      | apply refuseTxn_same
    | split

theorem execSchedAdd_same (mb : Fin 8) (s : State) : OutSame s (execSchedAdd mb s) := by
  exact runOp_same _ _ _ s fun r => coreSchedAdd_same r s

theorem coreSchedChange_same (r : Req) (s : State) : ResSame s (coreSchedChange r s) := by
  unfold coreSchedChange
  repeat' first
    | with_reducible first
      | assumption
      | exact Same.refl _
      | (intro v)
      | (lift_lets; intro v)
      | apply addItem_same
      | apply refuseTxn_same
    | split

theorem execSchedChange_same (mb : Fin 8) (s : State) : OutSame s (execSchedChange mb s) := by
  exact runOp_same _ _ _ s fun r => coreSchedChange_same r s

theorem placeItem_same (i : Item) (s : State) {s0 : State} (h0 : Same s0 s) : Same s0 (placeItem i s).2 := by
  refine h0.trans ?_; clear h0 s0
  unfold placeItem
  repeat' first
    | with_reducible first
      | assumption
      | exact Same.refl _
      | refine optSame2_out ‹_ = some _› ?_
      | apply openCommit_same
      | dsimp -zeta only
    | split

theorem placeItems_same (l : List Item) (s : State) {s0 : State} (h0 : Same s0 s) : Same s0 (placeItems l s).2 := by
  refine h0.trans ?_; clear h0 s0
  unfold placeItems
  repeat' first
    | with_reducible first
      | assumption
      | exact Same.refl _
      | apply placeItem_same
      | (apply foldl_same2; rotate_left; intro _ _)

theorem coreSchedCommit_same (r : Req) (s : State) : ResSame s (coreSchedCommit r s) := by
  unfold coreSchedCommit
  repeat' first
    | with_reducible first
      | assumption
      | exact Same.refl _
      | exact resSame_refuse trivial
      | apply resSame_commit
      | apply resSame_noted
      | (intro v)
      | (lift_lets; intro v)
      | apply State.setTxn_same
      | apply placeItems_same
      | apply refuseTxn_same
    | split

theorem execSchedCommit_same (mb : Fin 8) (s : State) : OutSame s (execSchedCommit mb s) := by
  exact runOp_same _ _ _ s fun r => coreSchedCommit_same r s

theorem coreSchedCancel_same (r : Req) (s : State) : ResSame s (coreSchedCancel r s) := by
  unfold coreSchedCancel
  repeat' first
    | with_reducible first
      | assumption
      | exact Same.refl _
      | exact resSame_refuse trivial
      | apply resSame_commit
      | apply State.setTxn_same
    | split

theorem execSchedCancel_same (mb : Fin 8) (s : State) : OutSame s (execSchedCancel mb s) := by
  exact runOp_same _ _ _ s fun r => coreSchedCancel_same r s

theorem coreSchedReport_same (r : Req) (s : State) : ResSame s (coreSchedReport r s) := by
  unfold coreSchedReport
  repeat' first
    | with_reducible first
      | assumption
      | exact Same.refl _
      | exact resSame_refuse trivial
      | exact resSame_query trivial
      | apply resSame_session
      | (intro v)
      | (lift_lets; intro v)
      | apply touchTxn_same
    | split

theorem execSchedReport_same (mb : Fin 8) (s : State) : OutSame s (execSchedReport mb s) := by
  exact runOp_same _ _ _ s fun r => coreSchedReport_same r s

theorem execApplyPoint_same (s : State) : OutSame s (execApplyPoint s) := by
  unfold execApplyPoint
  repeat' first
    | with_reducible first
      | assumption
      | exact Same.refl _
      | apply outSame_next
      | refine OutSame.out ?_ _ ‹_ = Host.Outcome.next _›
      | apply atApply_same
    | split

theorem execTransactionIdleTimeout_same (s : State) : OutSame s (execTransactionIdleTimeout s) := by
  unfold execTransactionIdleTimeout
  repeat' first
    | with_reducible first
      | assumption
      | exact Same.refl _
      | apply outSame_next
      | refine OutSame.out ?_ _ ‹_ = Host.Outcome.next _›
      | apply State.setTxn_same
      | apply State.waitUntil_same
    | split

theorem dropDue_same (slot : Nat) (d : Due) (s : State) {s0 : State} (h0 : Same s0 s) : Same s0 (dropDue slot d s) := by
  refine h0.trans ?_; clear h0 s0
  unfold dropDue
  repeat' first
    | with_reducible first
      | assumption
      | exact Same.refl _
      | apply State.modChan_same

theorem missLate_same (slot : Nat) (d : Due) (s : State) {s0 : State} (h0 : Same s0 s) : Same s0 (missLate slot d s) := by
  refine h0.trans ?_; clear h0 s0
  unfold missLate
  repeat' first
    | with_reducible first
      | assumption
      | exact Same.refl _
      | (intro v)
      | (lift_lets; intro v)
      | apply dropDue_same
      | apply groupEvent_same
      | apply missRec_same

theorem missExpired_same (slot : Nat) (s : State) {s0 : State} (h0 : Same s0 s) : Same s0 (missExpired slot s) := by
  refine h0.trans ?_; clear h0 s0
  unfold missExpired
  repeat' first
    | with_reducible first
      | assumption
      | exact Same.refl _
      | apply missLate_same
      | (apply foldl_same; rotate_left; intro _ _)
    | split

theorem settleDue_same (slot : Nat) (s : State) {s0 : State} (h0 : Same s0 s) : Same s0 (settleDue slot s) := by
  refine h0.trans ?_; clear h0 s0
  unfold settleDue
  repeat' first
    | with_reducible first
      | assumption
      | exact Same.refl _
      | apply dropDue_same
      | apply missExpired_same
      | apply missRec_same
      | (apply foldl_same; rotate_left; intro _ _)
    | split

theorem fallDue_same (slot : Nat) (target : Nat) (s : State) {s0 : State} (h0 : Same s0 s) : Same s0 (fallDue slot target s) := by
  refine h0.trans ?_; clear h0 s0
  unfold fallDue
  repeat' first
    | with_reducible first
      | assumption
      | exact Same.refl _
      | (intro v)
      | (lift_lets; intro v)
      | apply State.setChan_same
      | apply missRec_same
      | apply skipTarget_same
      | apply windowSkip_same
    | split

theorem atTarget_same (slot : Nat) (s : State) {s0 : State} (h0 : Same s0 s) : Same s0 (atTarget slot s) := by
  refine h0.trans ?_; clear h0 s0
  unfold atTarget
  repeat' first
    | with_reducible first
      | assumption
      | exact Same.refl _
      | (intro v; refine same_seq v ?_ fun hv => ?_; unfold v)
      | (intro v)
      | (lift_lets; intro v)
      | apply State.modChan_same
      | apply fallDue_same
      | apply loopStop_same
      | apply settleDue_same
    | split

theorem applyFirst_same (slot : Nat) (s : State) {s0 : State} (h0 : Same s0 s) : Same s0 (applyFirst slot s) := by
  refine h0.trans ?_; clear h0 s0
  unfold applyFirst
  repeat' first
    | with_reducible first
      | assumption
      | exact Same.refl _
      | refine OutSame.out ?_ _ ‹_ = Host.Outcome.next _›
      | apply atApply_same
    | split

theorem execTargetDue_same (slot : Fin 4096) (s : State) : OutSame s (execTargetDue slot s) := by
  unfold execTargetDue
  repeat' first
    | with_reducible first
      | assumption
      | exact Same.refl _
      | apply outSame_next
      | (intro v)
      | (lift_lets; intro v; refine seq_same s v ?_ fun hv => ?_; unfold v)
      | refine optSame_out ‹_ = some _› ?_
      | refine OutSame.out ?_ _ ‹_ = Host.Outcome.next _›
      | apply State.reach_same
      | apply applyFirst_same
      | apply atTarget_same
    | split

theorem execLateMiss_same (slot : Fin 4096) (s : State) : OutSame s (execLateMiss slot s) := by
  unfold execLateMiss
  repeat' first
    | with_reducible first
      | assumption
      | exact Same.refl _
      | apply outSame_next
      | refine OutSame.out ?_ _ ‹_ = Host.Outcome.next _›
      | apply State.waitUntil_same
      | apply missLate_same
    | split

theorem execBestEffortReplaced_same (slot : Fin 4096) (s : State) : OutSame s (execBestEffortReplaced slot s) := by
  unfold execBestEffortReplaced
  repeat' first
    | with_reducible first
      | assumption
      | exact Same.refl _
      | apply outSame_next
      | (intro v)
      | (lift_lets; intro v)
      | refine optSame_out ‹_ = some _› ?_
      | refine OutSame.out ?_ _ ‹_ = Host.Outcome.next _›
      | apply State.reach_same
      | apply atTarget_same
    | split

theorem issueDue_same (p : Nat) (slot : Nat) (d : Due) (s : State) {s0 : State} (h0 : Same s0 s) : Same s0 (issueDue p slot d s) := by
  refine h0.trans ?_; clear h0 s0
  unfold issueDue
  repeat' first
    | with_reducible first
      | assumption
      | exact Same.refl _
      | (intro v; refine same_seq v ?_ fun hv => ?_; unfold v)
      | (intro v)
      | (lift_lets; intro v)
      | apply State.setWire_same
      | apply dropDue_same
      | apply missRec_same
      | apply skipTarget_same
    | split

theorem issueFree_same (p : Nat) (slot : Nat) (s : State) {s0 : State} (h0 : Same s0 s) : Same s0 (issueFree p slot s) := by
  refine h0.trans ?_; clear h0 s0
  unfold issueFree
  repeat' first
    | with_reducible first
      | assumption
      | exact Same.refl _
      | (intro v)
      | (lift_lets; intro v; refine same_seq v ?_ fun hv => ?_; unfold v)
      | apply State.modChan_same
      | apply State.setWire_same

theorem execTokenIssue_same (p : Port) (s : State) : OutSame s (execTokenIssue p s) := by
  unfold execTokenIssue
  repeat' first
    | with_reducible first
      | assumption
      | exact Same.refl _
      | apply outSame_next
      | (intro v)
      | (lift_lets; intro v; refine seq_same s v ?_ fun hv => ?_; unfold v)
      | refine OutSame.out ?_ _ ‹_ = Host.Outcome.next _›
      | apply State.drawn_same
      | apply issueDue_same
      | apply issueFree_same
      | apply missExpired_same
      | (apply foldl_same; rotate_left; intro _ _)
    | dsimp -zeta only
    | split

theorem execSof_same (p : Port) (s : State) : OutSame s (execSof p s) := by
  unfold execSof
  repeat' first
    | with_reducible first
      | assumption
      | exact Same.refl _
      | apply outSame_next
      | (intro v; refine seq_same s v ?_ fun hv => ?_; unfold v)
      | (intro v)
      | (lift_lets; intro v)
      | apply State.modUsb_same
      | apply State.waitUntil_same
      | apply sofNow_same
    | split

theorem pushBuilt_same (slot : Nat) (r : Rec) (s : State) {s0 : State} (h0 : Same s0 s) : Same s0 (pushBuilt slot r s) := by
  refine h0.trans ?_; clear h0 s0
  unfold pushBuilt
  repeat' first
    | with_reducible first
      | assumption
      | exact Same.refl _
      | apply State.modChan_same
      | apply skipTarget_same
    | split

theorem pushOut_same (slot : Nat) (w : OnWire) (s : State) {s0 : State} (h0 : Same s0 s) : Same s0 (pushOut slot w s) := by
  refine h0.trans ?_; clear h0 s0
  unfold pushOut
  repeat' first
    | with_reducible first
      | assumption
      | exact Same.refl _
      | apply pushBuilt_same
    | split

theorem ringDone_same (slot : Nat) (status : Nat) (len : Nat) (data : List Byte) (s : State) {s0 : State} (h0 : Same s0 s) : Same s0 (ringDone slot status len data s) := by
  refine h0.trans ?_; clear h0 s0
  unfold ringDone
  repeat' first
    | with_reducible first
      | assumption
      | exact Same.refl _
      | (intro v)
      | apply State.modChan_same

theorem bulkIn_same (slot : Nat) (w : OnWire) (data : List Byte) (s : State) {s0 : State} (h0 : Same s0 s) : Same s0 (bulkIn slot w data s) := by
  refine h0.trans ?_; clear h0 s0
  unfold bulkIn
  repeat' first
    | with_reducible first
      | assumption
      | exact Same.refl _
      | (intro v)
      | (lift_lets; intro v)
      | apply State.setChan_same
      | apply pushBuilt_same
      | apply ringDone_same
    | split

theorem bulkOut_same (slot : Nat) (w : OnWire) (s : State) {s0 : State} (h0 : Same s0 s) : Same s0 (bulkOut slot w s) := by
  refine h0.trans ?_; clear h0 s0
  unfold bulkOut
  repeat' first
    | with_reducible first
      | assumption
      | exact Same.refl _
      | (intro v)
      | (lift_lets; intro v)
      | apply State.setChan_same
      | apply pushOut_same
      | apply ringDone_same
    | split

theorem ctrlAck_same (slot : Nat) (w : OnWire) (data : List Byte) (s : State) {s0 : State} (h0 : Same s0 s) : Same s0 (ctrlAck slot w data s) := by
  refine h0.trans ?_; clear h0 s0
  unfold ctrlAck
  repeat' first
    | with_reducible first
      | assumption
      | exact Same.refl _
      | (intro v)
      | (lift_lets; intro v)
      | apply State.setChan_same
      | apply completeWhere_same
      | apply pushBuilt_same
    | split

theorem errorEnd_same (slot : Nat) (w : OnWire) (s : State) {s0 : State} (h0 : Same s0 s) : Same s0 (errorEnd slot w s) := by
  refine h0.trans ?_; clear h0 s0
  unfold errorEnd
  repeat' first
    | with_reducible first
      | assumption
      | exact Same.refl _
      | (intro v; refine same_seq v ?_ fun hv => ?_; unfold v)
      | (intro v)
      | (lift_lets; intro v)
      | apply State.modChan_same
      | apply pushBuilt_same
      | apply ringDone_same
    | split

theorem landData_same (slot : Nat) (len : Nat) (s : State) {s0 : State} (h0 : Same s0 s) : Same s0 (landData slot len s) := by
  refine h0.trans ?_; clear h0 s0
  unfold landData
  repeat' first
    | with_reducible first
      | assumption
      | exact Same.refl _
      | (intro v)
      | (lift_lets; intro v)
      | apply State.modChan_same
      | apply storeMem_same
    | split

theorem landPackets_same (slot : Nat) (o : TxnOutcome) (s : State) {s0 : State} (h0 : Same s0 s) : Same s0 (landPackets slot o s) := by
  refine h0.trans ?_; clear h0 s0
  unfold landPackets
  repeat' first
    | with_reducible first
      | assumption
      | exact Same.refl _
      | (intro v)
      | (lift_lets; intro v; refine same_seq v ?_ fun hv => ?_; unfold v)
      | apply State.modChan_same
      | apply landData_same
    | split

theorem endOn_same (slot : Nat) (w : OnWire) (o : TxnOutcome) (s : State) {s0 : State} (h0 : Same s0 s) : Same s0 (endOn slot w o s) := by
  refine h0.trans ?_; clear h0 s0
  unfold endOn
  repeat' first
    | with_reducible first
      | assumption
      | exact Same.refl _
      | (intro v; refine same_seq v ?_ fun hv => ?_; unfold v)
      | (intro v)
      | (lift_lets; intro v)
      | apply State.setChan_same
      | apply bulkIn_same
      | apply bulkOut_same
      | apply ctrlAck_same
      | apply errorEnd_same
      | apply haltChan_same
      | apply pushBuilt_same
      | apply pushOut_same
    | split

theorem execTransactionEnd_same (p : Port) (outcome : TxnOutcome) (s : State) : OutSame s (execTransactionEnd p outcome s) := by
  unfold execTransactionEnd
  repeat' first
    | with_reducible first
      | assumption
      | exact Same.refl _
      | apply outSame_next
      | refine OutSame.out ?_ _ ‹_ = Host.Outcome.next _›
      | apply State.setWire_same
      | apply afterBus_same
      | apply afterWire_same
      | apply endOn_same
      | apply landPackets_same
    | split

theorem afterCommit_same (slot : Nat) (r : Rec) (was : Chan) (s : State) {s0 : State} (h0 : Same s0 s) : Same s0 (afterCommit slot r was s) := by
  refine h0.trans ?_; clear h0 s0
  unfold afterCommit
  repeat' first
    | with_reducible first
      | assumption
      | exact Same.refl _
      | (intro v; refine same_seq v ?_ fun hv => ?_; unfold v)
      | (intro v)
      | (lift_lets; intro v)
      | apply State.drawn_same
      | apply State.modChan_same
      | apply State.setChan_same
      | apply afterWire_same
      | apply completeWhere_same
      | apply settleLast_same
    | split

theorem sourceHead_same (slot : Nat) (s : State) {s0 : State} (h0 : Same s0 s) : OptSame2 s0 (sourceHead slot s) := by
  refine optSame2_trans h0 ?_; clear h0 s0
  unfold sourceHead
  repeat' first
    | with_reducible first
      | assumption
      | exact Same.refl _
      | exact optSame2_none trivial
      | apply optSame2_some
      | (intro v)
      | (lift_lets; intro v)
      | apply State.setCan_same
    | split
    | (clear_value *; split)
    | (with_reducible apply same_mk; rotate_left; rfl; rfl; rfl)

theorem execRecordCommit_same (slot : Fin 4096) (s : State) : OutSame s (execRecordCommit slot s) := by
  unfold execRecordCommit
  repeat' first
    | with_reducible first
      | assumption
      | exact Same.refl _
      | apply outSame_next
      | (intro v)
      | (lift_lets; intro v)
      | refine optSame2_out ‹_ = some _› ?_
      | refine OutSame.out ?_ _ ‹_ = Host.Outcome.next _›
      | apply State.setChan_same
      | apply afterCommit_same
      | apply commitRec_same
      | apply sourceHead_same
    | dsimp -zeta only
    | split

theorem execCtrlTmoExpiry_same (slot : Fin 4096) (s : State) : OutSame s (execCtrlTmoExpiry slot s) := by
  unfold execCtrlTmoExpiry
  repeat' first
    | with_reducible first
      | assumption
      | exact Same.refl _
      | apply outSame_next
      | (intro v; refine seq_same s v ?_ fun hv => ?_; unfold v)
      | (intro v)
      | (lift_lets; intro v; refine seq_same s v ?_ fun hv => ?_; unfold v)
      | (lift_lets; intro v)
      | refine OutSame.out ?_ _ ‹_ = Host.Outcome.next _›
      | apply State.setWire_same
      | apply State.waitUntil_same
      | apply afterBus_same
      | apply ctrlEnd_same
    | split

theorem openTemplate_same (id : Nat) (rule : Nat) (q : List Byte) (s : State) {s0 : State} (h0 : Same s0 s) : Same s0 (openTemplate id rule q s) := by
  refine h0.trans ?_; clear h0 s0
  unfold openTemplate
  repeat' first
    | with_reducible first
      | assumption
      | exact Same.refl _
      | (intro v)
      | (lift_lets; intro v)
      | refine optSame2_out ‹_ = some _› ?_
      | apply groupEvent_same
      | apply loopStop_same
      | apply openCommit_same
      | apply raiseEvent_same
    | dsimp -zeta only
    | split
    | (with_reducible apply same_mk; rotate_left; rfl; rfl; rfl)

theorem autoOpen_same (id : Nat) (s : State) {s0 : State} (h0 : Same s0 s) : Same s0 (autoOpen id s) := by
  refine h0.trans ?_; clear h0 s0
  unfold autoOpen
  repeat' first
    | with_reducible first
      | assumption
      | exact Same.refl _
      | (intro v)
      | (lift_lets; intro v)
      | apply openTemplate_same
      | (apply foldl_same; rotate_left; intro _ _)
    | split

theorem breakWait_same (mb : Nat) (w : Wait) (s : State) {s0 : State} (h0 : Same s0 s) : Same s0 (breakWait mb w s) := by
  refine h0.trans ?_; clear h0 s0
  unfold breakWait
  repeat' first
    | with_reducible first
      | assumption
      | exact Same.refl _
      | (intro v)
      | (lift_lets; intro v)
      | apply State.drawn_same
      | apply canDisable_same
      | apply completeMb_same
      | apply completeWhere_same
      | apply finishAbort_same
      | apply setPortState_same
      | apply switchMode_same
    | split

theorem settlePosted_same (k : Nat) (s : State) {s0 : State} (h0 : Same s0 s) : Same s0 (settlePosted k s) := by
  refine h0.trans ?_; clear h0 s0
  unfold settlePosted
  repeat' first
    | with_reducible first
      | assumption
      | exact Same.refl _
      | (intro v)
      | (lift_lets; intro v; refine same_seq v ?_ fun hv => ?_; unfold v)
      | (lift_lets; intro v)
      | apply answer_same
      | apply breakWait_same
      | (apply foldl_same; rotate_left; intro _ _)
    | split

theorem closeExpert_same (s : State) {s0 : State} (h0 : Same s0 s) : Same s0 (closeExpert s) := by
  refine h0.trans ?_; clear h0 s0
  unfold closeExpert
  repeat' first
    | with_reducible first
      | assumption
      | exact Same.refl _
      | (intro v)
      | (lift_lets; intro v; refine same_seq v ?_ fun hv => ?_; unfold v)
      | apply State.clrFlag_same
      | apply raiseEvent_same
      | (apply foldl_same; rotate_left; intro _ _)
    | split
    | (with_reducible apply same_mk; rotate_left; rfl; rfl; rfl)

theorem closeAll_same (s : State) {s0 : State} (h0 : Same s0 s) : Same s0 (closeAll s) := by
  refine h0.trans ?_; clear h0 s0
  unfold closeAll
  repeat' first
    | with_reducible first
      | assumption
      | exact Same.refl _
      | (intro v; refine same_seq v ?_ fun hv => ?_; unfold v)
      | (intro v)
      | (lift_lets; intro v)
      | apply State.modChan_same
      | apply State.rqLevel_same
      | apply closeSlot_same
      | (apply foldl_same; rotate_left; intro _ _)
    | split
    | (with_reducible apply same_mk; rotate_left; rfl; rfl; rfl)

theorem endStops_same (s : State) {s0 : State} (h0 : Same s0 s) : Same s0 (endStops s) := by
  refine h0.trans ?_; clear h0 s0
  unfold endStops
  repeat' first
    | with_reducible first
      | assumption
      | exact Same.refl _
      | apply State.setGroup_same
      | apply groupEvent_same
      | (apply foldl_same; rotate_left; intro _ _)
    | split

theorem epochBreak_same (cause : Nat) (s : State) {s0 : State} (h0 : Same s0 s) : Same s0 (epochBreak cause s) := by
  refine h0.trans ?_; clear h0 s0
  unfold epochBreak
  repeat' first
    | with_reducible first
      | assumption
      | exact Same.refl _
      | (intro v)
      | (lift_lets; intro v; refine same_seq v ?_ fun hv => ?_; unfold v)
      | apply autoOpen_same
      | apply closeAll_same
      | apply closeExpert_same
      | apply endStops_same
      | apply raiseEvent_same
      | apply settlePosted_same
      | (apply foldl_same; rotate_left; intro _ _)
    | split
    | (with_reducible apply same_mk; rotate_left; rfl; rfl; rfl)

theorem abortOne_same (n : Nat) (s : State) {s0 : State} (h0 : Same s0 s) : Same s0 (abortOne n s).2 := by
  refine h0.trans ?_; clear h0 s0
  unfold abortOne
  repeat' first
    | with_reducible first
      | assumption
      | exact Same.refl _
      | (intro v)
      | (lift_lets; intro v)
      | apply State.drawn_same
      | apply answer_same
      | dsimp -zeta only
    | split

theorem abortMask_same (mask : Nat) (s : State) {s0 : State} (h0 : Same s0 s) : Same s0 (abortMask mask s).2 := by
  refine h0.trans ?_; clear h0 s0
  unfold abortMask
  repeat' first
    | with_reducible first
      | assumption
      | exact Same.refl _
      | (intro v)
      | (lift_lets; intro v)
      | apply abortOne_same
      | (apply foldl_same2; rotate_left; intro _ _)
      | dsimp -zeta only
    | split

theorem resolveAborts_same (s : State) {s0 : State} (h0 : Same s0 s) : Same s0 (resolveAborts s) := by
  refine h0.trans ?_; clear h0 s0
  unfold resolveAborts
  repeat' first
    | with_reducible first
      | assumption
      | exact Same.refl _
      | (intro v; refine same_seq v ?_ fun hv => ?_; unfold v)
      | (intro v)
      | (lift_lets; intro v)
      | apply abortMask_same
    | (with_reducible apply same_mk; rotate_left; rfl; rfl; rfl)

theorem abortsResume_same (chip : Nat) (s : State) {s0 : State} (h0 : Same s0 s) : Same s0 (abortsResume chip s) := by
  refine h0.trans ?_; clear h0 s0
  unfold abortsResume
  repeat' first
    | with_reducible first
      | assumption
      | exact Same.refl _
      | (intro v; refine same_seq v ?_ fun hv => ?_; unfold v)
      | (intro v)
      | (lift_lets; intro v)
      | apply State.setMb_same
      | apply resolveAborts_same
    | split
    | (with_reducible apply same_mk; rotate_left; rfl; rfl; rfl)

theorem takeId_same (s : State) {s0 : State} (h0 : Same s0 s) : Same s0 (takeId s).2 := by
  refine h0.trans ?_; clear h0 s0
  unfold takeId
  repeat' first
    | with_reducible first
      | assumption
      | exact Same.refl _
      | dsimp -zeta only
    | split
    | (with_reducible apply same_mk; rotate_left; rfl; rfl; rfl)

theorem reconfigured_same (id : Nat) (d : DevDesc) (s : State) {s0 : State} (h0 : Same s0 s) : Same s0 (reconfigured id d s) := by
  refine h0.trans ?_; clear h0 s0
  unfold reconfigured
  repeat' first
    | with_reducible first
      | assumption
      | exact Same.refl _
      | (intro v)
      | (lift_lets; intro v; refine same_seq v ?_ fun hv => ?_; unfold v)
      | apply State.modChan_same
      | apply haltChan_same
      | (apply foldl_same; rotate_left; intro _ _)
    | split

theorem rejoin_same (id : Nat) (p : Nat) (d : DevDesc) (s : State) {s0 : State} (h0 : Same s0 s) : Same s0 (rejoin id p d s) := by
  refine h0.trans ?_; clear h0 s0
  unfold rejoin
  repeat' first
    | with_reducible first
      | assumption
      | exact Same.refl _
      | (intro v; refine same_seq v ?_ fun hv => ?_; unfold v)
      | (intro v)
      | (lift_lets; intro v)
      | apply State.modChan_same
      | apply State.setDev_same
      | apply goOn_same
      | apply groupEvent_same
      | apply reconfigured_same
      | (apply foldl_same; rotate_left; intro _ _)
    | split

theorem admitDevice_same (p : Nat) (d : DevDesc) (s : State) {s0 : State} (h0 : Same s0 s) : Same s0 (admitDevice p d s) := by
  refine h0.trans ?_; clear h0 s0
  unfold admitDevice
  repeat' first
    | with_reducible first
      | assumption
      | exact Same.refl _
      | (intro v; refine same_seq v ?_ fun hv => ?_; unfold v)
      | (intro v)
      | (lift_lets; intro v; refine same_seq v ?_ fun hv => ?_; unfold v)
      | (lift_lets; intro v)
      | apply State.modUsb_same
      | apply State.setDev_same
      | apply autoOpen_same
      | apply groupEvent_same
      | apply raiseEvent_same
      | apply takeId_same
      | dsimp -zeta only
    | split

theorem settleDevice_same (p : Nat) (d : DevDesc) (s : State) {s0 : State} (h0 : Same s0 s) : Same s0 (settleDevice p d s) := by
  refine h0.trans ?_; clear h0 s0
  unfold settleDevice
  repeat' first
    | with_reducible first
      | assumption
      | exact Same.refl _
      | (intro v)
      | (lift_lets; intro v; refine same_seq v ?_ fun hv => ?_; unfold v)
      | (lift_lets; intro v)
      | apply State.setDev_same
      | apply admitDevice_same
      | apply autoOpen_same
      | apply devGone_same
      | apply reconfigured_same
      | apply rejoin_same
    | dsimp -zeta only
    | split

theorem execEnumeration_same (p : Port) (dev : DevDesc) (s : State) : OutSame s (execEnumeration p dev s) := by
  unfold execEnumeration
  repeat' first
    | with_reducible first
      | assumption
      | exact Same.refl _
      | apply outSame_next
      | (intro v; refine seq_same s v ?_ fun hv => ?_; unfold v)
      | (intro v)
      | (lift_lets; intro v)
      | apply State.modUsb_same
      | apply forgetAddrs_same
      | apply settleDevice_same
    | split

theorem execEnumerationStepFail_same (p : Port) (step : Fin 8) (hub1 : Nat) (hub2 : Nat) (s : State) : OutSame s (execEnumerationStepFail p step hub1 hub2 s) := by
  unfold execEnumerationStepFail
  repeat' first
    | with_reducible first
      | assumption
      | exact Same.refl _
      | apply outSame_next
      | (intro v; refine seq_same s v ?_ fun hv => ?_; unfold v)
      | (intro v)
      | (lift_lets; intro v)
      | apply State.modUsb_same
      | apply forgetAddrs_same
      | apply groupEvent_same
      | apply setPortState_same
      | apply startReset_same
      | apply wireDrop_same
    | split

theorem coreDevList_same (r : Req) (s : State) : ResSame s (coreDevList r s) := by
  unfold coreDevList
  repeat' first
    | with_reducible first
      | assumption
      | exact Same.refl _
      | exact resSame_query trivial

theorem execDevList_same (mb : Fin 8) (s : State) : OutSame s (execDevList mb s) := by
  exact runOp_same _ _ _ s fun r => coreDevList_same r s

theorem coreDevInfo_same (r : Req) (s : State) : ResSame s (coreDevInfo r s) := by
  unfold coreDevInfo
  repeat' first
    | with_reducible first
      | assumption
      | exact Same.refl _
      | exact resSame_refuse trivial
      | exact resSame_query trivial
      | (intro v)
      | (lift_lets; intro v)
    | split

theorem execDevInfo_same (mb : Fin 8) (s : State) : OutSame s (execDevInfo mb s) := by
  exact runOp_same _ _ _ s fun r => coreDevInfo_same r s

theorem coreDevPolicy_same (r : Req) (s : State) : ResSame s (coreDevPolicy r s) := by
  unfold coreDevPolicy
  repeat' first
    | with_reducible first
      | assumption
      | exact Same.refl _
      | exact resSame_refuse trivial
      | apply resSame_commit
      | (intro v)
      | (lift_lets; intro v)
    | split
    | (with_reducible apply same_mk; rotate_left; rfl; rfl; rfl)

theorem execDevPolicy_same (mb : Fin 8) (s : State) : OutSame s (execDevPolicy mb s) := by
  exact runOp_same _ _ _ s fun r => coreDevPolicy_same r s

theorem joinChild_same (p : Port) (child : ChildDesc) (s : State) : OutSame s (joinChild p child s) := by
  unfold joinChild
  repeat' first
    | with_reducible first
      | assumption
      | exact Same.refl _
      | apply outSame_next
      | (intro v; refine seq_same s v ?_ fun hv => ?_; unfold v)
      | (intro v)
      | (lift_lets; intro v)
      | refine OutSame.out ?_ _ ‹_ = Host.Outcome.next _›
      | apply State.setChild_same
      | apply State.setDev_same
      | apply abortsResume_same
      | apply raiseEvent_same
      | (apply foldl_same; rotate_left; intro _ _)
    | split

theorem execChildJoin_same (join : Join) (s : State) : OutSame s (execChildJoin join s) := by
  unfold execChildJoin
  repeat' first
    | with_reducible first
      | assumption
      | exact Same.refl _
      | apply outSame_next
      | refine OutSame.out ?_ _ ‹_ = Host.Outcome.next _›
      | apply joinChild_same
    | split
    | (with_reducible apply same_mk; rotate_left; rfl; rfl; rfl)

theorem execChildLost_same (chip : Fin 64) (_reason : Fin 4) (s : State) : OutSame s (execChildLost chip _reason s) := by
  unfold execChildLost
  repeat' first
    | with_reducible first
      | assumption
      | exact Same.refl _
      | apply outSame_next
      | (intro v)
      | (lift_lets; intro v)
      | apply State.setChild_same
      | apply raiseEvent_same
    | split

theorem coreDomList_same (r : Req) (s : State) : ResSame s (coreDomList r s) := by
  unfold coreDomList
  repeat' first
    | with_reducible first
      | assumption
      | exact Same.refl _
      | exact resSame_query trivial

theorem execDomList_same (mb : Fin 8) (s : State) : OutSame s (execDomList mb s) := by
  exact runOp_same _ _ _ s fun r => coreDomList_same r s

theorem coreDomEvent_same (r : Req) (s : State) : ResSame s (coreDomEvent r s) := by
  unfold coreDomEvent
  repeat' first
    | with_reducible first
      | assumption
      | exact Same.refl _
      | exact resSame_refuse trivial
      | apply resSame_commit
      | (intro v)
      | (lift_lets; intro v)
      | apply State.setChild_same
    | split

theorem execDomEvent_same (mb : Fin 8) (s : State) : OutSame s (execDomEvent mb s) := by
  exact runOp_same _ _ _ s fun r => coreDomEvent_same r s

theorem coreDomForget_same (r : Req) (s : State) : ResSame s (coreDomForget r s) := by
  unfold coreDomForget
  repeat' first
    | with_reducible first
      | assumption
      | exact Same.refl _
      | exact resSame_refuse trivial
      | apply resSame_commit
      | (intro v; refine seq_same s v ?_ fun hv => ?_; unfold v)
      | (intro v)
      | (lift_lets; intro v)
      | apply State.setChild_same
    | split
    | (with_reducible apply same_mk; rotate_left; rfl; rfl; rfl)

theorem execDomForget_same (mb : Fin 8) (s : State) : OutSame s (execDomForget mb s) := by
  unfold execDomForget
  repeat' first
    | with_reducible first
      | assumption
      | exact Same.refl _
      | apply outSame_next
      | refine OutSame.out ?_ _ ‹_ = Host.Outcome.next _›
      | apply coreDomForget_same
      | apply epochBreak_same
      | (apply runOp_same; intro _)
    | split

theorem execDomainLinkFrame_same (chip : Fin 64) (frame : DomainFrame) (s : State) : OutSame s (execDomainLinkFrame chip frame s) := by
  unfold execDomainLinkFrame
  repeat' first
    | with_reducible first
      | assumption
      | exact Same.refl _
      | apply outSame_next
      | (intro v; refine seq_same s v ?_ fun hv => ?_; unfold v)
      | (intro v)
      | (lift_lets; intro v; refine seq_same s v ?_ fun hv => ?_; unfold v)
      | (lift_lets; intro v)
      | refine OutSame.out ?_ _ ‹_ = Host.Outcome.next _›
      | apply State.refill_same
      | apply State.setChild_same
      | apply answer_same
      | apply raiseEvent_same
    | split
    | (with_reducible apply same_mk; rotate_left; rfl; rfl; rfl)

theorem flushRecords_same (s : State) {s0 : State} (h0 : Same s0 s) : Same s0 (flushRecords s) := by
  refine h0.trans ?_; clear h0 s0
  unfold flushRecords
  repeat' first
    | with_reducible first
      | assumption
      | exact Same.refl _
      | (intro v)
      | (lift_lets; intro v; refine same_seq v ?_ fun hv => ?_; unfold v)
      | (lift_lets; intro v)
      | apply State.setFlag_same
      | apply raiseEvent_same
      | apply sendAgain_same
    | split
    | (with_reducible apply same_mk; rotate_left; rfl; rfl; rfl)

theorem eachMb_same (f : Nat → Mailbox → State → State) (s : State) {s0 : State}
    (h0 : Same s0 s) (h : ∀ n m s, Same s (f n m s)) : Same s0 (eachMb f s) := by
  unfold eachMb
  exact foldl_same _ _ h0 fun s x => h _ _ s

theorem flushQueue_same (q : Nat) (far : Nat) (sent : Nat) (s : State) {s0 : State} (h0 : Same s0 s) : Same s0 (flushQueue q far sent s) := by
  refine h0.trans ?_; clear h0 s0
  unfold flushQueue
  repeat' first
    | with_reducible first
      | assumption
      | exact Same.refl _
      | (intro v)
      | (lift_lets; intro v)
      | apply State.evqLevel_same
      | apply State.setFld_same
      | apply answer_same
      | apply flushRecords_same
      | apply raiseEvent_same
      | apply sessionCut_same
      | (apply eachMb_same; rotate_left; intro _ _ _)
    | split
    | (with_reducible apply same_mk; rotate_left; rfl; rfl; rfl)

theorem execCowslipFlush_same (q : Fin 6) (far : Fin 64) (sent : Nat) (s : State) : OutSame s (execCowslipFlush q far sent s) := by
  unfold execCowslipFlush
  repeat' first
    | with_reducible first
      | assumption
      | exact Same.refl _
      | apply outSame_next
      | apply faultPulse_same
      | apply flushQueue_same

end Sys2Proof.Machine
end

