-- ==== Sys2Proof/Laws/KeepJournal.lean ====
section
/-!
SUPPORT. The rows of the journal and the CAN controllers keep the queue, the part and the lock bits.
-/

namespace Sys2Proof.Machine

theorem upstreamCut_same (detach : Bool) (s : State) {s0 : State} (h0 : Same s0 s) : Same s0 (upstreamCut detach s) := by
  refine h0.trans ?_; clear h0 s0
  unfold upstreamCut
  repeat' first
    | with_reducible first
      | assumption
      | exact Same.refl _
      | (intro v)
      | (lift_lets; intro v; refine same_seq v ?_ fun hv => ?_; unfold v)
      | apply hubDefault_same
      | apply sampleOc_same
      | apply sessionCut_same
    | split
    | (with_reducible apply same_mk; rotate_left; rfl; rfl; rfl)

theorem execUpstreamReset_same (detach : Bool) (s : State) : OutSame s (execUpstreamReset detach s) := by
  unfold execUpstreamReset
  repeat' first
    | with_reducible first
      | assumption
      | exact Same.refl _
      | apply outSame_next
      | apply upstreamCut_same
    | split

theorem withdraw_same (h : Nat) (s : State) {s0 : State} (h0 : Same s0 s) : Same s0 (withdraw h s) := by
  refine h0.trans ?_; clear h0 s0
  unfold withdraw
  repeat' first
    | with_reducible first
      | assumption
      | exact Same.refl _
    | split
    | (with_reducible apply same_mk; rotate_left; rfl; rfl; rfl)

theorem fitBudget_same (n : Nat) {s0 : State} (s : State) (h0 : Same s0 s) : Same s0 (fitBudget n s) := by
  induction n generalizing s with
  | zero => exact h0
  | succ n ih =>
    unfold fitBudget
    (repeat' split) <;> first
      | exact h0
      | exact ih _ (haltChan_same _ _ _ h0)
      | exact ih _ (withdraw_same _ _ h0)

theorem execUpstreamAttach_same (highSpeed : Bool) (s : State) : OutSame s (execUpstreamAttach highSpeed s) := by
  unfold execUpstreamAttach
  repeat' first
    | with_reducible first
      | assumption
      | exact Same.refl _
      | apply outSame_next
      | (intro v; refine seq_same s v ?_ fun hv => ?_; unfold v)
      | (intro v)
      | (lift_lets; intro v; refine seq_same s v ?_ fun hv => ?_; unfold v)
      | refine OutSame.out ?_ _ ‹_ = Host.Outcome.next _›
      | apply State.waitUntil_same
      | apply fitBudget_same
      | apply sampleOc_same
    | split
    | (with_reducible apply same_mk; rotate_left; rfl; rfl; rfl)

theorem coreLinkStatus_same (x1 : Req) (s : State) : ResSame s (coreLinkStatus x1 s) := by
  unfold coreLinkStatus
  repeat' first
    | with_reducible first
      | assumption
      | exact Same.refl _
      | exact resSame_query trivial

theorem execLinkStatus_same (mb : Fin 8) (s : State) : OutSame s (execLinkStatus mb s) := by
  exact runOp_same _ _ _ s fun r => coreLinkStatus_same r s

theorem coreLinkBudget_same (r : Req) (s : State) : ResSame s (coreLinkBudget r s) := by
  unfold coreLinkBudget
  repeat' first
    | with_reducible first
      | assumption
      | exact Same.refl _
      | exact resSame_refuse trivial
      | apply resSame_commit
      | (intro v)
      | (lift_lets; intro v)
    | split
    | (with_reducible apply same_mk; rotate_left; rfl; rfl; rfl)

theorem execLinkBudget_same (mb : Fin 8) (s : State) : OutSame s (execLinkBudget mb s) := by
  exact runOp_same _ _ _ s fun r => coreLinkBudget_same r s

theorem coreLinkDetach_same (r : Req) (s : State) : ResSame s (coreLinkDetach r s) := by
  unfold coreLinkDetach
  repeat' first
    | with_reducible first
      | assumption
      | exact Same.refl _
      | exact resSame_refuse trivial
      | apply resSame_commit
      | (intro v; refine seq_same s v ?_ fun hv => ?_; unfold v)
      | (intro v)
      | (lift_lets; intro v)
      | apply upstreamCut_same
    | split
    | (with_reducible apply same_mk; rotate_left; rfl; rfl; rfl)

theorem execLinkDetach_same (mb : Fin 8) (s : State) : OutSame s (execLinkDetach mb s) := by
  exact runOp_same _ _ _ s fun r => coreLinkDetach_same r s

theorem execJournalLevel_same (s : State) : OutSame s (execJournalLevel s) := by
  unfold execJournalLevel
  repeat' first
    | with_reducible first
      | assumption
      | exact Same.refl _
      | apply outSame_next
      | (intro v)
      | (lift_lets; intro v)
      | apply changeLevel_same
    | split

theorem checkpointNow_same (s : State) {s0 : State} (h0 : Same s0 s) : Same s0 (checkpointNow s) := by
  refine h0.trans ?_; clear h0 s0
  unfold checkpointNow
  repeat' first
    | with_reducible first
      | assumption
      | exact Same.refl _
    | (with_reducible apply same_mk; rotate_left; rfl; rfl; rfl)

theorem execCheckpoint_same (s : State) : OutSame s (execCheckpoint s) := by
  unfold execCheckpoint
  repeat' first
    | with_reducible first
      | assumption
      | exact Same.refl _
      | apply outSame_next
      | apply State.waitUntil_same
      | apply checkpointNow_same
    | split

theorem sealNow_same (s : State) {s0 : State} (h0 : Same s0 s) : Same s0 (sealNow s) := by
  refine h0.trans ?_; clear h0 s0
  unfold sealNow
  repeat' first
    | with_reducible first
      | assumption
      | exact Same.refl _
      | (intro v; refine same_seq v ?_ fun hv => ?_; unfold v)
      | (intro v)
      | (lift_lets; intro v)
      | apply State.modChan_same
      | apply skipTarget_same
      | (apply foldl_same; rotate_left; intro _ _)
    | split
    | (with_reducible apply same_mk; rotate_left; rfl; rfl; rfl)

theorem execSeal_same (s : State) : OutSame s (execSeal s) := by
  unfold execSeal
  repeat' first
    | with_reducible first
      | assumption
      | exact Same.refl _
      | apply outSame_next
      | apply sealNow_same

theorem execUnseal_same (s : State) : OutSame s (execUnseal s) := by
  unfold execUnseal
  repeat' first
    | with_reducible first
      | assumption
      | exact Same.refl _
      | apply outSame_next
      | (intro v; refine seq_same s v ?_ fun hv => ?_; unfold v)
      | (intro v)
      | (lift_lets; intro v)
      | apply settlePassed_same
      | (apply foldl_same; rotate_left; intro _ _)
    | split
    | (with_reducible apply same_mk; rotate_left; rfl; rfl; rfl)

theorem startMgmt_same (why : Nat) (s : State) {s0 : State} (h0 : Same s0 s) : Same s0 (startMgmt why s) := by
  refine h0.trans ?_; clear h0 s0
  unfold startMgmt
  repeat' first
    | with_reducible first
      | assumption
      | exact Same.refl _
    | split
    | (with_reducible apply same_mk; rotate_left; rfl; rfl; rfl)

theorem mgmtFault_same (why : Nat) (s : State) {s0 : State} (h0 : Same s0 s) : Same s0 (mgmtFault why s) := by
  refine h0.trans ?_; clear h0 s0
  unfold mgmtFault
  repeat' first
    | with_reducible first
      | assumption
      | exact Same.refl _
      | (intro v; refine same_seq v ?_ fun hv => ?_; unfold v)
      | (intro v)
      | (lift_lets; intro v)
      | apply faultGone_same
      | apply faultHold_same
      | apply startMgmt_same
    | split

theorem restartMb_same (res : List Byte) (n : Nat) (m : Mailbox) (s : State) {s0 : State} (h0 : Same s0 s) : Same s0 (restartMb res n m s) := by
  refine h0.trans ?_; clear h0 s0
  unfold restartMb
  repeat' first
    | with_reducible first
      | assumption
      | exact Same.refl _
      | apply State.setMb_same
      | apply answer_same
    | split

theorem mgmtRestarted_same (s : State) {s0 : State} (h0 : Same s0 s) : Same s0 (mgmtRestarted s) := by
  refine h0.trans ?_; clear h0 s0
  unfold mgmtRestarted
  repeat' first
    | with_reducible first
      | assumption
      | exact Same.refl _
      | (intro v; refine same_seq v ?_ fun hv => ?_; unfold v)
      | (intro v)
      | (lift_lets; intro v)
      | apply abortMask_same
      | apply faultGone_same
      | apply resolveAborts_same
      | apply restartMb_same
      | apply sessionCut_same
      | (apply foldl_same; rotate_left; intro _ _)
    | split
    | (with_reducible apply same_mk; rotate_left; rfl; rfl; rfl)

theorem execManagementRestart_same (cause : Fin 3) (s : State) : OutSame s (execManagementRestart cause s) := by
  unfold execManagementRestart
  repeat' first
    | with_reducible first
      | assumption
      | exact Same.refl _
      | apply outSame_next
      | (intro v)
      | (lift_lets; intro v; refine seq_same s v ?_ fun hv => ?_; unfold v)
      | apply mgmtFault_same
      | apply mgmtRestarted_same
    | split

theorem execManagementRestartTimeout_same (s : State) : OutSame s (execManagementRestartTimeout s) := by
  unfold execManagementRestartTimeout
  repeat' first
    | with_reducible first
      | assumption
      | exact Same.refl _
      | apply outSame_next
      | refine OutSame.out ?_ _ ‹_ = Host.Outcome.next _›
      | apply State.waitUntil_same
      | apply faultPulse_same
      | apply startMgmt_same
    | split

theorem execAbortEscalation_same (s : State) : OutSame s (execAbortEscalation s) := by
  unfold execAbortEscalation
  repeat' first
    | with_reducible first
      | assumption
      | exact Same.refl _
      | apply outSame_next
      | (intro v; refine seq_same s v ?_ fun hv => ?_; unfold v)
      | (intro v)
      | (lift_lets; intro v)
      | apply State.setFld_same
      | apply State.waitUntil_same
      | apply mgmtFault_same
    | split
    | (with_reducible apply same_mk; rotate_left; rfl; rfl; rfl)

theorem startGroup_same (g : Nat) (s : State) {s0 : State} (h0 : Same s0 s) : Same s0 (startGroup g s) := by
  refine h0.trans ?_; clear h0 s0
  unfold startGroup
  repeat' first
    | with_reducible first
      | assumption
      | exact Same.refl _
      | (intro v; refine same_seq v ?_ fun hv => ?_; unfold v)
      | (intro v)
      | (lift_lets; intro v)
      | apply State.setGroup_same
      | apply groupEvent_same
      | apply wireDrop_same
      | (apply foldl_same; rotate_left; intro _ _)
    | split
    | (with_reducible apply same_mk; rotate_left; rfl; rfl; rfl)

theorem groupFault_same (g : Nat) (s : State) {s0 : State} (h0 : Same s0 s) : Same s0 (groupFault g s) := by
  refine h0.trans ?_; clear h0 s0
  unfold groupFault
  repeat' first
    | with_reducible first
      | assumption
      | exact Same.refl _
      | apply faultPulse_same
      | apply startGroup_same

theorem groupRestarted_same (g : Nat) (s : State) {s0 : State} (h0 : Same s0 s) : Same s0 (groupRestarted g s) := by
  refine h0.trans ?_; clear h0 s0
  unfold groupRestarted
  repeat' first
    | with_reducible first
      | assumption
      | exact Same.refl _
      | (intro v; refine same_seq v ?_ fun hv => ?_; unfold v)
      | (intro v)
      | (lift_lets; intro v)
      | apply State.setGroup_same
      | apply faultGone_same
      | apply groupEvent_same
    | split

theorem execGroupRestart_same (g : Fin 6) (s : State) : OutSame s (execGroupRestart g s) := by
  unfold execGroupRestart
  repeat' first
    | with_reducible first
      | assumption
      | exact Same.refl _
      | apply outSame_next
      | (intro v; refine seq_same s v ?_ fun hv => ?_; unfold v)
      | (intro v)
      | (lift_lets; intro v)
      | apply groupFault_same
      | apply groupRestarted_same
    | split

theorem execGroupRestartTimeout_same (g : Fin 6) (s : State) : OutSame s (execGroupRestartTimeout g s) := by
  unfold execGroupRestartTimeout
  repeat' first
    | with_reducible first
      | assumption
      | exact Same.refl _
      | apply outSame_next
      | (intro v; refine seq_same s v ?_ fun hv => ?_; unfold v)
      | (intro v)
      | (lift_lets; intro v)
      | apply State.setGroup_same
      | apply State.waitUntil_same
      | apply faultHold_same
      | apply faultPulse_same
      | apply groupEvent_same
    | split

theorem loadTiming_same (c : Nat) (t : CanTiming) (fd : Bool) (s : State) {s0 : State} (h0 : Same s0 s) : Same s0 (loadTiming c t fd s) := by
  refine h0.trans ?_; clear h0 s0
  unfold loadTiming
  repeat' first
    | with_reducible first
      | assumption
      | exact Same.refl _
      | (intro v)
      | (lift_lets; intro v; refine same_seq v ?_ fun hv => ?_; unfold v)
      | apply State.setReg_same
    | split

theorem coreCanConfig_same (r : Req) (s : State) : ResSame s (coreCanConfig r s) := by
  unfold coreCanConfig
  repeat' first
    | with_reducible first
      | assumption
      | exact Same.refl _
      | exact resSame_refuse trivial
      | apply resSame_commit
      | (intro v; refine seq_same s v ?_ fun hv => ?_; unfold v)
      | (intro v)
      | (lift_lets; intro v)
      | apply State.setReg_same
      | apply loadTiming_same
    | split

theorem execCanConfig_same (mb : Fin 8) (s : State) : OutSame s (execCanConfig mb s) := by
  exact runOp_same _ _ _ s fun r => coreCanConfig_same r s

theorem canStart_same (c : Nat) (s : State) {s0 : State} (h0 : Same s0 s) : Same s0 (canStart c s) := by
  refine h0.trans ?_; clear h0 s0
  unfold canStart
  repeat' first
    | with_reducible first
      | assumption
      | exact Same.refl _
      | (intro v)
      | (lift_lets; intro v; refine same_seq v ?_ fun hv => ?_; unfold v)
      | apply State.setCan_same
      | apply State.setFlag_same
      | apply canState_same

theorem coreCanEnable_same (r : Req) (s : State) : ResSame s (coreCanEnable r s) := by
  unfold coreCanEnable
  repeat' first
    | with_reducible first
      | assumption
      | exact Same.refl _
      | exact resSame_refuse trivial
      | apply resSame_commit
      | apply resSame_commitWait
      | (intro v)
      | (lift_lets; intro v)
      | apply canDisable_same
      | apply canStart_same
    | split

theorem execCanEnable_same (mb : Fin 8) (s : State) : OutSame s (execCanEnable mb s) := by
  exact runOp_same _ _ _ s fun r => coreCanEnable_same r s

theorem coreCanFilter_same (r : Req) (s : State) : ResSame s (coreCanFilter r s) := by
  unfold coreCanFilter
  repeat' first
    | with_reducible first
      | assumption
      | exact Same.refl _
      | exact resSame_refuse trivial
      | apply resSame_commit
      | (intro v)
      | (lift_lets; intro v)
      | apply State.setReg_same
    | split

theorem execCanFilter_same (mb : Fin 8) (s : State) : OutSame s (execCanFilter mb s) := by
  exact runOp_same _ _ _ s fun r => coreCanFilter_same r s

theorem coreCanTx_same (r : Req) (s : State) : ResSame s (coreCanTx r s) := by
  unfold coreCanTx
  repeat' first
    | with_reducible first
      | assumption
      | exact Same.refl _
      | exact resSame_refuse trivial
      | apply resSame_commit
      | (intro v)
      | (lift_lets; intro v)
      | apply State.setCan_same
    | split

theorem execCanTx_same (mb : Fin 8) (s : State) : OutSame s (execCanTx mb s) := by
  exact runOp_same _ _ _ s fun r => coreCanTx_same r s

theorem coreCanTxabort_same (r : Req) (s : State) : ResSame s (coreCanTxabort r s) := by
  unfold coreCanTxabort
  repeat' first
    | with_reducible first
      | assumption
      | exact Same.refl _
      | apply resSame_commit
      | apply resSame_commitWait
      | (intro v; refine seq_same s v ?_ fun hv => ?_; unfold v)
      | (intro v)
      | (lift_lets; intro v)
      | apply State.setCan_same
      | apply abortBufs_same
    | split

theorem execCanTxabort_same (mb : Fin 8) (s : State) : OutSame s (execCanTxabort mb s) := by
  exact runOp_same _ _ _ s fun r => coreCanTxabort_same r s

theorem coreCanRecover_same (r : Req) (s : State) : ResSame s (coreCanRecover r s) := by
  unfold coreCanRecover
  repeat' first
    | with_reducible first
      | assumption
      | exact Same.refl _
      | exact resSame_refuse trivial
      | apply resSame_commit
      | (intro v)
      | (lift_lets; intro v)
      | apply State.setCan_same
    | split

theorem execCanRecover_same (mb : Fin 8) (s : State) : OutSame s (execCanRecover mb s) := by
  exact runOp_same _ _ _ s fun r => coreCanRecover_same r s

theorem coreCanAutobaud_same (r : Req) (s : State) : ResSame s (coreCanAutobaud r s) := by
  unfold coreCanAutobaud
  repeat' first
    | with_reducible first
      | assumption
      | exact Same.refl _
      | exact resSame_refuse trivial
      | apply resSame_commitWait
      | (intro v)
      | (lift_lets; intro v)
      | apply State.setCan_same
      | apply canState_same
    | split

theorem execCanAutobaud_same (mb : Fin 8) (s : State) : OutSame s (execCanAutobaud mb s) := by
  exact runOp_same _ _ _ s fun r => coreCanAutobaud_same r s

theorem coreCanStatus_same (r : Req) (s : State) : ResSame s (coreCanStatus r s) := by
  unfold coreCanStatus
  repeat' first
    | with_reducible first
      | assumption
      | exact Same.refl _
      | exact resSame_query trivial

theorem execCanStatus_same (mb : Fin 8) (s : State) : OutSame s (execCanStatus mb s) := by
  exact runOp_same _ _ _ s fun r => coreCanStatus_same r s

theorem scriptEnd_same (last : Nat) (reason : Nat) (s : State) {s0 : State} (h0 : Same s0 s) : Same s0 (scriptEnd last reason s) := by
  refine h0.trans ?_; clear h0 s0
  unfold scriptEnd
  repeat' first
    | with_reducible first
      | assumption
      | exact Same.refl _
      | (intro v)
      | (lift_lets; intro v; refine same_seq v ?_ fun hv => ?_; unfold v)
      | apply State.setCan_same
      | apply abortBufs_same
      | apply raiseEvent_same
    | split
    | (with_reducible apply same_mk; rotate_left; rfl; rfl; rfl)

theorem answerAbort_same (c : Nat) (b : Nat) (sent : Bool) (s : State) {s0 : State} (h0 : Same s0 s) : Same s0 (answerAbort c b sent s) := by
  refine h0.trans ?_; clear h0 s0
  unfold answerAbort
  repeat' first
    | with_reducible first
      | assumption
      | exact Same.refl _
      | apply completeMb_same
      | (apply foldl_same; rotate_left; intro _ _)
    | split

theorem canBusOff_same (c : Nat) (s : State) {s0 : State} (h0 : Same s0 s) : Same s0 (canBusOff c s) := by
  refine h0.trans ?_; clear h0 s0
  unfold canBusOff
  repeat' first
    | with_reducible first
      | assumption
      | exact Same.refl _
      | (intro v)
      | (lift_lets; intro v; refine same_seq v ?_ fun hv => ?_; unfold v)
      | apply State.setFlag_same
      | apply abortBufs_same
      | apply answerAbort_same
      | apply canState_same
      | apply faultHold_same
      | apply scriptEnd_same
      | apply txEnd_same
    | split

theorem canCounters_same (c : Nat) (tec : Nat) (rxErr : Nat) (s : State) {s0 : State} (h0 : Same s0 s) : Same s0 (canCounters c tec rxErr s) := by
  refine h0.trans ?_; clear h0 s0
  unfold canCounters
  repeat' first
    | with_reducible first
      | assumption
      | exact Same.refl _
      | (intro v; refine same_seq v ?_ fun hv => ?_; unfold v)
      | (intro v)
      | (lift_lets; intro v)
      | apply State.setCan_same
      | apply canBusOff_same
      | apply canState_same
    | split

theorem canError_same (c : Nat) (kind : Fin 6) (s : State) {s0 : State} (h0 : Same s0 s) : Same s0 (canError c kind s) := by
  refine h0.trans ?_; clear h0 s0
  unfold canError
  repeat' first
    | with_reducible first
      | assumption
      | exact Same.refl _
      | (intro v)
      | (lift_lets; intro v)
      | apply State.setCan_same

theorem recDown_same (s : State) (n : Nat) {s0 : State} (h0 : Same s0 s) : Same s0 (recDown s n).2 := by
  refine h0.trans ?_; clear h0 s0
  unfold recDown
  repeat' first
    | with_reducible first
      | assumption
      | exact Same.refl _
      | apply State.drawn_same
      | dsimp -zeta only
    | split

theorem rxPush_same (c : Nat) (q : Nat) (r : Rec) (s : State) {s0 : State} (h0 : Same s0 s) : Same s0 (rxPush c q r s) := by
  refine h0.trans ?_; clear h0 s0
  unfold rxPush
  repeat' first
    | with_reducible first
      | assumption
      | exact Same.refl _
      | (intro v; refine same_seq v ?_ fun hv => ?_; unfold v)
      | (intro v)
      | (lift_lets; intro v)
      | apply State.incFld_same
      | apply State.setCan_same
      | apply State.setFlag_same
      | apply raiseEvent_same
    | split

theorem autobaudEnd_same (c : Nat) (idx : Nat) (ver : Bool) (s : State) {s0 : State} (h0 : Same s0 s) : Same s0 (autobaudEnd c idx ver s) := by
  refine h0.trans ?_; clear h0 s0
  unfold autobaudEnd
  repeat' first
    | with_reducible first
      | assumption
      | exact Same.refl _
      | (intro v; refine same_seq v ?_ fun hv => ?_; unfold v)
      | (intro v)
      | (lift_lets; intro v)
      | apply State.setCan_same
      | apply canState_same
      | apply completeWhere_same
      | apply raiseEvent_same

theorem autobaudFrame_same (c : Nat) (f : CanFrame) (s : State) {s0 : State} (h0 : Same s0 s) : Same s0 (autobaudFrame c f s) := by
  refine h0.trans ?_; clear h0 s0
  unfold autobaudFrame
  repeat' first
    | with_reducible first
      | assumption
      | exact Same.refl _
      | (intro v)
      | (lift_lets; intro v)
      | apply State.setCan_same
      | apply autobaudEnd_same
      | apply canError_same
      | apply loadTiming_same
    | split

theorem canStore_same (c : Nat) (frame : CanFrame) (r : Nat → Rec) (s : State) {s0 : State} (h0 : Same s0 s) : Same s0 (canStore c frame r s) := by
  refine h0.trans ?_; clear h0 s0
  unfold canStore
  repeat' first
    | with_reducible first
      | assumption
      | exact Same.refl _
      | (intro v)
      | (lift_lets; intro v; refine same_seq v ?_ fun hv => ?_; unfold v)
      | (lift_lets; intro v)
      | apply State.incFld_same
      | apply canCounters_same
      | apply recDown_same
      | apply rxPush_same
      | dsimp -zeta only
    | split

theorem execCanFrameReceived_same (c : Fin 2) (frame : CanFrame) (ticks : Nat) (s : State) : OutSame s (execCanFrameReceived c frame ticks s) := by
  unfold execCanFrameReceived
  repeat' first
    | with_reducible first
      | assumption
      | exact Same.refl _
      | apply outSame_next
      | (intro v)
      | (lift_lets; intro v; refine seq_same s v ?_ fun hv => ?_; unfold v)
      | apply State.elapse_same
      | apply autobaudFrame_same
      | apply canCounters_same
      | apply canError_same
      | apply canStore_same
    | split

theorem execAutobaudDwellEnd_same (c : Fin 2) (s : State) : OutSame s (execAutobaudDwellEnd c s) := by
  unfold execAutobaudDwellEnd
  repeat' first
    | with_reducible first
      | assumption
      | exact Same.refl _
      | apply outSame_next
      | (intro v; refine seq_same s v ?_ fun hv => ?_; unfold v)
      | (intro v)
      | (lift_lets; intro v)
      | apply State.setCan_same
      | apply State.waitUntil_same
      | apply autobaudEnd_same
    | split

theorem canSample_same (c : Nat) (f : CanFrame) (s : State) {s0 : State} (h0 : Same s0 s) : Same s0 (canSample c f s) := by
  refine h0.trans ?_; clear h0 s0
  unfold canSample
  repeat' first
    | with_reducible first
      | assumption
      | exact Same.refl _
      | (intro v)
      | (lift_lets; intro v)
      | apply State.drawn_same
      | apply State.setCan_same
    | split

theorem execCanArbitrationStart_same (c : Fin 2) (s : State) : OutSame s (execCanArbitrationStart c s) := by
  unfold execCanArbitrationStart
  repeat' first
    | with_reducible first
      | assumption
      | exact Same.refl _
      | apply outSame_next
      | (intro v; refine seq_same s v ?_ fun hv => ?_; unfold v)
      | (intro v)
      | (lift_lets; intro v)
      | refine OutSame.out ?_ _ ‹_ = Host.Outcome.next _›
      | apply State.setCan_same
      | apply State.waitUntil_same
      | apply canSample_same
    | dsimp -zeta only
    | split

theorem execCanArmedDue_same (c : Fin 2) (buf : Fin 32) (s : State) : OutSame s (execCanArmedDue c buf s) := by
  unfold execCanArmedDue
  repeat' first
    | with_reducible first
      | assumption
      | exact Same.refl _
      | apply outSame_next
      | (intro v)
      | (lift_lets; intro v)
      | refine optSame_out ‹_ = some _› ?_
      | refine OutSame.out ?_ _ ‹_ = Host.Outcome.next _›
      | apply State.reach_same
      | apply State.setCan_same
    | split

theorem captureMirror_same (f : CanFrame) (s : State) {s0 : State} (h0 : Same s0 s) : Same s0 (captureMirror f s) := by
  refine h0.trans ?_; clear h0 s0
  unfold captureMirror
  repeat' first
    | with_reducible first
      | assumption
      | exact Same.refl _
    | split
    | (with_reducible apply same_mk; rotate_left; rfl; rfl; rfl)

theorem txSent_same (c : Nat) (b : Nat) (s : State) {s0 : State} (h0 : Same s0 s) : Same s0 (txSent c b s) := by
  refine h0.trans ?_; clear h0 s0
  unfold txSent
  repeat' first
    | with_reducible first
      | assumption
      | exact Same.refl _
      | (intro v; refine same_seq v ?_ fun hv => ?_; unfold v)
      | (intro v)
      | (lift_lets; intro v)
      | apply canCounters_same
      | apply captureMirror_same
      | apply raiseEvent_same
      | apply txEnd_same
    | split

theorem txRetry_same (c : Nat) (b : Nat) (err : Bool) (counts : Bool) (s : State) {s0 : State} (h0 : Same s0 s) : Same s0 (txRetry c b err counts s) := by
  refine h0.trans ?_; clear h0 s0
  unfold txRetry
  repeat' first
    | with_reducible first
      | assumption
      | exact Same.refl _
      | (intro v)
      | (lift_lets; intro v)
      | apply State.setCan_same
      | apply txEnd_same
    | split

theorem txError_same (c : Nat) (b : Nat) (kind : Fin 6) (counts : Bool) (s : State) {s0 : State} (h0 : Same s0 s) : Same s0 (txError c b kind counts s) := by
  refine h0.trans ?_; clear h0 s0
  unfold txError
  repeat' first
    | with_reducible first
      | assumption
      | exact Same.refl _
      | (intro v)
      | (lift_lets; intro v; refine same_seq v ?_ fun hv => ?_; unfold v)
      | apply canCounters_same
      | apply canError_same
      | apply txRetry_same
    | split

theorem execCanTxEnd_same (c : Fin 2) (result : CanResult) (s : State) : OutSame s (execCanTxEnd c result s) := by
  unfold execCanTxEnd
  repeat' first
    | with_reducible first
      | assumption
      | exact Same.refl _
      | apply outSame_next
      | (intro v)
      | (lift_lets; intro v; refine seq_same s v ?_ fun hv => ?_; unfold v)
      | (lift_lets; intro v)
      | refine OutSame.out ?_ _ ‹_ = Host.Outcome.next _›
      | apply answerAbort_same
      | apply txError_same
      | apply txRetry_same
      | apply txSent_same
    | split

theorem execCanErrorStateChange_same (c : Fin 2) (err : CanError) (s : State) : OutSame s (execCanErrorStateChange c err s) := by
  unfold execCanErrorStateChange
  repeat' first
    | with_reducible first
      | assumption
      | exact Same.refl _
      | apply outSame_next
      | (intro v)
      | (lift_lets; intro v)
      | refine OutSame.out ?_ _ ‹_ = Host.Outcome.next _›
      | apply canCounters_same
      | apply canError_same
    | split

theorem execBusOff_same (c : Fin 2) (s : State) : OutSame s (execBusOff c s) := by
  unfold execBusOff
  repeat' first
    | with_reducible first
      | assumption
      | exact Same.refl _
      | apply outSame_next
      | apply canCounters_same
    | split

theorem execBusOffRecoveryEnd_same (c : Fin 2) (s : State) : OutSame s (execBusOffRecoveryEnd c s) := by
  unfold execBusOffRecoveryEnd
  repeat' first
    | with_reducible first
      | assumption
      | exact Same.refl _
      | apply outSame_next
      | (intro v; refine seq_same s v ?_ fun hv => ?_; unfold v)
      | (intro v)
      | (lift_lets; intro v)
      | apply State.setCan_same
      | apply State.waitUntil_same
      | apply canState_same
      | apply faultGone_same
    | split

theorem execCanDisableComplete_same (c : Fin 2) (s : State) : OutSame s (execCanDisableComplete c s) := by
  unfold execCanDisableComplete
  repeat' first
    | with_reducible first
      | assumption
      | exact Same.refl _
      | apply outSame_next
      | (intro v)
      | (lift_lets; intro v)
      | apply canStopped_same
      | apply faultGone_same
    | split

end Sys2Proof.Machine
end

