-- ==== Sys2Proof/Laws/KeepFaults.lean ====
section
/-!
SUPPORT. The rows of integrity, faults and domains keep the queue, the part and the lock bits.
-/

namespace Sys2Proof.Machine

theorem State.setNote_same (s : State) (n : PageNote) {s0 : State} (h0 : Same s0 s) : Same s0 (State.setNote s n) := by
  refine h0.trans ?_; clear h0 s0
  unfold State.setNote
  repeat' first
    | with_reducible first
      | assumption
      | exact Same.refl _
      | (intro v)
      | (lift_lets; intro v)
    | split
    | (with_reducible apply same_mk; rotate_left; rfl; rfl; rfl)

theorem logInteg_same (e : LogEnt) (s : State) {s0 : State} (h0 : Same s0 s) : Same s0 (logInteg e s) := by
  refine h0.trans ?_; clear h0 s0
  unfold logInteg
  repeat' first
    | with_reducible first
      | assumption
      | exact Same.refl _
      | (intro v)
      | (lift_lets; intro v)
    | split
    | (with_reducible apply same_mk; rotate_left; rfl; rfl; rfl)

theorem addDue_same (r : Nat) (p : Nat) (s : State) {s0 : State} (h0 : Same s0 s) : Same s0 (addDue r p s) := by
  refine h0.trans ?_; clear h0 s0
  unfold addDue
  repeat' first
    | with_reducible first
      | assumption
      | exact Same.refl _
    | split
    | (with_reducible apply same_mk; rotate_left; rfl; rfl; rfl)

theorem retireOf_same (r : Nat) (p : Nat) (s : State) {s0 : State} (h0 : Same s0 s) : Same s0 (retireOf r p s) := by
  refine h0.trans ?_; clear h0 s0
  unfold retireOf
  repeat' first
    | with_reducible first
      | assumption
      | exact Same.refl _
      | apply addDue_same
    | split

theorem bankCorrected_same (b : Nat) (s : State) {s0 : State} (h0 : Same s0 s) : Same s0 (bankCorrected b s) := by
  refine h0.trans ?_; clear h0 s0
  unfold bankCorrected
  repeat' first
    | with_reducible first
      | assumption
      | exact Same.refl _
      | (intro v; refine same_seq v ?_ fun hv => ?_; unfold v)
      | (intro v)
      | (lift_lets; intro v)
      | apply addDue_same
    | split
    | (with_reducible apply same_mk; rotate_left; rfl; rfl; rfl)

theorem correctPage_same (g : PageRef) (n : Nat) (req : Nat) (core : Nat) (s : State) {s0 : State} (h0 : Same s0 s) : Same s0 (correctPage g n req core s) := by
  refine h0.trans ?_; clear h0 s0
  unfold correctPage
  repeat' first
    | with_reducible first
      | assumption
      | exact Same.refl _
      | (intro v; refine same_seq v ?_ fun hv => ?_; unfold v)
      | (intro v)
      | (lift_lets; intro v; refine same_seq v ?_ fun hv => ?_; unfold v)
      | (lift_lets; intro v)
      | apply State.setRegion_same
      | apply addDue_same
      | apply bankCorrected_same
      | apply faultPulse_same
      | apply logInteg_same
      | apply raiseEvent_same
      | dsimp -zeta only
    | split
    | (with_reducible apply same_mk; rotate_left; rfl; rfl; rfl)

theorem uncorrectable_same (g : PageRef) (req : Nat) (core : Nat) (s : State) {s0 : State} (h0 : Same s0 s) : Same s0 (uncorrectable g req core s) := by
  refine h0.trans ?_; clear h0 s0
  unfold uncorrectable
  repeat' first
    | with_reducible first
      | assumption
      | exact Same.refl _
      | (intro v; refine same_seq v ?_ fun hv => ?_; unfold v)
      | (intro v)
      | (lift_lets; intro v)
      | apply State.setFlag_same
      | apply State.setRegion_same
      | apply logInteg_same
      | apply raiseEvent_same

theorem poison_same (r : Nat) (p : Nat) (s : State) {s0 : State} (h0 : Same s0 s) : Same s0 (poison r p s) := by
  refine h0.trans ?_; clear h0 s0
  unfold poison
  repeat' first
    | with_reducible first
      | assumption
      | exact Same.refl _
      | apply State.setNote_same
      | apply retireOf_same

theorem descriptorsLost_same (g : PageRef) (s : State) {s0 : State} (h0 : Same s0 s) : Same s0 (descriptorsLost g s) := by
  refine h0.trans ?_; clear h0 s0
  unfold descriptorsLost
  repeat' first
    | with_reducible first
      | assumption
      | exact Same.refl _
      | apply poison_same
      | (apply foldl_same; rotate_left; intro _ _)

theorem journalLost_same (s : State) {s0 : State} (h0 : Same s0 s) : Same s0 (journalLost s) := by
  refine h0.trans ?_; clear h0 s0
  unfold journalLost
  repeat' first
    | with_reducible first
      | assumption
      | exact Same.refl _
      | apply epochBreak_same
      | apply faultPulse_same

theorem ueOutcome_same (g : PageRef) (who : Requester) (s : State) {s0 : State} (h0 : Same s0 s) : Same s0 (ueOutcome g who s) := by
  refine h0.trans ?_; clear h0 s0
  unfold ueOutcome
  repeat' first
    | with_reducible first
      | assumption
      | exact Same.refl _
      | (intro v; refine same_seq v ?_ fun hv => ?_; unfold v)
      | (intro v)
      | (lift_lets; intro v)
      | apply State.modChan_same
      | apply descriptorsLost_same
      | apply faultPulse_same
      | apply flushQueue_same
      | apply haltChan_same
      | apply journalLost_same
      | apply mgmtFault_same
      | apply startGroup_same
    | split
    | (with_reducible apply same_mk; rotate_left; rfl; rfl; rfl)

theorem execParityError_same (page : PageRef) (errors : Nat) (who : Requester) (s : State) : OutSame s (execParityError page errors who s) := by
  unfold execParityError
  repeat' first
    | with_reducible first
      | assumption
      | exact Same.refl _
      | apply outSame_next
      | (intro v)
      | (lift_lets; intro v)
      | apply correctPage_same
      | apply ueOutcome_same
      | apply uncorrectable_same
      | dsimp -zeta only
    | split

theorem execStaleOvf_same (page : PageRef) (s : State) : OutSame s (execStaleOvf page s) := by
  unfold execStaleOvf
  repeat' first
    | with_reducible first
      | assumption
      | exact Same.refl _
      | apply outSame_next
      | (intro v; refine seq_same s v ?_ fun hv => ?_; unfold v)
      | (intro v)
      | (lift_lets; intro v; refine seq_same s v ?_ fun hv => ?_; unfold v)
      | (lift_lets; intro v)
      | refine OutSame.out ?_ _ ‹_ = Host.Outcome.next _›
      | apply State.setFlag_same
      | apply State.setNote_same
      | apply faultPulse_same
      | apply logInteg_same
      | apply raiseEvent_same
      | apply writeLine_same
      | dsimp -zeta only
    | split
    | (with_reducible apply same_mk; rotate_left; rfl; rfl; rfl)

theorem execStaleRecompute_same (page : PageRef) (s : State) : OutSame s (execStaleRecompute page s) := by
  unfold execStaleRecompute
  repeat' first
    | with_reducible first
      | assumption
      | exact Same.refl _
      | apply outSame_next
      | refine OutSame.out ?_ _ ‹_ = Host.Outcome.next _›
      | apply State.setNote_same
    | split

theorem drainRegion_same (r : Nat) (s : State) {s0 : State} (h0 : Same s0 s) : Same s0 (drainRegion r s) := by
  refine h0.trans ?_; clear h0 s0
  unfold drainRegion
  repeat' first
    | with_reducible first
      | assumption
      | exact Same.refl _
      | apply State.setNote_same
      | (apply foldl_same; rotate_left; intro _ _)

theorem walkTo_same (m : Nat) (next : Nat) (s : State) {s0 : State} (h0 : Same s0 s) : Same s0 (walkTo m next s) := by
  refine h0.trans ?_; clear h0 s0
  unfold walkTo
  repeat' first
    | with_reducible first
      | assumption
      | exact Same.refl _
      | (intro v)
      | (lift_lets; intro v; refine same_seq v ?_ fun hv => ?_; unfold v)
      | apply State.waitUntil_same
    | (with_reducible apply same_mk; rotate_left; rfl; rfl; rfl)

theorem visitPage_same (r : Nat) (p : Nat) (s : State) {s0 : State} (h0 : Same s0 s) : Same s0 (visitPage r p s) := by
  refine h0.trans ?_; clear h0 s0
  unfold visitPage
  repeat' first
    | with_reducible first
      | assumption
      | exact Same.refl _
      | (intro v; refine same_seq v ?_ fun hv => ?_; unfold v)
      | (intro v)
      | (lift_lets; intro v)
      | apply walkTo_same
    | split
    | (with_reducible apply same_mk; rotate_left; rfl; rfl; rfl)

theorem execScrubVisit_same (page : PageRef) (errors : Nat) (s : State) : OutSame s (execScrubVisit page errors s) := by
  unfold execScrubVisit
  repeat' first
    | with_reducible first
      | assumption
      | exact Same.refl _
      | apply outSame_next
      | (intro v; refine seq_same s v ?_ fun hv => ?_; unfold v)
      | (intro v)
      | (lift_lets; intro v)
      | apply State.setNote_same
      | apply correctPage_same
      | apply descriptorsLost_same
      | apply faultPulse_same
      | apply journalLost_same
      | apply poison_same
      | apply retireOf_same
      | apply uncorrectable_same
      | apply visitPage_same
    | split

theorem coreIntegStatus_same (r : Req) (s : State) : ResSame s (coreIntegStatus r s) := by
  unfold coreIntegStatus
  repeat' first
    | with_reducible first
      | assumption
      | exact Same.refl _
      | exact resSame_refuse trivial
      | exact resSame_query trivial
      | (intro v)
      | (lift_lets; intro v)
    | split

theorem execIntegStatus_same (mb : Fin 8) (s : State) : OutSame s (execIntegStatus mb s) := by
  exact runOp_same _ _ _ s fun r => coreIntegStatus_same r s

theorem setRegionMode_same (n : Nat) (mode : Nat) (retain : Nat) (s : State) {s0 : State} (h0 : Same s0 s) : Same s0 (setRegionMode n mode retain s) := by
  refine h0.trans ?_; clear h0 s0
  unfold setRegionMode
  repeat' first
    | with_reducible first
      | assumption
      | exact Same.refl _
      | (intro v)
      | (lift_lets; intro v; refine same_seq v ?_ fun hv => ?_; unfold v)
      | apply State.setRegion_same
      | apply drainRegion_same
    | split

theorem coreIntegRegion_same (r : Req) (s : State) : ResSame s (coreIntegRegion r s) := by
  unfold coreIntegRegion
  repeat' first
    | with_reducible first
      | assumption
      | exact Same.refl _
      | exact resSame_refuse trivial
      | apply resSame_commit
      | (intro v)
      | (lift_lets; intro v)
      | apply setRegionMode_same
    | split

theorem execIntegRegion_same (mb : Fin 8) (s : State) : OutSame s (execIntegRegion mb s) := by
  exact runOp_same _ _ _ s fun r => coreIntegRegion_same r s

theorem settleRuns_same (n : Nat) (s : State) {s0 : State} (h0 : Same s0 s) : Same s0 (settleRuns n s) := by
  refine h0.trans ?_; clear h0 s0
  unfold settleRuns
  repeat' first
    | with_reducible first
      | assumption
      | exact Same.refl _
      | (intro v)
      | (lift_lets; intro v)
      | apply State.setRegion_same
    | split

theorem rsDone_same (s : State) {s0 : State} (h0 : Same s0 s) : Same s0 (rsDone s) := by
  refine h0.trans ?_; clear h0 s0
  unfold rsDone
  repeat' first
    | with_reducible first
      | assumption
      | exact Same.refl _
      | (intro v; refine same_seq v ?_ fun hv => ?_; unfold v)
      | (intro v)
      | (lift_lets; intro v)
      | apply raiseEvent_same
      | apply settleRuns_same
    | (with_reducible apply same_mk; rotate_left; rfl; rfl; rfl)

theorem rsEnd_same (reason : Nat) (s : State) {s0 : State} (h0 : Same s0 s) : Same s0 (rsEnd reason s) := by
  refine h0.trans ?_; clear h0 s0
  unfold rsEnd
  repeat' first
    | with_reducible first
      | assumption
      | exact Same.refl _
      | (intro v; refine same_seq v ?_ fun hv => ?_; unfold v)
      | (intro v)
      | (lift_lets; intro v)
      | apply State.setRegion_same
      | apply logInteg_same
      | apply raiseEvent_same
      | apply settleRuns_same
    | split
    | (with_reducible apply same_mk; rotate_left; rfl; rfl; rfl)

theorem coreIntegRestrength_same (r : Req) (s : State) : ResSame s (coreIntegRestrength r s) := by
  unfold coreIntegRestrength
  repeat' first
    | with_reducible first
      | assumption
      | exact Same.refl _
      | exact resSame_refuse trivial
      | apply resSame_commit
      | (intro v; refine seq_same s v ?_ fun hv => ?_; unfold v)
      | (intro v)
      | (lift_lets; intro v)
      | apply State.setRegion_same
      | apply raiseEvent_same
      | apply rsDone_same
    | split
    | (with_reducible apply same_mk; rotate_left; rfl; rfl; rfl)

theorem execIntegRestrength_same (mb : Fin 8) (s : State) : OutSame s (execIntegRestrength mb s) := by
  exact runOp_same _ _ _ s fun r => coreIntegRestrength_same r s

theorem restrengthPage_same (n : Nat) (p : Nat) (errors : Nat) (offset : Nat) (s : State) {s0 : State} (h0 : Same s0 s) : Same s0 (restrengthPage n p errors offset s) := by
  refine h0.trans ?_; clear h0 s0
  unfold restrengthPage
  repeat' first
    | with_reducible first
      | assumption
      | exact Same.refl _
      | (intro v; refine same_seq v ?_ fun hv => ?_; unfold v)
      | (intro v)
      | (lift_lets; intro v)
      | apply State.setNote_same
      | apply State.setRegion_same
      | apply correctPage_same
      | apply faultPulse_same
      | apply poison_same
      | apply uncorrectable_same
    | split
    | (with_reducible apply same_mk; rotate_left; rfl; rfl; rfl)

theorem execRestrengthStep_same (errors : Nat) (offset : Nat) (s : State) : OutSame s (execRestrengthStep errors offset s) := by
  unfold execRestrengthStep
  repeat' first
    | with_reducible first
      | assumption
      | exact Same.refl _
      | apply outSame_next
      | (intro v)
      | (lift_lets; intro v; refine seq_same s v ?_ fun hv => ?_; unfold v)
      | (lift_lets; intro v)
      | refine OutSame.out ?_ _ ‹_ = Host.Outcome.next _›
      | apply restrengthPage_same
      | apply rsDone_same
      | apply walkTo_same
    | split

theorem execRsEnded_same (s : State) : OutSame s (execRsEnded s) := by
  unfold execRsEnded
  repeat' first
    | with_reducible first
      | assumption
      | exact Same.refl _
      | apply outSame_next
      | apply rsEnd_same
    | split

theorem coreIntegScrub_same (r : Req) (s : State) : ResSame s (coreIntegScrub r s) := by
  unfold coreIntegScrub
  repeat' first
    | with_reducible first
      | assumption
      | exact Same.refl _
      | exact resSame_refuse trivial
      | apply resSame_commit
      | (intro v)
      | (lift_lets; intro v)
      | apply State.setFld_same
    | split

theorem execIntegScrub_same (mb : Fin 8) (s : State) : OutSame s (execIntegScrub mb s) := by
  exact runOp_same _ _ _ s fun r => coreIntegScrub_same r s

theorem coreIntegLog_same (r : Req) (s : State) : ResSame s (coreIntegLog r s) := by
  unfold coreIntegLog
  repeat' first
    | with_reducible first
      | assumption
      | exact Same.refl _
      | exact resSame_query trivial

theorem execIntegLog_same (mb : Fin 8) (s : State) : OutSame s (execIntegLog mb s) := by
  exact runOp_same _ _ _ s fun r => coreIntegLog_same r s

theorem startRotation_same (bank : Nat) (phase : Nat) (s : State) {s0 : State} (h0 : Same s0 s) : Same s0 (startRotation bank phase s) := by
  refine h0.trans ?_; clear h0 s0
  unfold startRotation
  repeat' first
    | with_reducible first
      | assumption
      | exact Same.refl _
      | (intro v; refine same_seq v ?_ fun hv => ?_; unfold v)
      | (intro v)
      | (lift_lets; intro v)
      | apply State.setDom_same
    | split
    | (with_reducible apply same_mk; rotate_left; rfl; rfl; rfl)

theorem coreIntegRotate_same (r : Req) (s : State) : ResSame s (coreIntegRotate r s) := by
  unfold coreIntegRotate
  repeat' first
    | with_reducible first
      | assumption
      | exact Same.refl _
      | exact resSame_refuse trivial
      | apply resSame_commitWait
      | (intro v)
      | (lift_lets; intro v)
      | apply startRotation_same
    | split

theorem execIntegRotate_same (mb : Fin 8) (s : State) : OutSame s (execIntegRotate mb s) := by
  exact runOp_same _ _ _ s fun r => coreIntegRotate_same r s

theorem retireBank_same (s : State) {s0 : State} (h0 : Same s0 s) : Same s0 (retireBank s) := by
  refine h0.trans ?_; clear h0 s0
  unfold retireBank
  repeat' first
    | with_reducible first
      | assumption
      | exact Same.refl _
      | (intro v; refine same_seq v ?_ fun hv => ?_; unfold v)
      | (intro v)
      | (lift_lets; intro v)
      | apply logInteg_same
      | apply raiseEvent_same
    | split
    | (with_reducible apply same_mk; rotate_left; rfl; rfl; rfl)

theorem bistFinish_same (what : Nat) (s : State) {s0 : State} (h0 : Same s0 s) : Same s0 (bistFinish what s) := by
  refine h0.trans ?_; clear h0 s0
  unfold bistFinish
  repeat' first
    | with_reducible first
      | assumption
      | exact Same.refl _
      | (intro v; refine same_seq v ?_ fun hv => ?_; unfold v)
      | (intro v)
      | (lift_lets; intro v)
      | apply completeWhere_same
      | apply raiseEvent_same
    | (with_reducible apply same_mk; rotate_left; rfl; rfl; rfl)

theorem execRotationCopyDone_same (s : State) : OutSame s (execRotationCopyDone s) := by
  unfold execRotationCopyDone
  repeat' first
    | with_reducible first
      | assumption
      | exact Same.refl _
      | apply outSame_next
      | (intro v; refine seq_same s v ?_ fun hv => ?_; unfold v)
      | (intro v)
      | (lift_lets; intro v)
      | apply State.setDom_same
      | apply State.setReg_same
      | apply bistFinish_same
      | apply completeWhere_same
      | apply logInteg_same
      | apply raiseEvent_same
      | apply retireBank_same
      | (apply foldl_same; rotate_left; intro _ _)
    | split
    | (with_reducible apply same_mk; rotate_left; rfl; rfl; rfl)

theorem execBankRetired_same (bank : Fin 17) (s : State) : OutSame s (execBankRetired bank s) := by
  unfold execBankRetired
  repeat' first
    | with_reducible first
      | assumption
      | exact Same.refl _
      | apply outSame_next
      | (intro v; refine seq_same s v ?_ fun hv => ?_; unfold v)
      | (intro v)
      | (lift_lets; intro v)
      | apply faultPulse_same
      | apply raiseEvent_same
      | apply retireBank_same
      | apply startRotation_same
    | split
    | (with_reducible apply same_mk; rotate_left; rfl; rfl; rfl)

theorem execPageRetired_same (page : PageRef) (s : State) : OutSame s (execPageRetired page s) := by
  unfold execPageRetired
  repeat' first
    | with_reducible first
      | assumption
      | exact Same.refl _
      | apply outSame_next
      | (intro v; refine seq_same s v ?_ fun hv => ?_; unfold v)
      | (intro v)
      | (lift_lets; intro v)
      | apply State.setFlag_same
      | apply State.setNote_same
      | apply State.setRegion_same
      | apply faultPulse_same
      | apply logInteg_same
      | apply raiseEvent_same
    | split
    | (with_reducible apply same_mk; rotate_left; rfl; rfl; rfl)

theorem execRetirementListWrite_same (s : State) : OutSame s (execRetirementListWrite s) := by
  unfold execRetirementListWrite
  repeat' first
    | with_reducible first
      | assumption
      | exact Same.refl _
      | apply outSame_next
    | (with_reducible apply same_mk; rotate_left; rfl; rfl; rfl)

theorem coreIntegInject_same (r : Req) (s : State) : ResSame s (coreIntegInject r s) := by
  unfold coreIntegInject
  repeat' first
    | with_reducible first
      | assumption
      | exact Same.refl _
      | exact resSame_refuse trivial
      | apply resSame_commit
      | (intro v; refine seq_same s v ?_ fun hv => ?_; unfold v)
      | (intro v)
      | (lift_lets; intro v)
      | apply State.clrFlag_same
      | apply State.setFlag_same
      | apply State.setFld_same
      | apply State.setReg_same
    | split

theorem execIntegInject_same (mb : Fin 8) (s : State) : OutSame s (execIntegInject mb s) := by
  exact runOp_same _ _ _ s fun r => coreIntegInject_same r s

theorem execInjectionFired_same (page : PageRef) (byteOff : Nat) (s : State) : OutSame s (execInjectionFired page byteOff s) := by
  unfold execInjectionFired
  repeat' first
    | with_reducible first
      | assumption
      | exact Same.refl _
      | apply outSame_next
      | (intro v)
      | (lift_lets; intro v)
      | apply State.clrFlag_same
      | apply State.setFlag_same
      | apply writeLine_same
    | split

theorem clearSrc_same (n : Nat) (s : State) {s0 : State} (h0 : Same s0 s) : Same s0 (clearSrc n s) := by
  refine h0.trans ?_; clear h0 s0
  unfold clearSrc
  repeat' first
    | with_reducible first
      | assumption
      | exact Same.refl _
      | (intro v; refine same_seq v ?_ fun hv => ?_; unfold v)
      | (intro v)
      | (lift_lets; intro v)
      | apply State.setSrc_same
      | apply groupReturn_same
      | apply raiseEvent_same
    | split

theorem builtIn_same (n : Nat) (s : State) {s0 : State} (h0 : Same s0 s) : Same s0 (builtIn n s) := by
  refine h0.trans ?_; clear h0 s0
  unfold builtIn
  refine same_ite (Same.refl s) ?_
  refine same_ite (startGroup_same _ _ (Same.refl s)) ?_
  refine same_ite (startMgmt_same _ _ (Same.refl s)) ?_
  refine same_ite (startMgmt_same _ _ (Same.refl s)) ?_
  refine same_ite (epochBreak_same _ _ (Same.refl s)) ?_
  refine same_ite (flushQueue_same _ _ _ _ (Same.refl s)) ?_
  refine same_ite (flushQueue_same _ _ _ _ (State.drawn_same _ (Same.refl s))) ?_
  exact same_ite ⟨rfl, rfl, rfl, rfl, rfl⟩ (same_ite ⟨rfl, rfl, rfl, rfl, rfl⟩ (Same.refl s))

theorem wireFault_same (n : Nat) (pat : Nat) (s : State) {s0 : State} (h0 : Same s0 s) : Same s0 (wireFault n pat s) := by
  refine h0.trans ?_; clear h0 s0
  unfold wireFault
  repeat' first
    | with_reducible first
      | assumption
      | exact Same.refl _
      | (intro v)
      | (lift_lets; intro v; refine same_seq v ?_ fun hv => ?_; unfold v)
      | apply State.setFlag_same
      | apply builtIn_same
      | apply countEvent_same
      | apply faultPulse_same
      | apply raiseEvent_same
    | split

theorem execFaultEvent_same (src : Source) (persists : Bool) (s : State) : OutSame s (execFaultEvent src persists s) := by
  unfold execFaultEvent
  repeat' first
    | with_reducible first
      | assumption
      | exact Same.refl _
      | apply outSame_next
      | (intro v)
      | (lift_lets; intro v)
      | apply builtIn_same
      | apply faultHold_same
      | apply faultPulse_same
      | apply groupFault_same
      | apply mgmtFault_same
    | split

theorem execWireFault_same (src : Source) (high : Bool) (s : State) : OutSame s (execWireFault src high s) := by
  unfold execWireFault
  repeat' first
    | with_reducible first
      | assumption
      | exact Same.refl _
      | apply outSame_next
      | (intro v)
      | (lift_lets; intro v)
      | apply wireFault_same
    | split

theorem execCauseGone_same (src : Source) (s : State) : OutSame s (execCauseGone src s) := by
  unfold execCauseGone
  repeat' first
    | with_reducible first
      | assumption
      | exact Same.refl _
      | apply outSame_next
      | (intro v; refine seq_same s v ?_ fun hv => ?_; unfold v)
      | (intro v)
      | (lift_lets; intro v)
      | apply State.modPw_same
      | apply State.setSrc_same
      | apply faultGone_same
    | split

theorem execSelfCheckFail_same (s : State) : OutSame s (execSelfCheckFail s) := by
  unfold execSelfCheckFail
  repeat' first
    | with_reducible first
      | assumption
      | exact Same.refl _
      | apply outSame_next
      | apply faultPulse_same
    | (with_reducible apply same_mk; rotate_left; rfl; rfl; rfl)

theorem execClock_same (s : State) : OutSame s (execClock s) := by
  unfold execClock
  repeat' first
    | with_reducible first
      | assumption
      | exact Same.refl _
      | apply outSame_next
      | apply builtIn_same
      | apply faultPulse_same
    | split

theorem execSubWindowEnd_same (src : Source) (s : State) : OutSame s (execSubWindowEnd src s) := by
  unfold execSubWindowEnd
  repeat' first
    | with_reducible first
      | assumption
      | exact Same.refl _
      | apply outSame_next
      | (intro v; refine seq_same s v ?_ fun hv => ?_; unfold v)
      | (intro v)
      | (lift_lets; intro v)
      | apply State.setSrc_same
      | apply State.waitUntil_same
    | split

theorem coreFaultStatus_same (r : Req) (s : State) : ResSame s (coreFaultStatus r s) := by
  unfold coreFaultStatus
  repeat' first
    | with_reducible first
      | assumption
      | exact Same.refl _
      | exact resSame_refuse trivial
      | exact resSame_query trivial
      | (intro v)
      | (lift_lets; intro v)
    | split

theorem execFaultStatus_same (mb : Fin 8) (s : State) : OutSame s (execFaultStatus mb s) := by
  exact runOp_same _ _ _ s fun r => coreFaultStatus_same r s

theorem setSrcCfg_same (n : Nat) (c : Nat × Nat × Nat) (s : State) {s0 : State} (h0 : Same s0 s) : Same s0 (setSrcCfg n c s) := by
  refine h0.trans ?_; clear h0 s0
  unfold setSrcCfg
  repeat' first
    | with_reducible first
      | assumption
      | exact Same.refl _
      | (intro v)
      | (lift_lets; intro v)
      | apply State.setSrc_same

theorem coreFaultConfig_same (r : Req) (s : State) : ResSame s (coreFaultConfig r s) := by
  unfold coreFaultConfig
  repeat' first
    | with_reducible first
      | assumption
      | exact Same.refl _
      | exact resSame_refuse trivial
      | apply resSame_commit
      | (intro v)
      | (lift_lets; intro v)
      | apply setSrcCfg_same
    | split

theorem execFaultConfig_same (mb : Fin 8) (s : State) : OutSame s (execFaultConfig mb s) := by
  exact runOp_same _ _ _ s fun r => coreFaultConfig_same r s

theorem coreFaultClear_same (r : Req) (s : State) : ResSame s (coreFaultClear r s) := by
  unfold coreFaultClear
  repeat' first
    | with_reducible first
      | assumption
      | exact Same.refl _
      | exact resSame_refuse trivial
      | apply resSame_commit
      | (intro v)
      | (lift_lets; intro v)
      | apply clearSrc_same
    | split

theorem execFaultClear_same (mb : Fin 8) (s : State) : OutSame s (execFaultClear mb s) := by
  exact runOp_same _ _ _ s fun r => coreFaultClear_same r s

theorem releaseSrc_same (n : Nat) (s : State) {s0 : State} (h0 : Same s0 s) : Same s0 (releaseSrc n s) := by
  refine h0.trans ?_; clear h0 s0
  unfold releaseSrc
  repeat' first
    | with_reducible first
      | assumption
      | exact Same.refl _
      | (intro v)
      | (lift_lets; intro v)
      | apply State.setSrc_same

theorem forceSrc_same (n : Nat) (pat : Nat) (s : State) {s0 : State} (h0 : Same s0 s) : Same s0 (forceSrc n pat s) := by
  refine h0.trans ?_; clear h0 s0
  unfold forceSrc
  repeat' first
    | with_reducible first
      | assumption
      | exact Same.refl _
      | (intro v; refine same_seq v ?_ fun hv => ?_; unfold v)
      | (intro v)
      | (lift_lets; intro v)
      | apply State.setSrc_same
      | apply builtIn_same
      | apply faultPulse_same
      | apply releaseSrc_same
      | apply wireFault_same
    | split

theorem coreFaultForce_same (r : Req) (s : State) : ResSame s (coreFaultForce r s) := by
  unfold coreFaultForce
  repeat' first
    | with_reducible first
      | assumption
      | exact Same.refl _
      | exact resSame_refuse trivial
      | apply resSame_commit
      | (intro v)
      | (lift_lets; intro v)
      | apply forceSrc_same
    | split

theorem execFaultForce_same (mb : Fin 8) (s : State) : OutSame s (execFaultForce mb s) := by
  exact runOp_same _ _ _ s fun r => coreFaultForce_same r s

theorem prepareDom_same (d : Nat) (s : State) {s0 : State} (h0 : Same s0 s) : Same s0 (prepareDom d s) := by
  refine h0.trans ?_; clear h0 s0
  unfold prepareDom
  repeat' first
    | with_reducible first
      | assumption
      | exact Same.refl _
      | (intro v)
      | (lift_lets; intro v)
      | apply State.modUsb_same
      | apply checkpointNow_same
      | apply drainRegion_same
      | apply setPortState_same
      | apply wireDrop_same
      | (apply foldl_same; rotate_left; intro _ _)
    | split

theorem startEntry_same (d : Nat) (t : Nat) (why : Nat) (s : State) {s0 : State} (h0 : Same s0 s) : Same s0 (startEntry d t why s) := by
  refine h0.trans ?_; clear h0 s0
  unfold startEntry
  repeat' first
    | with_reducible first
      | assumption
      | exact Same.refl _
      | (intro v; refine same_seq v ?_ fun hv => ?_; unfold v)
      | (intro v)
      | (lift_lets; intro v)
      | apply State.setDom_same
      | apply prepareDom_same
    | split

theorem vcoreGo_same (s : State) {s0 : State} (h0 : Same s0 s) : Same s0 (vcoreGo s) := by
  refine h0.trans ?_; clear h0 s0
  unfold vcoreGo
  repeat' first
    | with_reducible first
      | assumption
      | exact Same.refl _
      | (intro v; refine same_seq v ?_ fun hv => ?_; unfold v)
      | (intro v)
      | (lift_lets; intro v)
    | split
    | (with_reducible apply same_mk; rotate_left; rfl; rfl; rfl)

theorem portDieReset_same (p : Nat) (s : State) {s0 : State} (h0 : Same s0 s) : Same s0 (portDieReset p s) := by
  refine h0.trans ?_; clear h0 s0
  unfold portDieReset
  repeat' first
    | with_reducible first
      | assumption
      | exact Same.refl _
      | (intro v; refine same_seq v ?_ fun hv => ?_; unfold v)
      | (intro v)
      | (lift_lets; intro v)
      | apply State.setFlag_same
    | (with_reducible apply same_mk; rotate_left; rfl; rfl; rfl)

theorem reinitRegion_same (r : Nat) (s : State) {s0 : State} (h0 : Same s0 s) : Same s0 (reinitRegion r s) := by
  refine h0.trans ?_; clear h0 s0
  unfold reinitRegion
  repeat' first
    | with_reducible first
      | assumption
      | exact Same.refl _
      | (intro v)
      | (lift_lets; intro v)
      | apply State.setRegion_same

theorem domReset_same (d : Nat) (old : Nat) (s : State) {s0 : State} (h0 : Same s0 s) : Same s0 (domReset d old s) := by
  refine h0.trans ?_; clear h0 s0
  unfold domReset
  repeat' first
    | with_reducible first
      | assumption
      | exact Same.refl _
      | (intro v; refine same_seq v ?_ fun hv => ?_; unfold v)
      | (intro v)
      | (lift_lets; intro v)
      | apply clearLines_same
      | apply portDieReset_same
      | apply reinitRegion_same
      | (apply foldl_same; rotate_left; intro _ _)
    | split
    | (with_reducible apply same_mk; rotate_left; rfl; rfl; rfl)

theorem execDomainEntry_same (d : Fin 33) (s : State) : OutSame s (execDomainEntry d s) := by
  unfold execDomainEntry
  dsimp only
  repeat' first
    | with_reducible first
      | assumption
      | exact Same.refl _
      | apply outSame_next
      | (intro v)
      | refine OutSame.out ?_ _ ‹_ = Host.Outcome.next _›
      | apply State.incFld_same
      | apply State.setDom_same
      | apply abandonEntry_same
      | apply beginWake_same
      | apply completeWhere_same
      | apply padHold_same
      | apply raiseEvent_same
      | apply vcoreAsk_same
    | dsimp -zeta only
    | split

theorem execDomainWake_same (d : Fin 33) (src : Fin 16) (s : State) : OutSame s (execDomainWake d src s) := by
  unfold execDomainWake
  repeat' first
    | with_reducible first
      | assumption
      | exact Same.refl _
      | apply outSame_next
      | apply domWake_same
    | split

theorem execWakeComplete_same (d : Fin 33) (s : State) : OutSame s (execWakeComplete d s) := by
  unfold execWakeComplete
  repeat' first
    | with_reducible first
      | assumption
      | exact Same.refl _
      | apply outSame_next
      | (intro v; refine seq_same s v ?_ fun hv => ?_; unfold v)
      | (intro v)
      | (lift_lets; intro v; refine seq_same s v ?_ fun hv => ?_; unfold v)
      | (lift_lets; intro v)
      | refine OutSame.out ?_ _ ‹_ = Host.Outcome.next _›
      | apply State.setDom_same
      | apply completeWhere_same
      | apply domReset_same
      | apply padHold_same
      | apply raiseEvent_same
      | apply resolveAborts_same
      | apply startEntry_same
      | apply unprepareDom_same
    | dsimp -zeta only
    | split

theorem execIdleTimerExpiry_same (d : Fin 33) (s : State) : OutSame s (execIdleTimerExpiry d s) := by
  unfold execIdleTimerExpiry
  repeat' first
    | with_reducible first
      | assumption
      | exact Same.refl _
      | apply outSame_next
      | (intro v; refine seq_same s v ?_ fun hv => ?_; unfold v)
      | (intro v)
      | (lift_lets; intro v)
      | apply State.setDom_same
      | apply State.waitUntil_same
      | apply startEntry_same
    | split

theorem wardenDoms_same (s : State) {s0 : State} (h0 : Same s0 s) : Same s0 (wardenDoms s) := by
  refine h0.trans ?_; clear h0 s0
  unfold wardenDoms
  repeat' first
    | with_reducible first
      | assumption
      | exact Same.refl _
      | (intro v)
      | (lift_lets; intro v; refine same_seq v ?_ fun hv => ?_; unfold v)
      | apply abandonEntry_same
      | apply domWake_same
      | (apply foldl_same; rotate_left; intro _ _)
    | split

theorem execVcoreAck_same (s : State) : OutSame s (execVcoreAck s) := by
  unfold execVcoreAck
  dsimp only
  repeat' first
    | with_reducible first
      | assumption
      | exact Same.refl _
      | apply outSame_next
      | (intro v)
      | refine OutSame.out ?_ _ ‹_ = Host.Outcome.next _›
      | apply raiseEvent_same
      | apply vcoreGo_same
    | dsimp -zeta only
    | split
    | (with_reducible apply same_mk; rotate_left; rfl; rfl; rfl)

theorem absentAnswers_same (d : Nat) (s : State) {s0 : State} (h0 : Same s0 s) : Same s0 (absentAnswers d s) := by
  refine h0.trans ?_; clear h0 s0
  unfold absentAnswers
  repeat' first
    | with_reducible first
      | assumption
      | exact Same.refl _
      | (intro v)
      | (lift_lets; intro v)
      | apply answer_same
      | (apply foldl_same; rotate_left; intro _ _)
    | split

theorem wakesFail_same (s : State) {s0 : State} (h0 : Same s0 s) : Same s0 (wakesFail s) := by
  refine h0.trans ?_; clear h0 s0
  unfold wakesFail
  repeat' first
    | with_reducible first
      | assumption
      | exact Same.refl _
      | (intro v; refine same_seq v ?_ fun hv => ?_; unfold v)
      | (intro v)
      | (lift_lets; intro v)
      | apply State.setDom_same
      | apply absentAnswers_same
      | apply completeWhere_same
      | apply raiseEvent_same
      | (apply foldl_same; rotate_left; intro _ _)
    | split

theorem execVcoreAckTimeout_same (statusWord : BitVec 16) (s : State) : OutSame s (execVcoreAckTimeout statusWord s) := by
  unfold execVcoreAckTimeout
  dsimp only
  repeat' first
    | with_reducible first
      | assumption
      | exact Same.refl _
      | apply outSame_next
      | (intro v)
      | refine OutSame.out ?_ _ ‹_ = Host.Outcome.next _›
      | apply State.incFld_same
      | apply State.setFlag_same
      | apply State.waitUntil_same
      | apply faultPulse_same
      | apply raiseEvent_same
      | apply vcoreGo_same
      | apply wakesFail_same
    | dsimp -zeta only
    | split
    | (with_reducible apply same_mk; rotate_left; rfl; rfl; rfl)

theorem execPmAlert_same (statusWord : BitVec 16) (s : State) : OutSame s (execPmAlert statusWord s) := by
  unfold execPmAlert
  repeat' first
    | with_reducible first
      | assumption
      | exact Same.refl _
      | apply outSame_next
      | (intro v)
      | (lift_lets; intro v)
      | apply faultPulse_same
      | apply raiseEvent_same
    | split
    | (with_reducible apply same_mk; rotate_left; rfl; rfl; rfl)

theorem coreDomPstate_same (r : Req) (s : State) : ResSame s (coreDomPstate r s) := by
  unfold coreDomPstate
  repeat' first
    | with_reducible first
      | assumption
      | exact Same.refl _
      | exact resSame_refuse trivial
      | apply resSame_commit
      | apply resSame_commitWait
      | (intro v; refine seq_same s v ?_ fun hv => ?_; unfold v)
      | (intro v)
      | (lift_lets; intro v)
      | apply domWake_same
      | apply startEntry_same
    | split

theorem execDomPstate_same (mb : Fin 8) (s : State) : OutSame s (execDomPstate mb s) := by
  exact runOp_same _ _ _ s fun r => coreDomPstate_same r s

theorem coreDomPcfg_same (r : Req) (s : State) : ResSame s (coreDomPcfg r s) := by
  unfold coreDomPcfg
  repeat' first
    | with_reducible first
      | assumption
      | exact Same.refl _
      | exact resSame_refuse trivial
      | apply resSame_commit
      | (intro v; refine seq_same s v ?_ fun hv => ?_; unfold v)
      | (intro v)
      | (lift_lets; intro v)
      | apply State.clrFlag_same
      | apply State.setDom_same
      | apply State.setFlag_same
      | apply State.setFld_same
    | split

theorem execDomPcfg_same (mb : Fin 8) (s : State) : OutSame s (execDomPcfg mb s) := by
  exact runOp_same _ _ _ s fun r => coreDomPcfg_same r s

theorem coreDomStatus_same (r : Req) (s : State) : ResSame s (coreDomStatus r s) := by
  unfold coreDomStatus
  repeat' first
    | with_reducible first
      | assumption
      | exact Same.refl _
      | exact resSame_query trivial

theorem execDomStatus_same (mb : Fin 8) (s : State) : OutSame s (execDomStatus mb s) := by
  exact runOp_same _ _ _ s fun r => coreDomStatus_same r s

theorem coreDomKeeper_same (x1 : Req) (s : State) : ResSame s (coreDomKeeper x1 s) := by
  unfold coreDomKeeper
  repeat' first
    | with_reducible first
      | assumption
      | exact Same.refl _
      | exact resSame_query trivial

theorem execDomKeeper_same (mb : Fin 8) (s : State) : OutSame s (execDomKeeper mb s) := by
  exact runOp_same _ _ _ s fun r => coreDomKeeper_same r s

theorem execWakeInput_same (i : Fin 4) (rising : Bool) (s : State) : OutSame s (execWakeInput i rising s) := by
  unfold execWakeInput
  repeat' first
    | with_reducible first
      | assumption
      | exact Same.refl _
      | apply outSame_next
      | (intro v; refine seq_same s v ?_ fun hv => ?_; unfold v)
      | (intro v)
      | (lift_lets; intro v)
      | apply raiseEvent_same
      | apply wakeAll_same
    | split
    | (with_reducible apply same_mk; rotate_left; rfl; rfl; rfl)

theorem execWallPairWrite_same (s : State) : OutSame s (execWallPairWrite s) := by
  unfold execWallPairWrite
  repeat' first
    | with_reducible first
      | assumption
      | exact Same.refl _
      | apply outSame_next
      | (intro v)
      | (lift_lets; intro v; refine seq_same s v ?_ fun hv => ?_; unfold v)
      | apply State.waitUntil_same
    | split
    | (with_reducible apply same_mk; rotate_left; rfl; rfl; rfl)

theorem execNorWallWrite_same (s : State) : OutSame s (execNorWallWrite s) := by
  unfold execNorWallWrite
  repeat' first
    | with_reducible first
      | assumption
      | exact Same.refl _
      | apply outSame_next
      | (intro v)
      | (lift_lets; intro v; refine seq_same s v ?_ fun hv => ?_; unfold v)
      | apply State.waitUntil_same
    | split
    | (with_reducible apply same_mk; rotate_left; rfl; rfl; rfl)

theorem execPalarmDue_same (s : State) : OutSame s (execPalarmDue s) := by
  unfold execPalarmDue
  repeat' first
    | with_reducible first
      | assumption
      | exact Same.refl _
      | apply outSame_next
      | (intro v; refine seq_same s v ?_ fun hv => ?_; unfold v)
      | (intro v)
      | (lift_lets; intro v)
      | apply State.waitUntil_same
      | apply wakeAll_same
    | split
    | (with_reducible apply same_mk; rotate_left; rfl; rfl; rfl)

theorem execRetLow_same (s : State) : OutSame s (execRetLow s) := by
  unfold execRetLow
  repeat' first
    | with_reducible first
      | assumption
      | exact Same.refl _
      | apply outSame_next
      | (intro v)
      | (lift_lets; intro v)
      | apply epochBreak_same
      | apply raiseEvent_same
    | split
    | (with_reducible apply same_mk; rotate_left; rfl; rfl; rfl)

theorem execVbakLoss_same (s : State) : OutSame s (execVbakLoss s) := by
  unfold execVbakLoss
  repeat' first
    | with_reducible first
      | assumption
      | exact Same.refl _
      | apply outSame_next
      | (intro v; refine seq_same s v ?_ fun hv => ?_; unfold v)
      | (intro v)
      | (lift_lets; intro v)
      | apply epochBreak_same
      | apply raiseEvent_same
    | split
    | (with_reducible apply same_mk; rotate_left; rfl; rfl; rfl)

theorem execVbakRestored_same (s : State) : OutSame s (execVbakRestored s) := by
  unfold execVbakRestored
  repeat' first
    | with_reducible first
      | assumption
      | exact Same.refl _
      | apply outSame_next
      | apply raiseEvent_same
    | split
    | (with_reducible apply same_mk; rotate_left; rfl; rfl; rfl)

end Sys2Proof.Machine
end

