-- ==== Sys2Proof/Laws/KeepScript.lean ====
section
/-!
SUPPORT. The rows of the warden script, self-tests, images and mailboxes keep the queue, the part and the lock
bits.
-/

namespace Sys2Proof.Machine

theorem armScript_same (steps : Nat) (b : List Byte) (s : State) {s0 : State} (h0 : Same s0 s) : Same s0 (armScript steps b s) := by
  refine h0.trans ?_; clear h0 s0
  unfold armScript
  repeat' first
    | with_reducible first
      | assumption
      | exact Same.refl _
      | (intro v)
      | (lift_lets; intro v)
      | apply raiseEvent_same
    | (with_reducible apply same_mk; rotate_left; rfl; rfl; rfl)

theorem coreWardenArm_same (r : Req) (s : State) : ResSame s (coreWardenArm r s) := by
  unfold coreWardenArm
  repeat' first
    | with_reducible first
      | assumption
      | exact Same.refl _
      | exact resSame_refuse trivial
      | apply resSame_commit
      | apply armScript_same
    | split

theorem execWardenArm_same (mb : Fin 8) (s : State) : OutSame s (execWardenArm mb s) := by
  exact runOp_same _ _ _ s fun r => coreWardenArm_same r s

theorem coreWardenEnter_same (x1 : Req) (s : State) : ResSame s (coreWardenEnter x1 s) := by
  unfold coreWardenEnter
  repeat' first
    | with_reducible first
      | assumption
      | exact Same.refl _
      | apply resSame_commit
      | apply wardenEnter_same
    | split

theorem execWardenEnter_same (mb : Fin 8) (s : State) : OutSame s (execWardenEnter mb s) := by
  exact runOp_same _ _ _ s fun r => coreWardenEnter_same r s

theorem coreWardenStatus_same (x1 : Req) (s : State) : ResSame s (coreWardenStatus x1 s) := by
  unfold coreWardenStatus
  repeat' first
    | with_reducible first
      | assumption
      | exact Same.refl _
      | exact resSame_query trivial

theorem execWardenStatus_same (mb : Fin 8) (s : State) : OutSame s (execWardenStatus mb s) := by
  exact runOp_same _ _ _ s fun r => coreWardenStatus_same r s

theorem bistAbandon_same (s : State) {s0 : State} (h0 : Same s0 s) : Same s0 (bistAbandon s) := by
  refine h0.trans ?_; clear h0 s0
  unfold bistAbandon
  repeat' first
    | with_reducible first
      | assumption
      | exact Same.refl _
      | (intro v; refine same_seq v ?_ fun hv => ?_; unfold v)
      | (intro v)
      | (lift_lets; intro v)
      | apply bistFinish_same
      | apply groupEvent_same
      | apply startRotation_same
    | split
    | (with_reducible apply same_mk; rotate_left; rfl; rfl; rfl)

theorem execWardenCleanup_same (s : State) : OutSame s (execWardenCleanup s) := by
  unfold execWardenCleanup
  repeat' first
    | with_reducible first
      | assumption
      | exact Same.refl _
      | apply outSame_next
      | (intro v; refine seq_same s v ?_ fun hv => ?_; unfold v)
      | (intro v)
      | (lift_lets; intro v; refine seq_same s v ?_ fun hv => ?_; unfold v)
      | apply bistAbandon_same
      | apply canDisable_same
      | apply closeExpert_same
      | apply raiseEvent_same
      | apply rsEnd_same
      | apply settlePosted_same
      | apply voidTxns_same
      | apply wardenDoms_same
    | split
    | (with_reducible apply same_mk; rotate_left; rfl; rfl; rfl)

theorem execScriptStepStart_same (s : State) : OutSame s (execScriptStepStart s) := by
  unfold execScriptStepStart
  repeat' first
    | with_reducible first
      | assumption
      | exact Same.refl _
      | apply outSame_next
      | (intro v; refine seq_same s v ?_ fun hv => ?_; unfold v)
      | (intro v)
      | (lift_lets; intro v; refine seq_same s v ?_ fun hv => ?_; unfold v)
      | refine OutSame.out ?_ _ ‹_ = Host.Outcome.next _›
      | apply State.waitUntil_same
      | apply raiseEvent_same
      | apply scriptEnd_same
      | (apply foldl_same; rotate_left; intro _ _)
    | split
    | (with_reducible apply same_mk; rotate_left; rfl; rfl; rfl)

theorem execScriptFrame_same (buf : Fin 8) (s : State) : OutSame s (execScriptFrame buf s) := by
  unfold execScriptFrame
  repeat' first
    | with_reducible first
      | assumption
      | exact Same.refl _
      | apply outSame_next
      | (intro v; refine seq_same s v ?_ fun hv => ?_; unfold v)
      | (intro v)
      | (lift_lets; intro v; refine seq_same s v ?_ fun hv => ?_; unfold v)
      | (lift_lets; intro v)
      | refine OutSame.out ?_ _ ‹_ = Host.Outcome.next _›
      | apply State.setCan_same
      | apply State.waitUntil_same
    | split
    | (with_reducible apply same_mk; rotate_left; rfl; rfl; rfl)

theorem scriptGo_same (idx : Nat) (at_ : Nat) (s : State) {s0 : State} (h0 : Same s0 s) : Same s0 (scriptGo idx at_ s) := by
  refine h0.trans ?_; clear h0 s0
  unfold scriptGo
  repeat' first
    | with_reducible first
      | assumption
      | exact Same.refl _
      | (intro v)
      | (lift_lets; intro v)
      | apply scriptEnd_same
    | split
    | (with_reducible apply same_mk; rotate_left; rfl; rfl; rfl)

theorem execWaitRxMatch_same (frame : CanFrame) (s : State) : OutSame s (execWaitRxMatch frame s) := by
  unfold execWaitRxMatch
  repeat' first
    | with_reducible first
      | assumption
      | exact Same.refl _
      | apply outSame_next
      | (intro v; refine seq_same s v ?_ fun hv => ?_; unfold v)
      | (intro v)
      | (lift_lets; intro v)
      | refine OutSame.out ?_ _ ‹_ = Host.Outcome.next _›
      | apply scriptGo_same
    | split
    | (with_reducible apply same_mk; rotate_left; rfl; rfl; rfl)

theorem execScriptStepEnd_same (s : State) : OutSame s (execScriptStepEnd s) := by
  unfold execScriptStepEnd
  repeat' first
    | with_reducible first
      | assumption
      | exact Same.refl _
      | apply outSame_next
      | (intro v; refine seq_same s v ?_ fun hv => ?_; unfold v)
      | (intro v)
      | (lift_lets; intro v)
      | refine OutSame.out ?_ _ ‹_ = Host.Outcome.next _›
      | apply State.waitUntil_same
      | apply scriptGo_same
    | split

theorem coreWardenLeave_same (x1 : Req) (s : State) : ResSame s (coreWardenLeave x1 s) := by
  unfold coreWardenLeave
  repeat' first
    | with_reducible first
      | assumption
      | exact Same.refl _
      | exact resSame_refuse trivial
      | apply resSame_commit
    | split

theorem wardenLeft_same (s : State) {s0 : State} (h0 : Same s0 s) : Same s0 (wardenLeft s) := by
  refine h0.trans ?_; clear h0 s0
  unfold wardenLeft
  repeat' first
    | with_reducible first
      | assumption
      | exact Same.refl _
      | (intro v)
      | (lift_lets; intro v; refine same_seq v ?_ fun hv => ?_; unfold v)
      | apply State.setCan_same
      | apply clearSrc_same
      | apply groupRestarted_same
      | apply groupReturn_same
      | (apply foldl_same; rotate_left; intro _ _)
    | split
    | (with_reducible apply same_mk; rotate_left; rfl; rfl; rfl)

theorem execWardenLeave_same (mb : Fin 8) (s : State) : OutSame s (execWardenLeave mb s) := by
  unfold execWardenLeave
  repeat' first
    | with_reducible first
      | assumption
      | exact Same.refl _
      | apply outSame_next
      | refine OutSame.out ?_ _ ‹_ = Host.Outcome.next _›
      | apply coreWardenLeave_same
      | apply epochBreak_same
      | apply wardenLeft_same
      | (apply runOp_same; intro _)
    | split

theorem execWardenHeartbeatMissing_same (s : State) : OutSame s (execWardenHeartbeatMissing s) := by
  unfold execWardenHeartbeatMissing
  repeat' first
    | with_reducible first
      | assumption
      | exact Same.refl _
      | apply outSame_next
      | apply State.waitUntil_same
      | apply faultPulse_same
    | split

theorem execAliveEdge_same (ago : Nat) (s : State) : OutSame s (execAliveEdge ago s) := by
  unfold execAliveEdge
  repeat' first
    | with_reducible first
      | assumption
      | exact Same.refl _
      | apply outSame_next
      | (intro v)
      | (lift_lets; intro v; refine seq_same s v ?_ fun hv => ?_; unfold v)
      | apply State.waitUntil_same
    | split
    | (with_reducible apply same_mk; rotate_left; rfl; rfl; rfl)

theorem execSafeHoldExpiry_same (s : State) : OutSame s (execSafeHoldExpiry s) := by
  unfold execSafeHoldExpiry
  repeat' first
    | with_reducible first
      | assumption
      | exact Same.refl _
      | apply outSame_next
      | (intro v; refine seq_same s v ?_ fun hv => ?_; unfold v)
      | (intro v)
      | (lift_lets; intro v)
      | apply State.waitUntil_same
    | split
    | (with_reducible apply same_mk; rotate_left; rfl; rfl; rfl)

theorem coreTestTmux_same (r : Req) (s : State) : ResSame s (coreTestTmux r s) := by
  unfold coreTestTmux
  repeat' first
    | with_reducible first
      | assumption
      | exact Same.refl _
      | exact resSame_refuse trivial
      | apply resSame_commit
      | (intro v)
      | (lift_lets; intro v)
      | apply State.setFlag_same
      | apply State.setReg_same
    | split
    | (with_reducible apply same_mk; rotate_left; rfl; rfl; rfl)

theorem execTestTmux_same (mb : Fin 8) (s : State) : OutSame s (execTestTmux mb s) := by
  exact runOp_same _ _ _ s fun r => coreTestTmux_same r s

theorem bistStop_same (g : Nat) (s : State) {s0 : State} (h0 : Same s0 s) : Same s0 (bistStop g s) := by
  refine h0.trans ?_; clear h0 s0
  unfold bistStop
  repeat' first
    | with_reducible first
      | assumption
      | exact Same.refl _
      | (intro v; refine same_seq v ?_ fun hv => ?_; unfold v)
      | (intro v)
      | (lift_lets; intro v)
      | apply State.modChan_same
      | apply groupEvent_same
      | (apply foldl_same; rotate_left; intro _ _)
    | split
    | (with_reducible apply same_mk; rotate_left; rfl; rfl; rfl)

theorem coreTestBist_same (r : Req) (s : State) : ResSame s (coreTestBist r s) := by
  unfold coreTestBist
  repeat' first
    | with_reducible first
      | assumption
      | exact Same.refl _
      | exact resSame_refuse trivial
      | apply resSame_commitWait
      | (intro v; refine seq_same s v ?_ fun hv => ?_; unfold v)
      | (intro v)
      | (lift_lets; intro v)
      | apply bistStop_same
      | apply startRotation_same
    | split
    | (with_reducible apply same_mk; rotate_left; rfl; rfl; rfl)

theorem execTestBist_same (mb : Fin 8) (s : State) : OutSame s (execTestBist mb s) := by
  exact runOp_same _ _ _ s fun r => coreTestBist_same r s

theorem bistResume_same (s : State) {s0 : State} (h0 : Same s0 s) : Same s0 (bistResume s) := by
  refine h0.trans ?_; clear h0 s0
  unfold bistResume
  repeat' first
    | with_reducible first
      | assumption
      | exact Same.refl _
      | (intro v)
      | (lift_lets; intro v)
      | apply activate_same
      | (apply foldl_same; rotate_left; intro _ _)
    | split

theorem execBistDone_same (pass : Bool) (signature : Word) (s : State) : OutSame s (execBistDone pass signature s) := by
  unfold execBistDone
  repeat' first
    | with_reducible first
      | assumption
      | exact Same.refl _
      | apply outSame_next
      | (intro v; refine seq_same s v ?_ fun hv => ?_; unfold v)
      | (intro v)
      | (lift_lets; intro v)
      | apply State.setGroup_same
      | apply State.waitUntil_same
      | apply bistFinish_same
      | apply bistResume_same
      | apply groupEvent_same
      | apply retireBank_same
      | apply startRotation_same
    | split
    | (with_reducible apply same_mk; rotate_left; rfl; rfl; rfl)

theorem coreTestLoop_same (r : Req) (s : State) : ResSame s (coreTestLoop r s) := by
  unfold coreTestLoop
  repeat' first
    | with_reducible first
      | assumption
      | exact Same.refl _
      | exact resSame_refuse trivial
      | apply resSame_commitWait
      | (intro v)
      | (lift_lets; intro v)
    | split
    | (with_reducible apply same_mk; rotate_left; rfl; rfl; rfl)

theorem execTestLoop_same (mb : Fin 8) (s : State) : OutSame s (execTestLoop mb s) := by
  exact runOp_same _ _ _ s fun r => coreTestLoop_same r s

theorem execLoopDone_same (packets : Nat) (errors : Nat) (s : State) : OutSame s (execLoopDone packets errors s) := by
  unfold execLoopDone
  repeat' first
    | with_reducible first
      | assumption
      | exact Same.refl _
      | apply outSame_next
      | (intro v; refine seq_same s v ?_ fun hv => ?_; unfold v)
      | (intro v)
      | (lift_lets; intro v; refine seq_same s v ?_ fun hv => ?_; unfold v)
      | refine OutSame.out ?_ _ ‹_ = Host.Outcome.next _›
      | apply State.waitUntil_same
      | apply completeWhere_same
      | apply raiseEvent_same
    | split
    | (with_reducible apply same_mk; rotate_left; rfl; rfl; rfl)

theorem coreTestResult_same (x1 : Req) (s : State) : ResSame s (coreTestResult x1 s) := by
  unfold coreTestResult
  repeat' first
    | with_reducible first
      | assumption
      | exact Same.refl _
      | exact resSame_query trivial

theorem execTestResult_same (mb : Fin 8) (s : State) : OutSame s (execTestResult mb s) := by
  exact runOp_same _ _ _ s fun r => coreTestResult_same r s

theorem excludedReset_same (s : State) {s0 : State} (h0 : Same s0 s) : Same s0 (excludedReset s) := by
  refine h0.trans ?_; clear h0 s0
  unfold excludedReset
  repeat' first
    | with_reducible first
      | assumption
      | exact Same.refl _
      | apply State.modPd_same
      | apply gatesOff_same
      | (apply foldl_same; rotate_left; intro _ _)
    | (with_reducible apply same_mk; rotate_left; rfl; rfl; rfl)

theorem setTap_same (t : Tap) (s : State) {s0 : State} (h0 : Same s0 s) : Same s0 (setTap t s) := by
  refine h0.trans ?_; clear h0 s0
  unfold setTap
  repeat' first
    | with_reducible first
      | assumption
      | exact Same.refl _
    | (with_reducible apply same_mk; rotate_left; rfl; rfl; rfl)

theorem capturePins_same (n : Nat) {s0 : State} (s : State) (h0 : Same s0 s) : Same s0 (capturePins n s).2 := by
  induction n generalizing s with
  | zero => exact h0
  | succ n ih => exact ih _ (State.drawn_same _ h0)

theorem tapAct_same (tdi : Bool) (s : State) {s0 : State} (h0 : Same s0 s) : Same s0 (tapAct tdi s) := by
  refine h0.trans ?_; clear h0 s0
  unfold tapAct
  repeat' first
    | with_reducible first
      | assumption
      | exact Same.refl _
      | (intro v)
      | (lift_lets; intro v)
      | apply State.drawn_same
      | apply capturePins_same
      | apply setTap_same
    | split

theorem tapLoad_same (resetLow : Bool) (s : State) {s0 : State} (h0 : Same s0 s) : Same s0 (tapLoad resetLow s) := by
  refine h0.trans ?_; clear h0 s0
  unfold tapLoad
  repeat' first
    | with_reducible first
      | assumption
      | exact Same.refl _
      | (intro v; refine same_seq v ?_ fun hv => ?_; unfold v)
      | (intro v)
      | (lift_lets; intro v)
      | apply excludedReset_same
    | split
    | (with_reducible apply same_mk; rotate_left; rfl; rfl; rfl)

theorem tapRise_same (resetLow : Bool) (s : State) {s0 : State} (h0 : Same s0 s) : Same s0 (tapRise resetLow s) := by
  refine h0.trans ?_; clear h0 s0
  unfold tapRise
  repeat' first
    | with_reducible first
      | assumption
      | exact Same.refl _
      | (intro v)
      | (lift_lets; intro v)
    | split
    | (with_reducible apply same_mk; rotate_left; rfl; rfl; rfl)

theorem execTapClock_same (tms : Bool) (tdi : Bool) (resetLow : Bool) (s : State) : OutSame s (execTapClock tms tdi resetLow s) := by
  unfold execTapClock
  repeat' first
    | with_reducible first
      | assumption
      | exact Same.refl _
      | apply outSame_next
      | (intro v)
      | (lift_lets; intro v)
      | apply tapAct_same
      | apply tapLoad_same
      | apply tapRise_same
    | split
    | (with_reducible apply same_mk; rotate_left; rfl; rfl; rfl)

theorem dropActivation_same (n : Bool) (s : State) {s0 : State} (h0 : Same s0 s) : Same s0 (dropActivation n s) := by
  refine h0.trans ?_; clear h0 s0
  unfold dropActivation
  repeat' first
    | with_reducible first
      | assumption
      | exact Same.refl _
    | split
    | (with_reducible apply same_mk; rotate_left; rfl; rfl; rfl)

theorem coreFwInfo_same (x1 : Req) (s : State) : ResSame s (coreFwInfo x1 s) := by
  unfold coreFwInfo
  repeat' first
    | with_reducible first
      | assumption
      | exact Same.refl _
      | exact resSame_query trivial

theorem execFwInfo_same (mb : Fin 8) (s : State) : OutSame s (execFwInfo mb s) := by
  exact runOp_same _ _ _ s fun r => coreFwInfo_same r s

theorem coreFwBegin_same (r : Req) (s : State) : ResSame s (coreFwBegin r s) := by
  unfold coreFwBegin
  repeat' first
    | with_reducible first
      | assumption
      | exact Same.refl _
      | exact resSame_refuse trivial
      | apply resSame_commit
      | (intro v; refine seq_same s v ?_ fun hv => ?_; unfold v)
      | (intro v)
      | (lift_lets; intro v; refine seq_same s v ?_ fun hv => ?_; unfold v)
      | (lift_lets; intro v)
      | apply State.drawn_same
      | apply dropActivation_same
    | split
    | (with_reducible apply same_mk; rotate_left; rfl; rfl; rfl)

theorem execFwBegin_same (mb : Fin 8) (s : State) : OutSame s (execFwBegin mb s) := by
  exact runOp_same _ _ _ s fun r => coreFwBegin_same r s

theorem coreFwWrite_same (r : Req) (s : State) : ResSame s (coreFwWrite r s) := by
  unfold coreFwWrite
  repeat' first
    | with_reducible first
      | assumption
      | exact Same.refl _
      | exact resSame_refuse trivial
      | apply resSame_commit
      | (intro v)
      | (lift_lets; intro v)
    | split
    | (with_reducible apply same_mk; rotate_left; rfl; rfl; rfl)

theorem execFwWrite_same (mb : Fin 8) (s : State) : OutSame s (execFwWrite mb s) := by
  exact runOp_same _ _ _ s fun r => coreFwWrite_same r s

theorem coreFwVerify_same (r : Req) (s : State) : ResSame s (coreFwVerify r s) := by
  unfold coreFwVerify
  repeat' first
    | with_reducible first
      | assumption
      | exact Same.refl _
      | exact resSame_refuse trivial
      | apply resSame_commit
      | (intro v)
      | apply raiseEvent_same
    | split
    | (with_reducible apply same_mk; rotate_left; rfl; rfl; rfl)

theorem execFwVerify_same (mb : Fin 8) (s : State) : OutSame s (execFwVerify mb s) := by
  exact runOp_same _ _ _ s fun r => coreFwVerify_same r s

theorem coreFwActivate_same (r : Req) (s : State) : ResSame s (coreFwActivate r s) := by
  unfold coreFwActivate
  repeat' first
    | with_reducible first
      | assumption
      | exact Same.refl _
      | exact resSame_refuse trivial
      | apply resSame_commit
      | (intro v)
      | (lift_lets; intro v; refine seq_same s v ?_ fun hv => ?_; unfold v)
      | (lift_lets; intro v)
      | apply raiseEvent_same
    | split
    | (with_reducible apply same_mk; rotate_left; rfl; rfl; rfl)

theorem execFwActivate_same (mb : Fin 8) (s : State) : OutSame s (execFwActivate mb s) := by
  exact runOp_same _ _ _ s fun r => coreFwActivate_same r s

theorem coreFwCancel_same (r : Req) (s : State) : ResSame s (coreFwCancel r s) := by
  unfold coreFwCancel
  repeat' first
    | with_reducible first
      | assumption
      | exact Same.refl _
      | exact resSame_refuse trivial
      | apply resSame_commit
      | (intro v)
      | (lift_lets; intro v; refine seq_same s v ?_ fun hv => ?_; unfold v)
      | (lift_lets; intro v)
      | apply dropActivation_same
    | split
    | (with_reducible apply same_mk; rotate_left; rfl; rfl; rfl)

theorem execFwCancel_same (mb : Fin 8) (s : State) : OutSame s (execFwCancel mb s) := by
  exact runOp_same _ _ _ s fun r => coreFwCancel_same r s

theorem execEraseEnd_same (slotB : Bool) (s : State) : OutSame s (execEraseEnd slotB s) := by
  unfold execEraseEnd
  repeat' first
    | with_reducible first
      | assumption
      | exact Same.refl _
      | apply outSame_next
      | (intro v)
      | (lift_lets; intro v)
      | apply raiseEvent_same
    | split
    | (with_reducible apply same_mk; rotate_left; rfl; rfl; rfl)

theorem coreProfRead_same (r : Req) (s : State) : ResSame s (coreProfRead r s) := by
  unfold coreProfRead
  repeat' first
    | with_reducible first
      | assumption
      | exact Same.refl _
      | exact resSame_refuse trivial
      | exact resSame_query trivial
      | (intro v)
      | (lift_lets; intro v)
    | split

theorem execProfRead_same (mb : Fin 8) (s : State) : OutSame s (execProfRead mb s) := by
  exact runOp_same _ _ _ s fun r => coreProfRead_same r s

theorem coreProfWrite_same (r : Req) (s : State) : ResSame s (coreProfWrite r s) := by
  unfold coreProfWrite
  repeat' first
    | with_reducible first
      | assumption
      | exact Same.refl _
      | exact resSame_refuse trivial
      | apply resSame_commit
      | (intro v)
      | (lift_lets; intro v)
      | apply raiseEvent_same
    | split
    | (with_reducible apply same_mk; rotate_left; rfl; rfl; rfl)

theorem execProfWrite_same (mb : Fin 8) (s : State) : OutSame s (execProfWrite mb s) := by
  exact runOp_same _ _ _ s fun r => coreProfWrite_same r s

theorem accept_same (n : Nat) (s : State) {s0 : State} (h0 : Same s0 s) : Same s0 (accept n s) := by
  refine h0.trans ?_; clear h0 s0
  unfold accept
  repeat' first
    | with_reducible first
      | assumption
      | exact Same.refl _
      | (intro v; refine same_seq v ?_ fun hv => ?_; unfold v)
      | (intro v)
      | (lift_lets; intro v)
      | apply State.setFlag_same
      | apply State.setMb_same
      | apply domWake_same
      | (apply foldl_same; rotate_left; intro _ _)
    | split
    | (with_reducible apply same_mk; rotate_left; rfl; rfl; rfl)

theorem ring_same (mask : Nat) (s : State) {s0 : State} (h0 : Same s0 s) : Same s0 (ring mask s) := by
  refine h0.trans ?_; clear h0 s0
  unfold ring
  repeat' first
    | with_reducible first
      | assumption
      | exact Same.refl _
      | apply accept_same
      | (apply foldl_same; rotate_left; intro _ _)

theorem execDoorbellRing_same (mask : Byte) (s : State) : OutSame s (execDoorbellRing mask s) := by
  unfold execDoorbellRing
  repeat' first
    | with_reducible first
      | assumption
      | exact Same.refl _
      | apply outSame_next
      | apply ring_same
    | split

theorem doneWrite_same (mask : Nat) (s : State) {s0 : State} (h0 : Same s0 s) : Same s0 (doneWrite mask s) := by
  refine h0.trans ?_; clear h0 s0
  unfold doneWrite
  repeat' first
    | with_reducible first
      | assumption
      | exact Same.refl _
      | (intro v)
      | (lift_lets; intro v)
      | apply State.setFlag_same
      | apply State.setMb_same
      | (apply foldl_same; rotate_left; intro _ _)
    | split

theorem execCciDoneWrite_same (mask : Byte) (s : State) : OutSame s (execCciDoneWrite mask s) := by
  unfold execCciDoneWrite
  repeat' first
    | with_reducible first
      | assumption
      | exact Same.refl _
      | apply outSame_next
      | apply doneWrite_same
    | split

theorem abortWrite_same (mask : Nat) (s : State) {s0 : State} (h0 : Same s0 s) : Same s0 (abortWrite mask s) := by
  refine h0.trans ?_; clear h0 s0
  unfold abortWrite
  repeat' first
    | with_reducible first
      | assumption
      | exact Same.refl _
      | (intro v; refine same_seq v ?_ fun hv => ?_; unfold v)
      | (intro v)
      | (lift_lets; intro v)
      | apply domWake_same
      | apply resolveAborts_same
    | split
    | (with_reducible apply same_mk; rotate_left; rfl; rfl; rfl)

theorem execAbortReqWrite_same (mask : Byte) (s : State) : OutSame s (execAbortReqWrite mask s) := by
  unfold execAbortReqWrite
  repeat' first
    | with_reducible first
      | assumption
      | exact Same.refl _
      | apply outSame_next
      | apply abortWrite_same
    | split

theorem respond_same (n : Nat) (r : Resp) (s : State) {s0 : State} (h0 : Same s0 s) : Same s0 (respond n r s) := by
  refine h0.trans ?_; clear h0 s0
  unfold respond
  repeat' first
    | with_reducible first
      | assumption
      | exact Same.refl _
      | (intro v; refine same_seq v ?_ fun hv => ?_; unfold v)
      | (intro v)
      | (lift_lets; intro v)
      | apply State.setMb_same
      | apply raiseEvent_same
    | split
    | (with_reducible apply same_mk; rotate_left; rfl; rfl; rfl)

theorem execMailboxResponse_same (mb : Fin 8) (s : State) : OutSame s (execMailboxResponse mb s) := by
  unfold execMailboxResponse
  repeat' first
    | with_reducible first
      | assumption
      | exact Same.refl _
      | apply outSame_next
      | (intro v)
      | (lift_lets; intro v)
      | refine OutSame.out ?_ _ ‹_ = Host.Outcome.next _›
      | apply respond_same
    | split

theorem unitIn_same (n : Nat) (s : State) {s0 : State} (h0 : Same s0 s) : Same s0 (unitIn n s) := by
  refine h0.trans ?_; clear h0 s0
  unfold unitIn
  repeat' first
    | with_reducible first
      | assumption
      | exact Same.refl _
      | (intro v; refine same_seq v ?_ fun hv => ?_; unfold v)
      | (intro v)
      | (lift_lets; intro v)
      | apply State.drawn_same
      | apply State.setMb_same
    | (with_reducible apply same_mk; rotate_left; rfl; rfl; rfl)

theorem takeUnit_same (b : List Byte) (s : State) {s0 : State} (h0 : Same s0 s) : Same s0 (takeUnit b s) := by
  refine h0.trans ?_; clear h0 s0
  unfold takeUnit
  repeat' first
    | with_reducible first
      | assumption
      | exact Same.refl _
      | (intro v; refine same_seq v ?_ fun hv => ?_; unfold v)
      | (intro v)
      | (lift_lets; intro v)
      | apply State.setFlag_same
      | apply State.setMb_same
      | apply answer_same
      | apply creditEvent_same
      | apply raiseEvent_same
      | apply unitIn_same
    | split

theorem execDataUnit_same (bytes : List Byte) (s : State) : OutSame s (execDataUnit bytes s) := by
  unfold execDataUnit
  repeat' first
    | with_reducible first
      | assumption
      | exact Same.refl _
      | apply outSame_next
      | apply takeUnit_same
    | split

theorem execDtimeoutExpiry_same (mb : Fin 8) (s : State) : OutSame s (execDtimeoutExpiry mb s) := by
  unfold execDtimeoutExpiry
  repeat' first
    | with_reducible first
      | assumption
      | exact Same.refl _
      | apply outSame_next
      | (intro v; refine seq_same s v ?_ fun hv => ?_; unfold v)
      | (intro v)
      | (lift_lets; intro v)
      | apply State.setMb_same
      | apply State.waitUntil_same
      | apply answer_same
    | split

theorem dropEvents_same (n : Nat) (s : State) {s0 : State} (h0 : Same s0 s) : Same s0 (dropEvents n s) := by
  refine h0.trans ?_; clear h0 s0
  unfold dropEvents
  repeat' first
    | with_reducible first
      | assumption
      | exact Same.refl _
      | apply State.evqLevel_same
    | (with_reducible apply same_mk; rotate_left; rfl; rfl; rfl)

theorem execEventRead_same (words : Fin 5) (s : State) : OutSame s (execEventRead words s) := by
  unfold execEventRead
  repeat' first
    | with_reducible first
      | assumption
      | exact Same.refl _
      | apply outSame_next
      | (intro v)
      | (lift_lets; intro v; refine seq_same s v ?_ fun hv => ?_; unfold v)
      | apply dropEvents_same
    | split
    | (with_reducible apply same_mk; rotate_left; rfl; rfl; rfl)

theorem execEp3InEventPacket_same (n : Fin 5) (acked : Bool) (s : State) : OutSame s (execEp3InEventPacket n acked s) := by
  unfold execEp3InEventPacket
  repeat' first
    | with_reducible first
      | assumption
      | exact Same.refl _
      | apply outSame_next
      | (intro v)
      | (lift_lets; intro v; refine seq_same s v ?_ fun hv => ?_; unfold v)
      | apply dropEvents_same
    | split
    | (with_reducible apply same_mk; rotate_left; rfl; rfl; rfl)

theorem delivered_same (recs : List Rec) (ring : List (Rec × List Byte)) (s : State) {s0 : State} (h0 : Same s0 s) : Same s0 (delivered recs ring s) := by
  refine h0.trans ?_; clear h0 s0
  unfold delivered
  repeat' first
    | with_reducible first
      | assumption
      | exact Same.refl _
      | apply State.refill_same
      | apply deliverRec_same
      | apply ring_same
      | (apply foldl_same; rotate_left; intro _ _)
    | (with_reducible apply same_mk; rotate_left; rfl; rfl; rfl)

theorem execStreamRead_same (words : Fin 17) (s : State) : OutSame s (execStreamRead words s) := by
  unfold execStreamRead
  repeat' first
    | with_reducible first
      | assumption
      | exact Same.refl _
      | apply outSame_next
      | (intro v; refine seq_same s v ?_ fun hv => ?_; unfold v)
      | (intro v)
      | (lift_lets; intro v)
      | apply delivered_same
    | split
    | (with_reducible apply same_mk; rotate_left; rfl; rfl; rfl)

theorem execEp1InTransferEnd_same (acked : Bool) (s : State) : OutSame s (execEp1InTransferEnd acked s) := by
  unfold execEp1InTransferEnd
  repeat' first
    | with_reducible first
      | assumption
      | exact Same.refl _
      | apply outSame_next
      | (intro v; refine seq_same s v ?_ fun hv => ?_; unfold v)
      | (intro v)
      | (lift_lets; intro v)
      | apply delivered_same
    | split
    | (with_reducible apply same_mk; rotate_left; rfl; rfl; rfl)

theorem pipeCommand_same (b : List Byte) (s : State) {s0 : State} (h0 : Same s0 s) : Same s0 (pipeCommand b s) := by
  refine h0.trans ?_; clear h0 s0
  unfold pipeCommand
  repeat' first
    | with_reducible first
      | assumption
      | exact Same.refl _
      | (intro v)
      | (lift_lets; intro v)
      | apply State.setFlag_same
      | apply State.setMb_same
      | apply accept_same
    | split

theorem execCommandPipeTransfer_same (bytes : List Byte) (s : State) : OutSame s (execCommandPipeTransfer bytes s) := by
  unfold execCommandPipeTransfer
  repeat' first
    | with_reducible first
      | assumption
      | exact Same.refl _
      | apply outSame_next
      | apply pipeCommand_same
    | split

theorem coreSysHello_same (r : Req) (s : State) : ResSame s (coreSysHello r s) := by
  unfold coreSysHello
  repeat' first
    | with_reducible first
      | assumption
      | exact Same.refl _
      | apply resSame_session
      | (intro v)
      | (lift_lets; intro v)
    | split
    | (with_reducible apply same_mk; rotate_left; rfl; rfl; rfl)

theorem execSysHello_same (mb : Fin 8) (s : State) : OutSame s (execSysHello mb s) := by
  exact runOp_same _ _ _ s fun r => coreSysHello_same r s

theorem coreSysResync_same (x1 : Req) (s : State) : ResSame s (coreSysResync x1 s) := by
  unfold coreSysResync
  repeat' first
    | with_reducible first
      | assumption
      | exact Same.refl _
      | apply resSame_session
      | (intro v)
      | (lift_lets; intro v)
    | (with_reducible apply same_mk; rotate_left; rfl; rfl; rfl)

theorem execSysResync_same (mb : Fin 8) (s : State) : OutSame s (execSysResync mb s) := by
  exact runOp_same _ _ _ s fun r => coreSysResync_same r s

theorem coreSysInfo_same (x1 : Req) (s : State) : ResSame s (coreSysInfo x1 s) := by
  unfold coreSysInfo
  repeat' first
    | with_reducible first
      | assumption
      | exact Same.refl _
      | exact resSame_query trivial

theorem execSysInfo_same (mb : Fin 8) (s : State) : OutSame s (execSysInfo mb s) := by
  exact runOp_same _ _ _ s fun r => coreSysInfo_same r s

theorem coreSysAbort_same (r : Req) (s : State) : ResSame s (coreSysAbort r s) := by
  unfold coreSysAbort
  repeat' first
    | with_reducible first
      | assumption
      | exact Same.refl _
      | exact resSame_refuse trivial
      | apply resSame_session
      | (intro v)
      | (lift_lets; intro v)
      | apply abortMask_same
    | split

theorem execSysAbort_same (mb : Fin 8) (s : State) : OutSame s (execSysAbort mb s) := by
  unfold execSysAbort
  repeat' first
    | with_reducible first
      | assumption
      | exact Same.refl _
      | apply outSame_next
      | apply coreSysAbort_same
      | (apply runOp_same; intro _)
    | split

theorem setExpert_same (g : Nat) (opn : Bool) (s : State) {s0 : State} (h0 : Same s0 s) : Same s0 (setExpert g opn s) := by
  refine h0.trans ?_; clear h0 s0
  unfold setExpert
  repeat' first
    | with_reducible first
      | assumption
      | exact Same.refl _
      | (intro v; refine same_seq v ?_ fun hv => ?_; unfold v)
      | (intro v)
      | (lift_lets; intro v)
      | apply State.clrFlag_same
      | apply raiseEvent_same
    | split
    | (with_reducible apply same_mk; rotate_left; rfl; rfl; rfl)

theorem coreSysExpert_same (r : Req) (s : State) : ResSame s (coreSysExpert r s) := by
  unfold coreSysExpert
  repeat' first
    | with_reducible first
      | assumption
      | exact Same.refl _
      | exact resSame_refuse trivial
      | apply resSame_commit
      | (intro v)
      | (lift_lets; intro v)
      | apply setExpert_same
    | split

theorem execSysExpert_same (mb : Fin 8) (s : State) : OutSame s (execSysExpert mb s) := by
  exact runOp_same _ _ _ s fun r => coreSysExpert_same r s

theorem coreSysReset_same (r : Req) (s : State) : ResSame s (coreSysReset r s) := by
  unfold coreSysReset
  repeat' first
    | with_reducible first
      | assumption
      | exact Same.refl _
      | exact resSame_refuse trivial
      | apply resSame_commit
    | split

theorem execSysReset_same (mb : Fin 8) (s : State) : OutSame s (execSysReset mb s) := by
  exact runOp_same _ _ _ s fun r => coreSysReset_same r s

end Sys2Proof.Machine
end

