-- ==== Sys2Proof/Laws/KeepRegs.lean ====
section
/-!
SUPPORT. Register rows keep the queue and the part, and lock bits only join those set.
-/

namespace Sys2Proof.Machine

theorem clearBits_same (off : Nat) (m : Nat) (s : State) {s0 : State} (h0 : Same s0 s) : Same s0 (clearBits off m s) := by
  refine h0.trans ?_; clear h0 s0
  unfold clearBits
  repeat' first
    | with_reducible first
      | assumption
      | exact Same.refl _
      | apply State.setReg_same
    | split
    | (with_reducible apply same_mk; rotate_left; rfl; rfl; rfl)

theorem readReg_same (off : Nat) (s : State) {s0 : State} (h0 : Same s0 s) : Same s0 (readReg off s).2 := by
  refine h0.trans ?_; clear h0 s0
  unfold readReg
  repeat' first
    | with_reducible first
      | assumption
      | exact Same.refl _
      | (intro v; refine same_seq v ?_ fun hv => ?_; unfold v)
      | (intro v)
      | (lift_lets; intro v)
      | apply clearBits_same
      | (apply foldl_same; rotate_left; intro _ _)
      | dsimp -zeta only
    | split
    | (with_reducible apply same_mk; rotate_left; rfl; rfl; rfl)

theorem readBit_same (off : Nat) (s : State) {s0 : State} (h0 : Same s0 s) : Same s0 (readBit off s).2 := by
  refine h0.trans ?_; clear h0 s0
  unfold readBit
  repeat' first
    | with_reducible first
      | assumption
      | exact Same.refl _
      | (intro v)
      | (lift_lets; intro v)
      | apply clearBits_same
      | dsimp -zeta only
    | split

theorem readRun_same (n off : Nat) {s0 : State} (s : State) (h0 : Same s0 s) : Same s0 (readRun n off s).2 := by
  induction n generalizing off s with
  | zero => exact h0
  | succ n ih =>
    unfold readRun
    dsimp only
    refine ih _ _ ?_
    split
    · exact readBit_same _ _ h0
    · exact readReg_same _ _ h0

theorem readFrame_same (off : Nat) (n : Nat) (s : State) {s0 : State} (h0 : Same s0 s) : Same s0 (readFrame off n s) := by
  refine h0.trans ?_; clear h0 s0
  unfold readFrame
  repeat' first
    | with_reducible first
      | assumption
      | exact Same.refl _
      | (intro v; refine same_seq v ?_ fun hv => ?_; unfold v)
      | (intro v)
      | (lift_lets; intro v)
      | apply delivered_same
      | apply dropEvents_same
      | apply readRun_same
    | split
    | (with_reducible apply same_mk; rotate_left; rfl; rfl; rfl)

theorem execBitAliasRead_same (off : BitVec 16) (s : State) : OutSame s (execBitAliasRead off s) := by
  unfold execBitAliasRead
  repeat' first
    | with_reducible first
      | assumption
      | exact Same.refl _
      | apply outSame_next
      | apply readFrame_same
    | split

theorem execRcFieldRead_same (off : BitVec 16) (s : State) : OutSame s (execRcFieldRead off s) := by
  unfold execRcFieldRead
  repeat' first
    | with_reducible first
      | assumption
      | exact Same.refl _
      | apply outSame_next
      | apply readFrame_same
    | split

theorem execLoRegisterRead_same (off : BitVec 16) (s : State) : OutSame s (execLoRegisterRead off s) := by
  unfold execLoRegisterRead
  repeat' first
    | with_reducible first
      | assumption
      | exact Same.refl _
      | apply outSame_next
      | apply readFrame_same
    | split

theorem pipeAnswer_same (stall : Bool) (s : State) {s0 : State} (h0 : Same s0 s) : Same s0 (pipeAnswer stall s) := by
  refine h0.trans ?_; clear h0 s0
  unfold pipeAnswer
  repeat' first
    | with_reducible first
      | assumption
      | exact Same.refl _
    | (with_reducible apply same_mk; rotate_left; rfl; rfl; rfl)

theorem execRegRead_same (off : BitVec 16) (len : Nat) (s : State) : OutSame s (execRegRead off len s) := by
  unfold execRegRead
  repeat' first
    | with_reducible first
      | assumption
      | exact Same.refl _
      | apply outSame_next
      | apply pipeAnswer_same
      | apply readFrame_same
    | split
    | (with_reducible apply same_mk; rotate_left; rfl; rfl; rfl)

theorem spiStatus_same (n : Nat) (s : State) {s0 : State} (h0 : Same s0 s) : Same s0 (spiStatus n s) := by
  refine h0.trans ?_; clear h0 s0
  unfold spiStatus
  repeat' first
    | with_reducible first
      | assumption
      | exact Same.refl _
    | (with_reducible apply same_mk; rotate_left; rfl; rfl; rfl)

theorem execSpiReadFrame_same (header : List Byte) (statusBytes : Nat) (clocked : Nat) (s : State) : OutSame s (execSpiReadFrame header statusBytes clocked s) := by
  unfold execSpiReadFrame
  repeat' first
    | with_reducible first
      | assumption
      | exact Same.refl _
      | apply outSame_next
      | (intro v)
      | (lift_lets; intro v; refine seq_same s v ?_ fun hv => ?_; unfold v)
      | apply readFrame_same
      | apply spiStatus_same
    | split
    | (with_reducible apply same_mk; rotate_left; rfl; rfl; rfl)

theorem execSpiStatusFrame_same (s : State) : OutSame s (execSpiStatusFrame s) := by
  unfold execSpiStatusFrame
  repeat' first
    | with_reducible first
      | assumption
      | exact Same.refl _
      | apply outSame_next
    | split
    | (with_reducible apply same_mk; rotate_left; rfl; rfl; rfl)

theorem cfgViol_same (off : Nat) (s : State) {s0 : State} (h0 : Same s0 s) : Same s0 (cfgViol off s) := by
  refine h0.trans ?_; clear h0 s0
  unfold cfgViol
  repeat' first
    | with_reducible first
      | assumption
      | exact Same.refl _
      | apply State.setFlag_same
    | split

theorem lockViol_same (off : Nat) (s : State) {s0 : State} (h0 : Same s0 s) : Same s0 (lockViol off s) := by
  refine h0.trans ?_; clear h0 s0
  unfold lockViol
  repeat' first
    | with_reducible first
      | assumption
      | exact Same.refl _
      | apply State.setFlag_same
      | apply faultPulse_same

theorem valErr_same (off : Nat) (s : State) {s0 : State} (h0 : Same s0 s) : Same s0 (valErr off s) := by
  refine h0.trans ?_; clear h0 s0
  unfold valErr
  repeat' first
    | with_reducible first
      | assumption
      | exact Same.refl _
      | apply State.setFlag_same
    | split

theorem enableBit_same (c : Nat) (on : Bool) (s : State) {s0 : State} (h0 : Same s0 s) : Same s0 (enableBit c on s) := by
  refine h0.trans ?_; clear h0 s0
  unfold enableBit
  repeat' first
    | with_reducible first
      | assumption
      | exact Same.refl _
      | (intro v)
      | (lift_lets; intro v)
      | apply State.clrFlag_same
      | apply State.setDom_same
      | apply State.setFlag_same
      | apply angOff_same
      | apply angOn_same
      | apply canDisable_same
      | apply canStart_same
      | apply fuseOff_same
      | apply fuseOn_same
      | apply phoOff_same
      | apply phoOn_same
      | apply portFrontOff_same
      | apply portFrontOn_same
      | apply rsEnd_same
      | apply valErr_same
      | apply wallOff_same
      | apply wallOn_same
      | (apply foldl_same; rotate_left; intro _ _)
    | split
    | (with_reducible apply same_mk; rotate_left; rfl; rfl; rfl)

theorem afterStore_same (off : Nat) (s : State) {s0 : State} (h0 : Same s0 s) : Same s0 (afterStore off s) := by
  refine h0.trans ?_; clear h0 s0
  unfold afterStore
  repeat' first
    | with_reducible first
      | assumption
      | exact Same.refl _
      | apply State.evqLevel_same
      | apply State.rqLevel_same
      | apply coverCheck_same
    | split
    | (with_reducible apply same_mk; rotate_left; rfl; rfl; rfl)

theorem writePlain_same (off : Nat) (val : Nat) (mask : Nat) (locks : Bool) (s : State) {s0 : State} (h0 : Same s0 s) : Same s0 (writePlain off val mask locks s) := by
  refine h0.trans ?_; clear h0 s0
  unfold writePlain
  repeat' first
    | with_reducible first
      | assumption
      | exact Same.refl _
      | (intro v; refine same_seq v ?_ fun hv => ?_; unfold v)
      | (intro v)
      | (lift_lets; intro v)
      | apply State.setReg_same
      | apply afterStore_same
      | apply cfgViol_same
      | apply enableBit_same
      | apply lockViol_same
      | apply valErr_same
    | split

theorem writeWin_same (off : Nat) (val : Nat) (s : State) {s0 : State} (h0 : Same s0 s) : Same s0 (writeWin off val s) := by
  refine h0.trans ?_; clear h0 s0
  unfold writeWin
  repeat' first
    | with_reducible first
      | assumption
      | exact Same.refl _
      | (intro v)
      | (lift_lets; intro v)
      | apply State.setFlag_same
      | apply State.setMb_same
    | split

theorem writeSrcCfg_same (c : Nat × Nat × Nat) (s : State) {s0 : State} (h0 : Same s0 s) : Same s0 (writeSrcCfg c s) := by
  refine h0.trans ?_; clear h0 s0
  unfold writeSrcCfg
  repeat' first
    | with_reducible first
      | assumption
      | exact Same.refl _
      | (intro v)
      | (lift_lets; intro v)
      | apply lockViol_same
      | apply setSrcCfg_same
      | apply valErr_same
    | split

theorem writeClear_same (s : State) {s0 : State} (h0 : Same s0 s) : Same s0 (writeClear s) := by
  refine h0.trans ?_; clear h0 s0
  unfold writeClear
  repeat' first
    | with_reducible first
      | assumption
      | exact Same.refl _
      | (intro v)
      | (lift_lets; intro v)
      | apply clearSrc_same
      | apply valErr_same
    | split

theorem writeForce_same (pat : Nat) (s : State) {s0 : State} (h0 : Same s0 s) : Same s0 (writeForce pat s) := by
  refine h0.trans ?_; clear h0 s0
  unfold writeForce
  repeat' first
    | with_reducible first
      | assumption
      | exact Same.refl _
      | (intro v)
      | (lift_lets; intro v)
      | apply forceSrc_same
      | apply valErr_same
    | split

theorem writeTmuxCtrl_same (val : Nat) (s : State) {s0 : State} (h0 : Same s0 s) : Same s0 (writeTmuxCtrl val s) := by
  refine h0.trans ?_; clear h0 s0
  unfold writeTmuxCtrl
  repeat' first
    | with_reducible first
      | assumption
      | exact Same.refl _
      | (intro v)
      | (lift_lets; intro v; refine same_seq v ?_ fun hv => ?_; unfold v)
      | apply State.setFlag_same
      | apply State.setReg_same
      | apply lockViol_same
    | split

theorem releasePads_same (val : Nat) (s : State) {s0 : State} (h0 : Same s0 s) : Same s0 (releasePads val s) := by
  refine h0.trans ?_; clear h0 s0
  unfold releasePads
  repeat' first
    | with_reducible first
      | assumption
      | exact Same.refl _
      | apply padHold_same
      | apply valErr_same
      | (apply foldl_same; rotate_left; intro _ _)
    | split

theorem writeRegion_same (r : Nat) (mode : Nat) (retain : Nat) (s : State) {s0 : State} (h0 : Same s0 s) : Same s0 (writeRegion r mode retain s) := by
  refine h0.trans ?_; clear h0 s0
  unfold writeRegion
  repeat' first
    | with_reducible first
      | assumption
      | exact Same.refl _
      | apply setRegionMode_same
      | apply valErr_same
    | split

theorem writeKeeper_same (off : Nat) (val : Nat) (s : State) {s0 : State} (h0 : Same s0 s) : Same s0 (writeKeeper off val s) := by
  refine h0.trans ?_; clear h0 s0
  unfold writeKeeper
  repeat' first
    | with_reducible first
      | assumption
      | exact Same.refl _
      | (intro v)
      | (lift_lets; intro v)
    | split
    | (with_reducible apply same_mk; rotate_left; rfl; rfl; rfl)

theorem acceptPosted_same (d : Nat) (off : Nat) (val : Nat) (busy : List Nat) (s : State) {s0 : State} (h0 : Same s0 s) : Same s0 (acceptPosted d off val busy s) := by
  refine h0.trans ?_; clear h0 s0
  unfold acceptPosted
  repeat' first
    | with_reducible first
      | assumption
      | exact Same.refl _
      | (intro v; refine same_seq v ?_ fun hv => ?_; unfold v)
      | (intro v)
      | (lift_lets; intro v)
      | apply State.setFlag_same
      | apply faultPulse_same
      | apply lockViol_same
      | apply postWrite_same
    | split

theorem execPostedWriteComplete_same (dom : Fin 3) (s : State) : OutSame s (execPostedWriteComplete dom s) := by
  unfold execPostedWriteComplete
  repeat' first
    | with_reducible first
      | assumption
      | exact Same.refl _
      | apply outSame_next
      | (intro v)
      | (lift_lets; intro v)
      | refine OutSame.out ?_ _ ‹_ = Host.Outcome.next _›
      | apply writeKeeper_same
      | apply writePlain_same
    | split
    | (with_reducible apply same_mk; rotate_left; rfl; rfl; rfl)

theorem execSpiFrameRefused_same (bytes : List Byte) (s : State) : OutSame s (execSpiFrameRefused bytes s) := by
  unfold execSpiFrameRefused
  repeat' first
    | with_reducible first
      | assumption
      | exact Same.refl _
      | apply outSame_next
      | (intro v)
      | (lift_lets; intro v)
      | apply spiStatus_same
    | split

theorem repeatOut_same (f : State → Out) (h : ∀ s, OutSame s (f s)) (n : Nat) {s0 : State} (s : State)
    (h0 : Same s0 s) : Same s0 (repeatOut f n s) := by
  induction n generalizing s with
  | zero => exact h0
  | succ n ih =>
    unfold repeatOut
    split
    · rename_i t e
      exact ih _ (h0.trans ((h s).out _ e))
    · exact h0

theorem coreOf_same {op : Nat} {core : Req → State → CmdRes} (h : coreOf op = some core) (r : Req) (s : State) :
    ResSame s (core r s) := by
  unfold coreOf at h
  split at h
  all_goals first | (cases h; done) | (cases h; with_reducible first
    | exact coreChanResume_same true r s
    | exact coreAngConfig_same r s
    | exact coreAngEnable_same r s
    | exact coreAngStatus_same r s
    | exact coreTimeSet_same r s
    | exact coreTimeAdjust_same r s
    | exact coreTimeDisc_same r s
    | exact corePhaseSet_same r s
    | exact corePhasePsync_same r s
    | exact corePhaseCapture_same r s
    | exact corePhaseLink_same r s
    | exact corePortMode_same r s
    | exact corePortReset_same r s
    | exact corePortSuspend_same r s
    | exact corePortResume_same r s
    | exact corePortStatus_same r s
    | exact corePortCfg_same r s
    | exact coreDevList_same r s
    | exact coreDevInfo_same r s
    | exact coreDevPolicy_same r s
    | exact coreChanOpen_same r s
    | exact coreChanClose_same r s
    | exact coreChanPause_same r s
    | exact coreChanStopGroup_same r s
    | exact coreChanStartGroup_same r s
    | exact coreChanCtrl_same r s
    | exact coreChanWrite_same r s
    | exact coreChanInfo_same r s
    | exact coreChanLatest_same r s
    | exact coreChanHistory_same r s
    | exact coreChanAck_same r s
    | exact coreChanRewind_same r s
    | exact coreSchedBegin_same r s
    | exact coreSchedAdd_same r s
    | exact coreSchedChange_same r s
    | exact coreSchedCommit_same r s
    | exact coreSchedCancel_same r s
    | exact coreSchedReport_same r s
    | exact corePwrOn_same r s
    | exact corePwrOff_same r s
    | exact corePwrClear_same r s
    | exact corePwrCurve_same r s
    | exact corePwrRails_same r s
    | exact corePwrPriority_same r s
    | exact corePwrStagger_same r s
    | exact corePwrStatus_same r s
    | exact corePdStatus_same r s
    | exact corePdCaps_same r s
    | exact corePdHardreset_same r s
    | exact corePdSwap_same r s
    | exact corePdFrs_same r s
    | exact corePdMoist_same r s
    | exact corePdAltmode_same r s
    | exact coreCanConfig_same r s
    | exact coreCanEnable_same r s
    | exact coreCanFilter_same r s
    | exact coreCanTx_same r s
    | exact coreCanTxabort_same r s
    | exact coreCanRecover_same r s
    | exact coreCanAutobaud_same r s
    | exact coreCanStatus_same r s
    | exact coreIntegStatus_same r s
    | exact coreIntegRegion_same r s
    | exact coreIntegRestrength_same r s
    | exact coreIntegScrub_same r s
    | exact coreIntegLog_same r s
    | exact coreIntegRotate_same r s
    | exact coreIntegInject_same r s
    | exact coreFaultStatus_same r s
    | exact coreFaultConfig_same r s
    | exact coreFaultClear_same r s
    | exact coreFaultForce_same r s
    | exact coreWardenArm_same r s
    | exact coreWardenEnter_same r s
    | exact coreWardenLeave_same r s
    | exact coreWardenStatus_same r s
    | exact coreDomList_same r s
    | exact coreDomEvent_same r s
    | exact coreDomForget_same r s
    | exact coreDomPstate_same r s
    | exact coreDomPcfg_same r s
    | exact coreDomStatus_same r s
    | exact coreDomKeeper_same r s
    | exact coreFwInfo_same r s
    | exact coreFwBegin_same r s
    | exact coreFwWrite_same r s
    | exact coreFwVerify_same r s
    | exact coreFwActivate_same r s
    | exact coreFwCancel_same r s
    | exact coreProfRead_same r s
    | exact coreProfWrite_same r s
    | exact coreLinkStatus_same r s
    | exact coreLinkBudget_same r s
    | exact coreLinkDetach_same r s
    | exact coreTestTmux_same r s
    | exact coreTestBist_same r s
    | exact coreTestLoop_same r s
    | exact coreTestResult_same r s)

theorem settleWrites_same (s : State) {s0 : State} (h0 : Same s0 s) : Same s0 (settleWrites s) := by
  refine h0.trans ?_; clear h0 s0
  unfold settleWrites
  exact foldl_same _ _ (Same.refl s) fun s d => repeatOut_same _ (fun s => execPostedWriteComplete_same _ s) _ _ (Same.refl s)

theorem bootWait_same (w : Wait) (s : State) {s0 : State} (h0 : Same s0 s) : OptSame s0 (bootWait w s) := by
  refine optSame_trans h0 ?_; clear h0 s0
  unfold bootWait
  split
  · have h := execRotationCopyDone_same s
    cases e : execRotationCopyDone s with
    | next t => exact optSame_some (h.out _ e)
    | fault _ => exact optSame_none trivial
    | refused _ => exact optSame_none trivial
  · dsimp only
    (repeat' split) <;> first
      | exact optSame_none trivial
      | exact optSame_some (repeatOut_same _ (fun s => execWakeComplete_same _ s) _ _ (Same.refl s))
      | exact optSame_some (repeatOut_same _ (fun s => execDomainEntry_same _ s) _ _ (Same.refl s))
  · exact optSame_none trivial

theorem carryOut_same (c : CmdRes) {s0 : State} (s : State) (h0 : Same s0 s) (h : ResSame s c) :
    Same s0 (carryOut c s).2 := by
  refine h0.trans ?_
  have k (t : State) : Same t { t with journal.logged := t.journal.logged + 1 } := ⟨rfl, rfl, rfl, rfl, rfl⟩
  cases c <;> unfold carryOut <;> dsimp only
  case refuse => exact Same.refl s
  case query => exact Same.refl s
  case noted => exact h.noted _ _ _ rfl
  case session => exact settleWrites_same _ (h.session _ _ rfl)
  case commit => exact settleWrites_same _ ((h.commit _ _ rfl).trans (k _))
  case commitWith => exact settleWrites_same _ (h.done _ _ _ rfl)
  case commitWait =>
    split
    · rename_i e
      exact settleWrites_same _ (optSame_out e (bootWait_same _ _ ((h.wait _ _ rfl).trans (k _))))
    · exact State.drawn_same _ (Same.refl s)

theorem applyCommand_same (e : ProfEntry) (s : State) {s0 : State} (h0 : Same s0 s) : Same s0 (applyCommand e s).2 := by
  refine h0.trans ?_; clear h0 s0
  unfold applyCommand
  split
  · rename_i hc
    dsimp only
    split
    · exact Same.refl s
    · exact carryOut_same _ _ (Same.refl s) (coreOf_same hc _ s)
  · exact Same.refl s

theorem applySafetySet_same (e : ProfEntry) (s : State) {s0 : State} (h0 : Same s0 s) : Same s0 (applySafetySet e s).2 := by
  refine h0.trans ?_; clear h0 s0
  unfold applySafetySet
  repeat' first
    | with_reducible first
      | assumption
      | exact Same.refl _
      | (intro v)
      | (lift_lets; intro v)
      | apply State.setFlag_same
      | apply State.setReg_same
      | dsimp -zeta only
    | split

theorem applyModes_same (e : ProfEntry) (s : State) {s0 : State} (h0 : Same s0 s) : Same s0 (applyModes e s).2 := by
  refine h0.trans ?_; clear h0 s0
  unfold applyModes
  split
  · exact Same.refl s
  · refine foldl_same2 _ _ (Same.refl s) fun x p => ?_
    dsimp only
    split
    · exact Same.refl _
    · exact carryOut_same _ _ (Same.refl _) (corePortMode_same _ _)

theorem applyEntry_same (e : ProfEntry) (s : State) {s0 : State} (h0 : Same s0 s) : Same s0 (applyEntry e s).2 := by
  refine h0.trans ?_; clear h0 s0
  unfold applyEntry
  repeat' first
    | with_reducible first
      | assumption
      | exact Same.refl _
      | (intro v)
      | (lift_lets; intro v)
      | apply State.setFld_same
      | apply State.setReg_same
      | apply applyCommand_same
      | apply applyModes_same
      | apply applySafetySet_same
      | dsimp -zeta only
    | split

theorem readEntry_same (e : ProfEntry) (s : State) {s0 : State} (h0 : Same s0 s) : Same s0 (readEntry e s).2 := by
  refine h0.trans ?_; clear h0 s0
  unfold readEntry
  repeat' first
    | with_reducible first
      | assumption
      | exact Same.refl _
      | apply raiseEvent_same
      | dsimp -zeta only
    | split

theorem applyEntries_same (l : List ProfEntry) (s : State) {s0 : State} (h0 : Same s0 s) : Same s0 (applyEntries l s).2 := by
  refine h0.trans ?_; clear h0 s0
  unfold applyEntries
  refine foldl_same2 _ _ (Same.refl s) fun x e => ?_
  have k : Same x.2 (applyEntry (readEntry e x.2).1 (readEntry e x.2).2).2 :=
    applyEntry_same _ _ (readEntry_same _ _ (Same.refl x.2))
  split
  · exact Same.refl _
  · dsimp only
    split
    · exact k
    · exact raiseEvent_same _ _ _ _ k

/-- The queue and the part stay, and no lock bit falls. -/
structure Grow (s t : State) : Prop where
  pending : t.pending = s.pending
  variant : t.variant = s.variant
  lock0 : ∀ i, s.hrs.lock0.getLsbD i = true → t.hrs.lock0.getLsbD i = true
  portLo : ∀ i, s.hrs.portLo.getLsbD i = true → t.hrs.portLo.getLsbD i = true
  portHi : ∀ i, s.hrs.portHi.getLsbD i = true → t.hrs.portHi.getLsbD i = true

theorem Grow.refl (s : State) : Grow s s := ⟨rfl, rfl, fun _ h => h, fun _ h => h, fun _ h => h⟩
theorem Grow.trans {s t u : State} (h : Grow s t) (k : Grow t u) : Grow s u :=
  ⟨k.pending.trans h.pending, k.variant.trans h.variant, fun i x => k.lock0 i (h.lock0 i x),
    fun i x => k.portLo i (h.portLo i x), fun i x => k.portHi i (h.portHi i x)⟩
theorem Same.grow {s t : State} (h : Same s t) : Grow s t := by
  obtain ⟨a, b, c, d, e⟩ := h
  exact ⟨a, b, fun i x => by rw [c]; exact x, fun i x => by rw [d]; exact x, fun i x => by rw [e]; exact x⟩

theorem setLocks_grow (off val : Nat) (s : State) : Grow s (setLocks off val s) := by
  unfold setLocks
  dsimp only
  (repeat' split) <;> first
    | exact Grow.refl s
    | (refine ⟨rfl, rfl, fun i x => ?_, fun i x => ?_, fun i x => ?_⟩ <;> first
        | exact x
        | (rw [BitVec.getLsbD_or, x]; rfl))

theorem grow_ite {s a b : State} {c : Prop} [Decidable c] (h : Grow s a) (k : Grow s b) : Grow s (if c then a else b) := by
  split
  · exact h
  · exact k

theorem applyWrite_grow (off val mask : Nat) (s : State) : Grow s (applyWrite off val mask s) := by
  unfold applyWrite
  extract_lets
  refine grow_ite ((ring_same _ _ (Same.refl _)).grow) ?_
  refine grow_ite ((doneWrite_same _ _ (Same.refl _)).grow) ?_
  refine grow_ite ((abortWrite_same _ _ (State.setReg_same _ _ _ (Same.refl _))).grow) ?_
  refine grow_ite (setLocks_grow ..) ?_
  refine grow_ite ((writeWin_same _ _ _ (Same.refl _)).grow) ?_
  refine grow_ite ((writeSrcCfg_same _ _ (Same.refl _)).grow) ?_
  refine grow_ite ((writeSrcCfg_same _ _ (Same.refl _)).grow) ?_
  refine grow_ite (grow_ite ((writeClear_same _ (Same.refl _)).grow) (Grow.refl s)) ?_
  refine grow_ite ((writeForce_same _ _ (Same.refl _)).grow) ?_
  refine grow_ite ((writeTmuxCtrl_same _ _ (Same.refl _)).grow) ?_
  refine grow_ite ((releasePads_same _ _ (Same.refl _)).grow) ?_
  refine grow_ite (grow_ite ((writeRegion_same _ _ _ _ (Same.refl _)).grow) (Grow.refl s)) ?_
  exact (writePlain_same _ _ _ _ _ (Same.refl _)).grow

theorem gateRefusal_grow (off : Nat) (s t : State) (h : gateRefusal off s = some t) : Grow s t := by
  unfold gateRefusal at h
  dsimp only at h
  split at h
  · split at h
    · cases h
    · cases h; exact (State.setFlag_same _ _ _ (Same.refl _)).grow
  · split at h
    · cases h; exact (State.setFlag_same _ _ _ (Same.refl _)).grow
    · cases h

theorem writeWord_grow (busy : List Nat) (off val : Nat) (s t : State) (h : writeWord busy off val s = some t) :
    Grow s t := by
  unfold writeWord at h
  split at h
  · cases h; exact Grow.refl s
  · split at h
    · rename_i k; cases h; exact gateRefusal_grow _ _ _ k
    · split at h
      · cases h; exact Grow.refl s
      · split at h
        · cases h; exact (State.setFlag_same _ _ _ (Same.refl _)).grow
        · split at h
          · cases h
          · split at h
            · cases h; exact (acceptPosted_same _ _ _ _ _ (Same.refl _)).grow
            · cases h; exact applyWrite_grow ..

theorem writeBit_grow (off val : Nat) (s : State) : Grow s (writeBit off val s) := by
  unfold writeBit
  dsimp only
  split
  · exact Grow.refl s
  · exact applyWrite_grow ..

theorem writeWords_grow (busy : List Nat) (l : List Nat) (off : Nat) (s t : State)
    (h : writeWords busy off l s = some t) : Grow s t := by
  induction l generalizing off s with
  | nil => cases h; exact Grow.refl _
  | cons v l ih =>
    unfold writeWords at h
    split at h
    · rename_i u k
      refine Grow.trans ?_ (ih _ _ h)
      split at k
      · cases k; exact writeBit_grow ..
      · split at k
        · cases k; exact Grow.refl s
        · exact writeWord_grow _ _ _ _ _ k
    · cases h

theorem writeFrame_grow (off : Nat) (data : List Byte) (s t : State) (h : writeFrame off data s = some t) :
    Grow s t := by
  unfold writeFrame at h
  dsimp only at h
  split at h
  · cases h
  · rename_i u k
    refine Grow.trans (writeWords_grow _ _ _ _ _ k) ?_
    split at h
    · cases h; exact (takeUnit_same _ _ (Same.refl _)).grow
    · split at h
      · cases h; exact (State.setFlag_same _ _ _ (Same.refl _)).grow
      · cases h; exact Grow.refl _

theorem hostWrite_grow (off val : Nat) (s t : State) (h : hostWrite off val s = .next t) : Grow s t := by
  unfold hostWrite at h
  split at h
  · unfold wrote at h
    split at h
    · rename_i k; cases h; exact writeFrame_grow _ _ _ _ k
    · cases h
  · cases h; exact Grow.refl s

theorem wroteMap_grow {off : Nat} {data : List Byte} {s t : State} {f : State → State} (hf : ∀ u, Same u (f u))
    (h : wrote ((writeFrame off data s).map f) = .next t) : Grow s t := by
  cases e : writeFrame off data s with
  | none => rw [e] at h; cases h
  | some u =>
    rw [e] at h
    cases h
    exact (writeFrame_grow _ _ _ _ e).trans (hf u).grow

theorem execRegWrite_grow (off : BitVec 16) (len : Nat) (data : List Byte) (s t : State)
    (h : execRegWrite off len data s = .next t) : Grow s t := by
  have k (b : Bool) (u : State) : Same u (pipeAnswer b u) := ⟨rfl, rfl, rfl, rfl, rfl⟩
  unfold execRegWrite at h
  split at h
  · cases h; exact Grow.refl s
  · split at h
    · cases h; exact (k _ _).grow
    · split at h
      · cases h; exact Grow.refl s
      · exact wroteMap_grow (k _) h

theorem execBitAliasWrite_grow (off : BitVec 16) (val : Word) (s t : State)
    (h : execBitAliasWrite off val s = .next t) : Grow s t := by
  unfold execBitAliasWrite at h
  split at h
  · exact hostWrite_grow _ _ _ _ h
  · cases h; exact Grow.refl s

theorem execSpiWriteFrame_grow (bytes : List Byte) (s t : State) (h : execSpiWriteFrame bytes s = .next t) :
    Grow s t := by
  unfold execSpiWriteFrame at h
  split at h
  · cases h; exact Grow.refl s
  · split at h
    · cases h; exact (spiStatus_same _ _ (Same.refl _)).grow
    · split at h
      · cases h; exact (spiStatus_same _ _ (Same.refl _)).grow
      · exact wroteMap_grow (fun u => spiStatus_same _ _ (Same.refl u)) h

end Sys2Proof.Machine
end

