-- ==== Sys2Proof/Laws/KeepStart.lean ====
section
/-!
SUPPORT. The starts keep the queue and the part; the boot and the confirmation of an image keep the lock bits
too.
-/

namespace Sys2Proof.Machine

/-- The queue and the part stay. -/
structure Kin (s t : State) : Prop where
  pending : t.pending = s.pending
  variant : t.variant = s.variant

theorem Kin.refl (s : State) : Kin s s := ⟨rfl, rfl⟩
theorem Kin.trans {s t u : State} (h : Kin s t) (k : Kin t u) : Kin s u :=
  ⟨k.pending.trans h.pending, k.variant.trans h.variant⟩
theorem Grow.kin {s t : State} (h : Grow s t) : Kin s t := ⟨h.pending, h.variant⟩
theorem Same.kin {s t : State} (h : Same s t) : Kin s t := h.grow.kin
theorem Kin.after {s t u : State} (h : Kin s t) (k : Same t u) : Kin s u := h.trans k.kin
theorem kin_mk {s t : State} {x_tick : Nat} {x_freeCtr : Nat} {x_rdata : List Byte} {x_straps : Straps} {x_hrs : Hrs} {x_cci : Cci} {x_journal : Journal} {x_campion : Campion} {x_warden : Warden} {x_power : PowerCtl} {x_keeper : Keeper} {x_boot : Boot} {x_chicory : Chicory} {x_ports : Tbl PortSt} {x_clover : Clover} {x_hub : HubFn} {x_strike : Strike} {x_rescue : Rescue} {x_devices : Tbl Device} {x_chans : Tbl Chan} {x_groups : Tbl Group} {x_policies : Tbl Nat} {x_domain : Domains} {x_sched : Sched} {x_cans : Tbl CanCtl} {x_integ : Integ} {x_test : TestSt} {x_mgmtDown : Option Nat} {x_mgmtWhy : Nat}
    (h : Kin s t) : Kin s (State.mk t.pending x_tick x_freeCtr x_rdata t.variant x_straps x_hrs x_cci x_journal x_campion x_warden x_power x_keeper x_boot x_chicory x_ports x_clover x_hub x_strike x_rescue x_devices x_chans x_groups x_policies x_domain x_sched x_cans x_integ x_test x_mgmtDown x_mgmtWhy) := ⟨h.pending, h.variant⟩

theorem lockEntries_grow (l : List ProfEntry) (s : State) : Grow s (lockEntries l s) := by
  unfold lockEntries
  exact ((setLocks_grow _ _ _).trans (setLocks_grow _ _ _)).trans (setLocks_grow _ _ _)

theorem chipCleared_kin (cause : Nat) (full keeperKept journalKept : Bool) (s : State) :
    Kin s (chipCleared cause full keeperKept journalKept s) := ⟨rfl, rfl⟩

theorem chipStart_kin (cause : Nat) (full keeperKept journalKept : Bool) {s0 s : State} (h0 : Kin s0 s) :
    Kin s0 (chipStart cause full keeperKept journalKept s) := by
  have h := h0.trans (chipCleared_kin cause full keeperKept journalKept s)
  unfold chipStart
  generalize chipCleared cause full keeperKept journalKept s = t at h
  dsimp only
  split
  · exact h.after (raiseEvent_same _ _ _ _ (Same.refl _))
  · exact h

theorem loseSupply_kin {s0 s : State} (h0 : Kin s0 s) : Kin s0 (loseSupply s) := by
  have h := chipStart_kin s.hrs.cause true true true h0
  unfold loseSupply
  generalize chipStart s.hrs.cause true true true s = t at h
  with_reducible apply kin_mk
  exact h

theorem bootFailed_kin (cause : Nat) {s0 s : State} (h0 : Kin s0 s) : Kin s0 (bootFailed cause s).2 := by
  unfold bootFailed
  dsimp only
  split
  · with_reducible apply kin_mk
    exact h0
  · have h := h0.after (dropActivation_same s.boot.running s (Same.refl s))
    generalize dropActivation s.boot.running s = t at h
    with_reducible apply kin_mk
    exact h

theorem leaveRescue_kin {s0 s : State} (h0 : Kin s0 s) : Kin s0 (leaveRescue s) := by
  unfold leaveRescue
  dsimp only
  split
  · with_reducible apply chipStart_kin
    with_reducible apply kin_mk
    exact h0
  · with_reducible apply loseSupply_kin
    with_reducible apply kin_mk
    exact h0

theorem rescueStart_kin (p : Nat) {s0 s : State} (h0 : Kin s0 s) : Kin s0 (rescueStart p s) := by
  have h := chipStart_kin 5 true (!s.keeper.vbakLow || !s.boot.dark) true h0
  unfold rescueStart
  generalize chipStart 5 true (!s.keeper.vbakLow || !s.boot.dark) true s = t at h
  dsimp only
  have k := h.after (State.setPort_same t p { usb := { ccAtt := true }, pd := (s.port p).pd } (Same.refl t))
  generalize t.setPort p { usb := { ccAtt := true }, pd := (s.port p).pd } = u at k
  with_reducible apply kin_mk
  exact k

theorem execPowerOnReset_kin (straps : Straps) (keeperKept journalKept : Bool) (s t : State)
    (h : execPowerOnReset straps keeperKept journalKept s = .next t) : Kin s t := by
  unfold execPowerOnReset at h
  injection h with h
  subst h
  with_reducible apply chipStart_kin
  with_reducible apply kin_mk
  exact Kin.refl s

theorem execPinReset_kin (straps : Straps) (s t : State) (h : execPinReset straps s = .next t) : Kin s t := by
  unfold execPinReset at h
  split at h <;> injection h with h <;> subst h
  · exact Kin.refl s
  · with_reducible apply chipStart_kin
    with_reducible apply kin_mk
    exact Kin.refl s

theorem execSupplyLoss_kin (s t : State) (h : execSupplyLoss s = .next t) : Kin s t := by
  unfold execSupplyLoss at h
  split at h <;> injection h with h <;> subst h
  · exact Kin.refl s
  · exact loseSupply_kin (Kin.refl s)

theorem execChipReset_kin (s t : State) (h : execChipReset s = .next t) : Kin s t := by
  unfold execChipReset at h
  split at h
  · injection h with h; subst h; exact Kin.refl s
  · split at h
    · injection h with h; subst h; exact Kin.refl s
    · rename_i c n _ _
      dsimp only at h
      have h1 := (Kin.refl s).after (State.waitUntil_same n s (Same.refl s))
      generalize s.waitUntil n = s1 at h h1
      have h2 : Kin s (if (c == 2 || c == 3) = true then sealNow s1 else s1) := by
        split
        · exact h1.after (sealNow_same s1 (Same.refl s1))
        · exact h1
      generalize (if (c == 2 || c == 3) = true then sealNow s1 else s1) = s2 at h h2
      have h3 : Kin s (if s2.trialFailed = true then bootFailed c s2 else (c, s2)).2 := by
        split
        · exact bootFailed_kin c h2
        · exact h2
      generalize (if s2.trialFailed = true then bootFailed c s2 else (c, s2)) = x at h h3
      split at h <;> injection h with h <;> subst h
      · exact leaveRescue_kin h3
      · exact chipStart_kin _ _ _ _ h3

theorem execBootFailure_kin (s t : State) (h : execBootFailure s = .next t) : Kin s t := by
  unfold execBootFailure at h
  split at h <;> injection h with h <;> subst h
  · exact Kin.refl s
  · with_reducible apply chipStart_kin
    with_reducible apply bootFailed_kin
    exact Kin.refl s

theorem execImageConfirm_same (s : State) : OutSame s (execImageConfirm s) := by
  unfold execImageConfirm
  split
  · exact outSame_next (Same.refl s)
  · dsimp only
    have h := State.waitUntil_same (s.boot.trialAt + ticksS 60) s (Same.refl s)
    generalize s.waitUntil (s.boot.trialAt + ticksS 60) = t at h
    with_reducible apply outSame_next
    with_reducible apply same_mk
    · exact h
    · rfl
    · rfl
    · rfl

theorem execActivationDue_kin (s t : State) (h : execActivationDue s = .next t) : Kin s t := by
  unfold execActivationDue at h
  split at h
  · split at h
    · injection h with h; subst h; exact Kin.refl s
    · split at h
      · injection h with h; subst h; exact Kin.refl s
      · rename_i u e
        injection h with h; subst h
        have k := (Kin.refl s).after (optSame_out e (State.reach_same _ _ _ (Same.refl s)))
        exact chipStart_kin _ _ _ _ (k.after (sealNow_same u (Same.refl u)))
  · injection h with h; subst h; exact Kin.refl s

theorem execRescueStart_kin (s t : State) (h : execRescueStart s = .next t) : Kin s t := by
  unfold execRescueStart at h
  repeat' split at h
  all_goals injection h with h; subst h
  all_goals first
    | exact Kin.refl s
    | exact rescueStart_kin _ (Kin.refl s)

theorem execRescuePortDetach_kin (s t : State) (h : execRescuePortDetach s = .next t) : Kin s t := by
  unfold execRescuePortDetach at h
  split at h <;> injection h with h <;> subst h
  · exact Kin.refl s
  · exact leaveRescue_kin (Kin.refl s)

theorem execFrsFeedReturn_kin (feedPresent : Bool) (s t : State) (h : execFrsFeedReturn feedPresent s = .next t) :
    Kin s t := by
  unfold execFrsFeedReturn at h
  split at h
  · injection h with h; subst h; exact Kin.refl s
  · split at h
    · injection h with h; subst h; exact Kin.refl s
    · split at h
      · split at h
        · injection h with h; subst h; exact Kin.refl s
        · dsimp only at h
          have h1 := (Kin.refl s).after
            (State.waitUntil_same (max (s.rail 0).since (s.rail 1).since + ticksS 1) s (Same.refl s))
          generalize s.waitUntil (max (s.rail 0).since (s.rail 1).since + ticksS 1) = u at h h1
          injection h with h; subst h
          refine Kin.after ?_ (coverCheck_same _ (Same.refl _))
          with_reducible apply kin_mk
          exact h1
      · injection h with h; subst h
        exact rescueStart_kin _ ((Kin.refl s).after (sealNow_same s (Same.refl s)))

theorem newEpoch_same (s : State) : Same s (newEpoch s) := ⟨rfl, rfl, rfl, rfl, rfl⟩

theorem bootLoader_same (s : State) : Same s (bootLoader s) := by
  have h := newEpoch_same s
  unfold bootLoader
  generalize newEpoch s = t at h
  dsimp only
  with_reducible apply same_mk
  · exact h
  · rfl
  · rfl
  · rfl

theorem turnProfile_same (s : State) : Same s (turnProfile s) := by
  unfold turnProfile
  split
  · exact ⟨rfl, rfl, rfl, rfl, rfl⟩
  · exact Same.refl s

theorem bootImage_same (n : Bool) (s : State) : Same s (bootImage n s) := ⟨rfl, rfl, rfl, rfl, rfl⟩

theorem bootEnables_same (s : State) : Same s (bootEnables s) := by
  unfold bootEnables
  refine foldl_same _ _ (foldl_same _ _ (Same.refl s) fun s p => ?_) fun s c => State.setFlag_same _ _ _ (Same.refl s)
  split
  · exact Same.refl s
  · exact State.setFlag_same _ _ _ (portFrontOn_same _ _ (State.setFlag_same _ _ _ (Same.refl s)))

theorem told_same (c : Bool) (a b : Nat) (d : List Byte) {s t : State} (h : Same s t) :
    Same s (if c = true then raiseEvent a b d t else t) := by
  split
  · exact raiseEvent_same _ _ _ _ h
  · exact h

theorem profileTold_same (s : State) : Same s (profileTold s) := by
  unfold profileTold
  dsimp only
  have h1 := told_same (!profileOk s.variant s.boot.profile) 108 1 [0, 0, 0xF0] (Same.refl s)
  generalize (if (!profileOk s.variant s.boot.profile) = true then raiseEvent 108 1 [0, 0, 0xF0] s else s) = t at h1
  have h2 := told_same (!profileOk s.variant s.boot.profile && !profileOk t.variant t.boot.previous) 108 1
    [0, 0, 0xF1] h1
  generalize (if (!profileOk s.variant s.boot.profile && !profileOk t.variant t.boot.previous) = true then
    raiseEvent 108 1 [0, 0, 0xF1] t else t) = u at h2
  split
  · exact raiseEvent_same _ _ _ _ h2
  · exact h2

theorem startEvents_same (s : State) : Same s (startEvents s) := by
  have h1 : Same s (warmTold s) := by
    unfold warmTold
    split
    · exact Same.refl s
    · exact raiseEvent_same _ _ _ _ (Same.refl s)
  have h2 (t : State) : Same t (revertTold t) := by
    unfold revertTold
    split
    · with_reducible apply raiseEvent_same
      exact ⟨rfl, rfl, rfl, rfl, rfl⟩
    · exact Same.refl t
  have h3 (t : State) : Same t (wakesTold t) := by
    unfold wakesTold
    have k := foldl_same (fun (s : State) i => raiseEvent 101 1 ([byte i, 0, 0, 0] ++ le 4 s.keeper.wakeTime) s)
      (bitList 4 t.keeper.wakeOff) (Same.refl t) fun s i => raiseEvent_same _ _ _ _ (Same.refl s)
    dsimp only
    generalize (bitList 4 t.keeper.wakeOff).foldl
      (fun (s : State) i => raiseEvent 101 1 ([byte i, 0, 0, 0] ++ le 4 s.keeper.wakeTime) s) t = u at k
    exact k.trans ⟨rfl, rfl, rfl, rfl, rfl⟩
  exact (h1.trans (h2 _)).trans (h3 _)

theorem bootYarrow_same (n : Bool) (s : State) : Same s (bootYarrow n s).2 := by
  have h := (bootImage_same n s).trans (turnProfile_same _)
  unfold bootYarrow
  dsimp only
  generalize turnProfile (bootImage n s) = t at h
  have k := applyEntries_same (t.entries.filter ProfEntry.yarrows) t h
  generalize applyEntries (t.entries.filter ProfEntry.yarrows) t = y at k
  exact k.trans ⟨rfl, rfl, rfl, rfl, rfl⟩

theorem bootManagement_same (s : State) : Same s (bootManagement s).2 := by
  have h := newEpoch_same s
  unfold bootManagement
  dsimp only
  generalize newEpoch s = t at h
  have k : Same s { t with chans := [(0, { st := 1, gen := 1, deliver := 1 })] } :=
    h.trans ⟨rfl, rfl, rfl, rfl, rfl⟩
  generalize ({ t with chans := [(0, { st := 1, gen := 1, deliver := 1 })] } : State) = u at k
  exact applyEntries_same _ _ (((k.trans (startEvents_same u)).trans (bootEnables_same _)).trans (profileTold_same _))

theorem bootLink_same (s : State) : Same s (bootLink s) := by
  unfold bootLink
  split
  · exact Same.refl s
  · dsimp only
    have h := coverCheck_same _ (sampleOc_same s (Same.refl s))
    generalize coverCheck (sampleOc s) = t at h
    exact h.trans ⟨rfl, rfl, rfl, rfl, rfl⟩

theorem bootNormal_grow (n : Bool) (s : State) : Grow s (bootNormal n s) := by
  unfold bootNormal
  dsimp only
  exact (((bootYarrow_same n s).trans (bootManagement_same _)).grow.trans (lockEntries_grow _ _)).trans
    (bootLink_same _).grow

theorem execBootSequence_grow (linearVout : Bool) (s t : State) (h : execBootSequence linearVout s = .next t) :
    Grow s t := by
  unfold execBootSequence at h
  split at h
  · injection h with h; subst h; exact Grow.refl s
  · dsimp only at h
    have k : Same s (if linearVout = true then s else faultPulse 94 s) := by
      split
      · exact Same.refl s
      · exact faultPulse_same _ _ (Same.refl s)
    generalize (if linearVout = true then s else faultPulse 94 s) = u at h k
    repeat' split at h
    all_goals injection h with h; subst h
    · exact k.grow
    · exact (k.trans (bootLoader_same u)).grow
    · exact (k.trans (bootLoader_same u)).grow
    · exact k.grow.trans (bootNormal_grow _ u)

end Sys2Proof.Machine
end

