-- ==== Sys2Proof/Laws/Time.lean ====
section
/-!
SUPPORT. What a committed record and the passing of time can change: records the host register space, the command
interface, the journal and the channels; time the clocks and the breakers' accumulators besides (R105, R125, R316).
-/

namespace Sys2Proof.Machine

/-! ### Records -/

/-- `t` is `s` but for what a committed record touches: a record that enters a history ring writes memory, which may
wake (R399, R461). -/
def RecordSide (s t : State) : Prop :=
  ∃ h c j ch pw ig, t = { s with hrs := h, cci := c, journal := j, chans := ch, power := pw, integ := ig }

theorem RecordSide.refl (s : State) : RecordSide s s := ⟨_, _, _, _, _, _, rfl⟩
theorem RecordSide.trans {s t u : State} (h : RecordSide s t) (k : RecordSide t u) : RecordSide s u := by
  obtain ⟨a, b, c, d, e, f, rfl⟩ := h
  obtain ⟨a', b', c', d', e', f', rfl⟩ := k
  exact ⟨a', b', c', d', e', f', rfl⟩
theorem HostSide.record {s t : State} (h : HostSide s t) : RecordSide s t := by
  obtain ⟨a, b, rfl⟩ := h
  exact ⟨a, b, _, _, _, _, rfl⟩
theorem CciSide.record {s t : State} (h : CciSide s t) : RecordSide s t := by
  obtain ⟨c, rfl⟩ := h
  exact ⟨_, c, _, _, _, _, rfl⟩

theorem foldl_recordSide {α : Type} (g : State → α → State) (h : ∀ s x, RecordSide s (g s x)) (l : List α)
    (s : State) : RecordSide s (l.foldl g s) := by
  induction l generalizing s with
  | nil => exact RecordSide.refl s
  | cons x t ih => exact (h s x).trans (ih (g s x))

theorem setChan_recordSide (s : State) (n : Nat) (c : Chan) : RecordSide s (s.setChan n c) := ⟨_, _, _, _, _, _, rfl⟩
theorem modChan_recordSide (s : State) (n : Nat) (f : Chan → Chan) : RecordSide s (s.modChan n f) :=
  ⟨_, _, _, _, _, _, rfl⟩
theorem setDom_recordSide (s : State) (n : Nat) (d : Domain) : RecordSide s (s.setDom n d) := ⟨_, _, _, _, _, _, rfl⟩

theorem fillRing_recordSide (n : Nat) (s : State) : RecordSide s (fillRing n s) := by
  induction n generalizing s with
  | zero => exact RecordSide.refl s
  | succ n ih =>
    unfold fillRing
    split
    · split
      · exact RecordSide.trans ⟨_, _, _, _, _, _, rfl⟩ (ih _)
      · exact RecordSide.refl s
    · split
      · split
        · exact RecordSide.trans ⟨_, _, _, _, _, _, rfl⟩ (ih _)
        · exact RecordSide.refl s
      · exact RecordSide.refl s

theorem refill_recordSide (s : State) : RecordSide s s.refill := by
  unfold State.refill
  exact (fillRing_recordSide _ s).trans ⟨_, _, _, _, _, _, rfl⟩

theorem recordSide_ite {p : Prop} [Decidable p] {s t u : State} (h : RecordSide s t) (k : RecordSide s u) :
    RecordSide s (if p then t else u) := by split <;> assumption

theorem writeUnit_recordSide (n sp l : Nat) (s : State) : RecordSide s (writeUnit n sp l s) := by
  unfold writeUnit
  dsimp only
  split <;> split <;> exact ⟨_, _, _, _, _, _, rfl⟩

theorem writeMem_recordSide (n sp o l : Nat) (s : State) : RecordSide s (writeMem n sp o l s) := by
  unfold writeMem
  exact recordSide_ite (RecordSide.refl s) (foldl_recordSide _ (fun _ _ => writeUnit_recordSide _ _ _ _) _ s)

theorem abandonAt_recordSide (d src : Nat) (s : State) : RecordSide s (abandonAt d src s) := by
  unfold abandonAt
  dsimp only
  split
  · exact RecordSide.refl s
  · exact (setDom_recordSide _ _ _).trans
      ((raiseEvent_hostSide _ _ _ _).record.trans (completeWhere_cciSide _ _ _ _).record)

theorem memDemand_recordSide (d : Nat) (s : State) : RecordSide s (memDemand d s) := by
  unfold memDemand
  refine (setDom_recordSide s d { s.dom d with idleAt := s.tick }).trans ?_
  dsimp only
  split
  · split
    · exact abandonAt_recordSide _ _ _
    · exact setDom_recordSide _ _ _
  · split
    · exact RecordSide.refl _
    · exact setDom_recordSide _ _ _

/-- Writing a channel's memory changes the valid bits of its lines, and may wake the memory. -/
theorem storeMem_recordSide (n sp o l : Nat) (s : State) : RecordSide s (storeMem n sp o l s) := by
  unfold storeMem
  exact recordSide_ite (RecordSide.refl s)
    ((foldl_recordSide _ (fun _ _ => memDemand_recordSide _ _) _ s).trans (writeMem_recordSide _ _ _ _ _))

theorem writeHistory_recordSide (n : Nat) (r : Rec) (s : State) : RecordSide s (writeHistory n r s) := by
  unfold writeHistory
  dsimp only
  exact recordSide_ite (RecordSide.refl s) (((storeMem_recordSide _ _ _ _ s).trans (storeMem_recordSide _ _ _ _ _)).trans
    (modChan_recordSide _ _ _))

theorem commitPlain_recordSide (n : Nat) (r : Rec) (s : State) : RecordSide s (commitPlain n r s) := by
  unfold commitPlain
  dsimp only
  have k (c : Chan) (r : Rec) : RecordSide s (writeHistory n r (s.setChan n c)) :=
    (setChan_recordSide s n c).trans (writeHistory_recordSide _ _ _)
  have q (u : State) (j : Journal) : RecordSide u ({ u with journal := j } : State).refill :=
    RecordSide.trans ⟨_, _, _, _, _, _, rfl⟩ (refill_recordSide _)
  exact recordSide_ite ((k _ _).trans (q _ _)) (k _ _)

theorem windowSkip_recordSide (n a : Nat) (s : State) : RecordSide s (windowSkip n a s) := by
  unfold windowSkip skipTarget
  simp only []
  split
  · exact (modChan_recordSide _ _ _).trans (modChan_recordSide _ _ _)
  · refine RecordSide.trans ?_ (raiseEvent_hostSide _ _ _ _).record
    exact (modChan_recordSide _ _ _).trans (modChan_recordSide _ _ _)

theorem commitRec_recordSide (n : Nat) (r : Rec) (a : Nat) (s : State) : RecordSide s (commitRec n r a s) := by
  unfold commitRec
  refine recordSide_ite (setChan_recordSide s n _) ?_
  · split
    · exact commitPlain_recordSide _ _ _
    · split
      · exact setChan_recordSide s n _
      · exact windowSkip_recordSide _ _ _
    · split
      · exact setChan_recordSide s n _
      · exact modChan_recordSide _ _ _

theorem anchorAt_recordSide (tb f c a ns : Nat) (s : State) : RecordSide s (anchorAt tb f c a ns s) := by
  unfold anchorAt
  split
  · exact commitRec_recordSide _ _ _ _
  · exact RecordSide.refl s

/-- An anchor is a record. -/
theorem anchor_recordSide (tb f : Nat) (s : State) : RecordSide s (anchor tb f s) := by
  unfold anchor
  split <;> exact anchorAt_recordSide _ _ _ _ _ _

theorem cycleAnchors_recordSide (old s : State) : RecordSide s (cycleAnchors old s) := by
  unfold cycleAnchors
  exact foldl_recordSide _ (fun s k => anchorAt_recordSide _ _ _ _ _ _) _ s

/-- The marks on the link change nothing but the timebase. -/
theorem linkOut_chicory (old s : State) : ∃ c, linkOut old s = { s with chicory := c } := by
  unfold linkOut
  split
  · exact ⟨_, rfl⟩
  · exact ⟨_, rfl⟩

/-! ### Time -/

/-- The ports after the breakers have run. -/
theorem breakers_port (s : State) (n p : Nat) :
    (((s.breakers n).port p).usb = (s.port p).usb ∧ ((s.breakers n).port p).pd = (s.port p).pd) ∧
    { ((s.breakers n).port p).pw with acc := (s.port p).pw.acc } = (s.port p).pw := by
  unfold State.breakers State.port
  simp only []
  generalize (s.tick + n) / 1000 - s.tick / 1000 = m
  induction s.ports with
  | nil => exact ⟨⟨rfl, rfl⟩, rfl⟩
  | cons e t ih =>
    obtain ⟨k, x⟩ := e
    simp only [List.map_cons]
    by_cases hp : p = k
    · subst hp
      split
      · simp only [Tbl.getD, if_true]
        refine ⟨⟨trivial, trivial⟩, ?_⟩
        unfold State.breakerRun
        simp only []
        split <;> rfl
      · simp [Tbl.getD]
    · split
      · simpa only [Tbl.getD, hp, if_false] using ih
      · simpa only [Tbl.getD, hp, if_false] using ih

/-- The fields the passing of time leaves alone. -/
@[simp] theorem elapse_fields (n : Nat) (s : State) :
    (s.elapse n).pending = s.pending ∧
    (s.elapse n).freeCtr = s.freeCtr ∧
    (s.elapse n).rdata = s.rdata ∧
    (s.elapse n).variant = s.variant ∧
    (s.elapse n).straps = s.straps ∧
    (s.elapse n).campion = s.campion ∧
    (s.elapse n).warden = s.warden ∧
    (s.elapse n).keeper = s.keeper ∧
    (s.elapse n).boot = s.boot ∧
    (s.elapse n).clover = s.clover ∧
    (s.elapse n).hub = s.hub ∧
    (s.elapse n).strike = s.strike ∧
    (s.elapse n).rescue = s.rescue ∧
    (s.elapse n).devices = s.devices ∧
    (s.elapse n).groups = s.groups ∧
    (s.elapse n).policies = s.policies ∧
    (s.elapse n).domain = s.domain ∧
    (s.elapse n).sched = s.sched ∧
    (s.elapse n).cans = s.cans ∧
    (s.elapse n).test = s.test ∧
    (s.elapse n).mgmtDown = s.mgmtDown ∧
    (s.elapse n).mgmtWhy = s.mgmtWhy ∧
    (∀ o, (s.elapse n).dev o = s.dev o) ∧
    (∀ o, (s.elapse n).group o = s.group o) ∧
    (∀ o, (s.elapse n).src o = s.src o) ∧
    (∀ o, (s.elapse n).can o = s.can o) ∧
    (∀ o, (s.elapse n).child o = s.child o) ∧
    (∀ o, (s.elapse n).feed o = s.feed o) ∧
    (∀ o, (s.elapse n).rail o = s.rail o) := by
  obtain ⟨l, el⟩ := linkOut_chicory s ((s.breakers n).clocks n)
  obtain ⟨h, c, j, ch, pw, ig, e⟩ := cycleAnchors_recordSide s (linkOut s ((s.breakers n).clocks n))
  unfold State.elapse
  rw [e, el]
  exact ⟨rfl, rfl, rfl, rfl, rfl, rfl, rfl, rfl, rfl, rfl, rfl, rfl, rfl, rfl, rfl, rfl, rfl, rfl, rfl, rfl, rfl, rfl, fun _ => rfl, fun _ => rfl, fun _ => rfl, fun _ => rfl, fun _ => rfl, fun _ => rfl, fun _ => rfl⟩

@[simp] theorem elapse_tick (n : Nat) (s : State) : (s.elapse n).tick = s.tick + n := by
  obtain ⟨l, el⟩ := linkOut_chicory s ((s.breakers n).clocks n)
  obtain ⟨h, c, j, ch, pw, ig, e⟩ := cycleAnchors_recordSide s (linkOut s ((s.breakers n).clocks n))
  unfold State.elapse
  rw [e, el]
  rfl

/-- A port keeps its USB side, its contract and its power side but for the breaker's accumulators. -/
@[simp] theorem elapse_port (n : Nat) (s : State) (p : Nat) :
    ((s.elapse n).port p).usb = (s.port p).usb ∧ ((s.elapse n).port p).pd = (s.port p).pd := by
  obtain ⟨l, el⟩ := linkOut_chicory s ((s.breakers n).clocks n)
  obtain ⟨h, c, j, ch, pw, ig, e⟩ := cycleAnchors_recordSide s (linkOut s ((s.breakers n).clocks n))
  unfold State.elapse
  rw [e, el]
  exact (breakers_port s n p).1

theorem elapse_port_pw (n : Nat) (s : State) (p : Nat) :
    { ((s.elapse n).port p).pw with acc := (s.port p).pw.acc } = (s.port p).pw := by
  obtain ⟨l, el⟩ := linkOut_chicory s ((s.breakers n).clocks n)
  obtain ⟨h, c, j, ch, pw, ig, e⟩ := cycleAnchors_recordSide s (linkOut s ((s.breakers n).clocks n))
  unfold State.elapse
  rw [e, el]
  exact (breakers_port s n p).2

/-- The same until a tick. -/
@[simp] theorem waitUntil_fields (t : Nat) (s : State) :
    (s.waitUntil t).pending = s.pending ∧
    (s.waitUntil t).freeCtr = s.freeCtr ∧
    (s.waitUntil t).rdata = s.rdata ∧
    (s.waitUntil t).variant = s.variant ∧
    (s.waitUntil t).straps = s.straps ∧
    (s.waitUntil t).campion = s.campion ∧
    (s.waitUntil t).warden = s.warden ∧
    (s.waitUntil t).keeper = s.keeper ∧
    (s.waitUntil t).boot = s.boot ∧
    (s.waitUntil t).clover = s.clover ∧
    (s.waitUntil t).hub = s.hub ∧
    (s.waitUntil t).strike = s.strike ∧
    (s.waitUntil t).rescue = s.rescue ∧
    (s.waitUntil t).devices = s.devices ∧
    (s.waitUntil t).groups = s.groups ∧
    (s.waitUntil t).policies = s.policies ∧
    (s.waitUntil t).domain = s.domain ∧
    (s.waitUntil t).sched = s.sched ∧
    (s.waitUntil t).cans = s.cans ∧
    (s.waitUntil t).test = s.test ∧
    (s.waitUntil t).mgmtDown = s.mgmtDown ∧
    (s.waitUntil t).mgmtWhy = s.mgmtWhy ∧
    (∀ o, (s.waitUntil t).dev o = s.dev o) ∧
    (∀ o, (s.waitUntil t).group o = s.group o) ∧
    (∀ o, (s.waitUntil t).src o = s.src o) ∧
    (∀ o, (s.waitUntil t).can o = s.can o) ∧
    (∀ o, (s.waitUntil t).child o = s.child o) ∧
    (∀ o, (s.waitUntil t).feed o = s.feed o) ∧
    (∀ o, (s.waitUntil t).rail o = s.rail o) := by
  unfold State.waitUntil
  split
  · exact elapse_fields _ _
  · exact ⟨rfl, rfl, rfl, rfl, rfl, rfl, rfl, rfl, rfl, rfl, rfl, rfl, rfl, rfl, rfl, rfl, rfl, rfl, rfl, rfl, rfl, rfl, fun _ => rfl, fun _ => rfl, fun _ => rfl, fun _ => rfl, fun _ => rfl, fun _ => rfl, fun _ => rfl⟩

@[simp] theorem waitUntil_tick (t : Nat) (s : State) : (s.waitUntil t).tick = max s.tick t := by
  unfold State.waitUntil
  split <;> simp <;> omega

@[simp] theorem waitUntil_port (t : Nat) (s : State) (p : Nat) :
    ((s.waitUntil t).port p).usb = (s.port p).usb ∧ ((s.waitUntil t).port p).pd = (s.port p).pd := by
  unfold State.waitUntil
  split
  · exact elapse_port _ _ _
  · exact ⟨rfl, rfl⟩

theorem waitUntil_port_pw (t : Nat) (s : State) (p : Nat) :
    { ((s.waitUntil t).port p).pw with acc := (s.port p).pw.acc } = (s.port p).pw := by
  unfold State.waitUntil
  split
  · exact elapse_port_pw _ _ _
  · rfl

end Sys2Proof.Machine
end

