-- ==== Sys2Proof/Laws/Writes.lean ====
section
/-!
SUPPORT. Writes and reads of one register word: which word operation a write by the host comes to, the bits of a
blended value, and what a read of one word answers.
-/

namespace Sys2Proof.Machine

/-! ### Bits of blended numbers -/

theorem and_div_two (x m : Nat) : (x &&& m) / 2 = x / 2 &&& m / 2 := by
  simpa [Nat.shiftRight_one] using (Nat.shiftRight_and_distrib (i := 1) (a := x) (b := m))

theorem and_mod_two (x m : Nat) : (x &&& m) % 2 = x % 2 * (m % 2) := by
  have h := Nat.and_mod_two_pow (a := x) (b := m) (n := 1)
  simp only [Nat.pow_one] at h
  rw [h]
  rcases Nat.mod_two_eq_zero_or_one x with hx | hx <;> rcases Nat.mod_two_eq_zero_or_one m with hm | hm <;> simp [hx, hm]

/-- Subtracting the bits under a mask clears them. -/
theorem testBit_sub_and (k : Nat) : ∀ x m : Nat, (x - (x &&& m)).testBit k = (x.testBit k && !m.testBit k) := by
  induction k with
  | zero =>
    intro x m
    have h1 := and_mod_two x m
    have h2 : x &&& m ≤ x := Nat.and_le_left
    simp only [Nat.testBit_zero]
    generalize x &&& m = y at *
    rcases Nat.mod_two_eq_zero_or_one x with hx | hx <;> rcases Nat.mod_two_eq_zero_or_one m with hm | hm <;>
      (rw [hx, hm] at h1; simp [hx, hm]; omega)
  | succ k ih =>
    intro x m
    have h1 := and_mod_two x m
    have h2 : x &&& m ≤ x := Nat.and_le_left
    have h3 := and_div_two x m
    simp only [Nat.testBit_succ]
    rw [← ih, ← h3]
    generalize x &&& m = y at *
    congr 1
    rcases Nat.mod_two_eq_zero_or_one x with hx | hx <;> rcases Nat.mod_two_eq_zero_or_one m with hm | hm <;>
      (rw [hx, hm] at h1; omega)

theorem bit_eq_testBit (n i : Nat) : bit n i = n.testBit i := by
  simp [bit, bits, Nat.testBit_eq_decide_div_mod_eq]

theorem testBit_bits (n hi lo k : Nat) : (bits n hi lo).testBit k = (decide (k < hi + 1 - lo) && n.testBit (lo + k)) := by
  unfold bits
  rw [Nat.testBit_mod_two_pow, Nat.testBit_div_two_pow, Nat.add_comm k lo]

/-- A blended number takes the new bits under the mask. -/
theorem testBit_blend (old new m k : Nat) : (blend old new m).testBit k = if m.testBit k then new.testBit k else old.testBit k := by
  unfold blend
  rw [Nat.testBit_or, testBit_sub_and, Nat.testBit_and]
  cases m.testBit k <;> simp

/-- A field the mask covers takes the new value. -/
theorem bits_blend (old new m hi lo : Nat) (h : ∀ k, lo ≤ k → k ≤ hi → m.testBit k = true) :
    bits (blend old new m) hi lo = bits new hi lo := by
  apply Nat.eq_of_testBit_eq
  intro k
  rw [testBit_bits, testBit_bits]
  by_cases hk : k < hi + 1 - lo
  · rw [testBit_blend, h _ (by omega) (by omega)]; simp
  · simp [hk]

/-- A cleared bit reads 0. -/
theorem bit_clear (x m n : Nat) (h : bit m n = true) : bit (x - (x &&& m)) n = false := by
  rw [bit_eq_testBit] at *; rw [testBit_sub_and, h]; simp

/-! ### One word -/

/-- Four bytes give their number back. -/
theorem u32_le4 (v : Nat) : u32 (le 4 v) 0 = v % 4294967296 := by
  simp [u32, u16, u8, le, byte]; omega

/-- One word of data is that word. -/
theorem wordsOf_le4 (v : Nat) : wordsOf ((le 4 v).length / 4) (le 4 v) = [v % 4294967296] := by
  have e : (le 4 v).length / 4 = 1 := by simp [le]
  rw [← u32_le4, e]; simp [wordsOf]

/-- A write of one register word is one word operation. -/
theorem hostWrite_one (off val : Nat) (s : State) (h : s.hostWrites = true) (ha : off % 4 = 0) (ho : off < 0x8000)
    (h1 : ¬ (0x1C0 ≤ off ∧ off < 0x200)) :
    hostWrite off val s = wrote (writeWord ((s.hrs.posted.map (·.dom)).eraseDups) off (val % 4294967296) s) := by
  unfold hostWrite aligned
  have e : (off % 4 == 0) = true := by simp [ha]
  rw [h, e, Bool.and_self, if_pos rfl]
  unfold writeFrame
  simp only [wordsOf_le4]
  have e2 : ¬ 0x8000 ≤ off := by omega
  have e3 : (decide (0x1C0 ≤ off) && decide (off < 0x200)) = false := by simp; omega
  have e4 : ∀ n, (off == 0x1C0 && n == 16) = false := by intro n; simp; omega
  have e5 : (decide (off < 0x200) && decide (0x1C0 < off + 4 * ((le 4 val).length / 4))) = false := by
    simp [le]; omega
  simp only [writeWords, if_neg e2, e3, e4, e5, Bool.false_eq_true, if_false]
  cases hw : writeWord ((s.hrs.posted.map (·.dom)).eraseDups) off (val % 4294967296) s <;> rfl

/-- A write in the bit region writes one bit. -/
theorem hostWrite_bit (off val : Nat) (s : State) (h : s.hostWrites = true) (ha : off % 4 = 0) (ho : 0x8000 ≤ off) :
    hostWrite off val s = .next (writeBit off (val % 4294967296) s) := by
  unfold hostWrite aligned
  have e : (off % 4 == 0) = true := by simp [ha]
  rw [h, e, Bool.and_self, if_pos rfl]
  unfold writeFrame
  simp only [wordsOf_le4]
  have e4 : ∀ n, (off == 0x1C0 && n == 16) = false := by intro n; simp; omega
  have e5 : (decide (off < 0x200) && decide (0x1C0 < off + 4 * ((le 4 val).length / 4))) = false := by simp; omega
  simp only [writeWords, if_pos ho, e4, e5, Bool.false_eq_true, if_false]
  rfl

/-- A single word at `CCI_DATAIN` is no data unit (R81). -/
theorem hostWrite_data (off val : Nat) (s : State) (h : s.hostWrites = true) (ha : off % 4 = 0)
    (h1 : 0x1C0 ≤ off) (h2 : off < 0x200) :
    hostWrite off val s = .next (s.setFlag 0x110 14) := by
  unfold hostWrite aligned
  have e : (off % 4 == 0) = true := by simp [ha]
  rw [h, e, Bool.and_self, if_pos rfl]
  unfold writeFrame
  simp only [wordsOf_le4]
  have e2 : ¬ 0x8000 ≤ off := by omega
  have e3 : (decide (0x1C0 ≤ off) && decide (off < 0x200)) = true := by simp; omega
  have hl : (le 4 val).length / 4 = 1 := by simp [le]
  have e5 : (decide (off < 0x200) && decide (0x1C0 < off + 4 * ((le 4 val).length / 4))) = true := by simp [hl]; omega
  simp only [writeWords, if_neg e2, e3, e5, if_true, hl, show ((1:Nat) == 16) = false from rfl, Bool.and_false, Bool.false_eq_true, if_false]
  rw [hl] at e5
  rw [e5]; rfl

theorem val_mod (v : Word) : v.toNat % 4294967296 = v.toNat := Nat.mod_eq_of_lt v.isLt

/-- A read of one register word below the bit region. -/
theorem readFrame_one (off : Nat) (s : State) (ho : off < 0x8000) :
    readFrame off 1 s = { (readReg off s).2 with rdata := le 4 (readReg off s).1 } := by
  have h1 : (decide (off ≤ 0x280) && decide (0x290 ≤ off + 4 * 1)) = false := by
    rw [Bool.and_eq_false_iff, decide_eq_false_iff_not, decide_eq_false_iff_not]; omega
  have h2 : (decide (off ≤ 0x2C0) && decide (0x300 ≤ off + 4 * 1)) = false := by
    rw [Bool.and_eq_false_iff, decide_eq_false_iff_not, decide_eq_false_iff_not]; omega
  unfold readFrame
  simp only [h1, h2, Bool.false_eq_true, if_false, readRun, List.append_nil]
  rw [if_neg (Nat.not_le.2 ho)]

/-- A read of one word in the bit region. -/
theorem readFrame_bit (off : Nat) (s : State) (ho : 0x8000 ≤ off) :
    readFrame off 1 s = { (readBit off s).2 with rdata := le 4 (readBit off s).1 } := by
  have h1 : (decide (off ≤ 0x280) && decide (0x290 ≤ off + 4 * 1)) = false := by
    rw [Bool.and_eq_false_iff, decide_eq_false_iff_not, decide_eq_false_iff_not]; omega
  have h2 : (decide (off ≤ 0x2C0) && decide (0x300 ≤ off + 4 * 1)) = false := by
    rw [Bool.and_eq_false_iff, decide_eq_false_iff_not, decide_eq_false_iff_not]; omega
  unfold readFrame
  simp only [h1, h2, Bool.false_eq_true, if_false, readRun, List.append_nil]
  rw [if_pos ho]

theorem clearBits_latched (o m : Nat) (s : State) : (clearBits o m s).hrs.latched = s.hrs.latched := by unfold clearBits; split <;> rfl

/-- A number below 2^k has no bit in a mask above it. -/
theorem and_hi (v k : Nat) (h : v < 2 ^ k) (m : Nat) (hm : m % 2 ^ k = 0) : v &&& m = 0 := by
  apply Nat.eq_of_testBit_eq
  intro i
  rw [Nat.testBit_and, Nat.zero_testBit]
  by_cases hi : i < k
  · have : (m % 2 ^ k).testBit i = m.testBit i := by rw [Nat.testBit_mod_two_pow]; simp [hi]
    rw [hm, Nat.zero_testBit] at this
    rw [← this]; simp
  · rw [Nat.testBit_lt_two_pow (lt_of_lt_of_le h (Nat.pow_le_pow_right (by omega) (by omega)))]; simp

end Sys2Proof.Machine
end

