-- ==== Sys2Proof/Tests/Slice0.lean ====
section
/-!
SUPPORT. Tests: ill-formed commands refused by the well-formedness check, single steps whose results the spec states,
and for every statement with hypotheses a state and operands that meet them.
-/

set_option Elab.async false

namespace Sys2Proof.Tests

open Sys2Proof Sys2Proof.Machine

/-! ### Small states -/

/-- The hub of reset, started. -/
def on : State := { State.reset with boot.up := true }

/-- The number an address of a scope has on the chip itself. -/
def tgt (scope index : Nat) : Nat := scope * 2 ^ 22 + index

/-- Mailbox `mb` holding an accepted command with `n` parameter bytes that begin with `l`. -/
def post (op n : Nat) (l : List Byte) (target : Nat := 0) (s : State := on) (mb : Nat := 0) : State :=
  let w := le 2 op ++ le 2 0 ++ le 4 1 ++ le 4 target ++ le 2 n ++ le 2 0 ++ l.take n
  let win := ((List.range w.length).zip w).filter fun e => e.2 != 0
  s.setMb mb { state := .posted, op := op, cseq := 1, win := win }

/-- The command of a mailbox posted at expert level, or with data units. -/
def expert (s : State) (mb : Nat := 0) : State := s.setMb mb { s.mb mb with expert := true }
def withData (l : List Byte) (s : State) (mb : Nat := 0) : State :=
  s.setMb mb { s.mb mb with data := true, lastSeen := true, buf := l }

/-- Whether a mailbox holds a command ready. -/
def readyB (mb op : Nat) (s : State) : Bool :=
  (s.mb mb).runnable && (s.mb mb).op == op && s.mayStart mb && s.boot.rescue.isNone && !s.journal.sealed &&
    (opInfo op).any fun e => !shapeBad s e ((s.mb mb).req mb)

theorem ready_of {mb op : Nat} {s : State} (h : readyB mb op s = true) : Ready mb op ((s.mb mb).req mb) s := by
  unfold readyB at h
  simp only [Bool.and_eq_true, Bool.not_eq_true', beq_iff_eq, Option.isNone_iff_eq_none,
        Option.any_eq_true_iff_get] at h
  obtain ⟨⟨⟨⟨⟨h1, h2⟩, h3⟩, h4⟩, h5⟩, h6, h7⟩ := h
  exact ⟨h1, h2, h3, h4, h5, rfl, _, (Option.some_get h6).symm, h7⟩

/-! ### Commands that name no event: one for each check -/

theorem test_wf_dataUnit : (Instr.dataUnit (List.replicate 65 0)).wf = false := by decide
theorem test_wf_registerWrite : (Instr.registerWrite 0x0302 0).wf = false := by decide
theorem test_wf_bitAliasWrite : (Instr.bitAliasWrite 0x8001 1).wf = false := by decide
theorem test_wf_lockBitSet : (Instr.lockBitSet 0x0301 1).wf = false := by decide
theorem test_wf_tmuxSelWrite : (Instr.tmuxSelWrite 0x0E12 0).wf = false := by decide
theorem test_wf_rcFieldRead : (Instr.rcFieldRead 0x0003).wf = false := by decide
theorem test_wf_loRegisterRead : (Instr.loRegisterRead 0x0003).wf = false := by decide
theorem test_wf_bitAliasRead : (Instr.bitAliasRead 0x8002).wf = false := by decide
theorem test_wf_regWrite : (Instr.regWrite 0x0300 4 [0, 0, 0, 0, 0]).wf = false := by decide
theorem test_wf_spiReadFrame : (Instr.spiReadFrame [3, 0, 0] 0 0).wf = false := by decide
theorem test_wf_frame_id : ({ id := 2048 } : CanFrame).wf = false := by decide
theorem test_wf_frame_ext_id : ({ id := 2 ^ 29, ext := true } : CanFrame).wf = false := by decide
theorem test_wf_frame_length : ({ data := List.replicate 9 0 } : CanFrame).wf = false := by decide
theorem test_wf_frame_fd_length : ({ fd := true, data := List.replicate 9 0 } : CanFrame).wf = false := by decide
theorem test_wf_frame_dlc : ({ dlc := 16 } : CanFrame).wf = false := by decide
theorem test_wf_frame_fd_remote : ({ fd := true, rtr := true } : CanFrame).wf = false := by decide
theorem test_wf_frame_brs : ({ brs := true } : CanFrame).wf = false := by decide
theorem test_wf_frame_remote_data : ({ rtr := true, data := [1] } : CanFrame).wf = false := by decide
theorem test_wf_received : (Instr.canFrameReceived 0 { id := 2048 } 0).wf = false := by decide
theorem test_wf_match : (Instr.waitRxMatch { id := 2048 }).wf = false := by decide
theorem test_wf_device_tier0 : ({ tier := 0, speed := 1 } : DevDesc).wf = false := by decide
theorem test_wf_device_tier5 : ({ tier := 5, speed := 1 } : DevDesc).wf = false := by decide
theorem test_wf_device_vid : ({ vid := 65536, speed := 1 } : DevDesc).wf = false := by decide
theorem test_wf_device_pid : ({ pid := 65536, speed := 1 } : DevDesc).wf = false := by decide
theorem test_wf_device_bcd : ({ bcd := 65536, speed := 1 } : DevDesc).wf = false := by decide
theorem test_wf_device_speed0 : ({ speed := 0 } : DevDesc).wf = false := by decide
theorem test_wf_device_speed4 : ({ speed := 4 } : DevDesc).wf = false := by decide
theorem test_wf_enumeration : (Instr.enumeration 0 { speed := 0 }).wf = false := by decide
theorem test_wf_link : (Instr.linkFrame (List.replicate 129 { after := 0, width := 0 })).wf = false := by decide +kernel
theorem test_wf_moisture1 : (Instr.moistureReading 0 4294967296 0).wf = false := by decide
theorem test_wf_moisture2 : (Instr.moistureReading 0 0 4294967296).wf = false := by decide
theorem test_wf_interval1 : (Instr.moistureInterval 0 4294967296 0).wf = false := by decide
theorem test_wf_interval2 : (Instr.moistureInterval 0 0 4294967296).wf = false := by decide
theorem test_wf_capabilities : (Instr.partnerSourceCapabilities 0 (List.replicate 8 0)).wf = false := by decide
theorem test_wf_levels : (Instr.referenceEvent 0 { after := 0, hold := 0, levels := 64 }).wf = false := by decide
theorem test_wf_others : Instr.chipReset.wf = true := by decide

/-! ### Values the spec works out -/

/-- The state a command leaves; the state itself where it stops. -/
def after (c : Instr) (s : State) : State :=
  match exec c s with
  | .next t => t
  | _ => s

/-- Whether a command answers a next state. -/
def goes (c : Instr) (s : State) : Bool :=
  match exec c s with
  | .next _ => true
  | _ => false

/-- The answer in a mailbox, where there is one. -/
def answerOf (mb : Nat) (s : State) : Option Resp :=
  match (s.mb mb).phase with
  | .answered r => some r
  | _ => none

/-- R58. The check values of the CRC-8 and of the CRC-32 over the digits 1 to 9, from their published definitions. -/
theorem test_crc8 : crc8 [0x31, 0x32, 0x33, 0x34, 0x35, 0x36, 0x37, 0x38, 0x39] = 0xF4 := by decide +kernel
theorem test_crc32 : crc32 [0x31, 0x32, 0x33, 0x34, 0x35, 0x36, 0x37, 0x38, 0x39] = 0xCBF43926 := by decide +kernel

/-- R44. The aliases of the safety set's worked example (02_host_register_space.md). -/
theorem test_aliases : mirrorBit 0xE280 = (0x314, 0) ∧ mirrorBit 0xE284 = (0x314, 1) ∧ mirrorBit 0xE2A0 = (0x314, 8) ∧
    mirrorBit 0xE000 = (0x300, 0) := by decide

/-- The same example: setting ENABLE by its alias leaves CFG_WHILE_EN as it is, and EN_STAT follows. -/
theorem test_bitAliasWrite : (readReg 0x314 (after (.bitAliasWrite 0xE280 1) (on.setReg 0x314 0x100))).1 = 0x103 := by
  decide

/-- The same example: the flag is cleared alone, through its alias. -/
theorem test_bitAliasWrite_w1c : (after (.bitAliasWrite 0xE2A0 1) (on.setReg 0x314 0x103)).reg 0x314 = 0x003 := by decide

/-- The same example: once LK_SAFETY is written the set is valid (R53), and P32 is a safety port. -/
theorem test_lockBitSet :
    (after (.lockBitSet 0xE000 1) (((on.setReg 0x30C 4).setReg 0x310 0x1F).setReg 0x314 3)).safetyPort 32 = true := by
  decide

/-- R41. What a lock covers stays as it is. -/
theorem test_registerWrite_locked :
    (after (.registerWrite 0x30C 2) { on.setReg 0x30C 4 with hrs.lock0 := 1 }).fld 0x30C 2 0 = 4 := by decide

/-- R43, R33. A 1 into 0x0F00 to 0x0FFF stops the model. -/
theorem test_registerWrite_reserved : exec (.registerWrite 0xF00 1) on = .fault .reservedLiveWrite := rfl

/-- The 700-byte block of 03_caside_command_interface.md: unit 11 of MB3 has tag 0x000B_028B and ends it. -/
def lastUnit : State :=
  after (.dataUnit ([0x8B, 0x02, 0x0B, 0x00] ++ List.replicate 60 7))
    ((on.setReg 0x110 1).setMb 3 { state := .posted, data := true, nextUnit := 11, buf := List.replicate 660 0 })
theorem test_dataUnit : (lastUnit.mb 3).buf.length = 700 ∧ (lastUnit.mb 3).lastSeen = true := by
  decide +kernel

/-- The example of 09_command_catalogue.md: `port.mode` of P17 to TRANSPARENT, as the 20 bytes at 0x0400. -/
def portMode17 (s : State) : State :=
  let w : List Byte := [1, 2, 0, 0, 0x10, 0x0B, 0, 0, 0x11, 0, 0x80, 0, 4, 0, 0, 0, 1, 0, 0, 0]
  s.setMb 0 { state := .posted, op := 0x0201, cseq := 0xB10, win := ((List.range 20).zip w).filter fun e => e.2 != 0 }
theorem test_portMode : answerOf 0 (after (.portMode 0) (portMode17 on)) = some { committed := true } ∧
    ((after (.portMode 0) (portMode17 on)).port 17).usb.transparent = true := by decide

/-- The same example: a safety port is refused, and P17 of an SVH16 is out of its range (R5). -/
theorem test_portMode_safety :
    answerOf 0 (after (.portMode 0) (post 0x0201 4 [1] (tgt 2 33)
      { ((on.setReg 0x30C 4).setReg 0x310 0x1F).setReg 0x314 3 with hrs.lock0 := 1 })) =
      some { status := .notPermitted } := by decide
theorem test_portMode_svh16 :
    answerOf 0 (after (.portMode 0) (portMode17 { on with variant := .svh16 })) = some { status := .badParam } := by
  decide

/-- R177, R224 and the table of 07_angle_scheduled_service.md: transaction and block times of P09, P11 and P03. -/
theorem test_times :
    ({ kind := 1, payload := 64, bus := 3, speed := 3, mps := 64 } : Chan).txTime = 2448 ∧
    ({ kind := 1, payload := 16, bus := 2, speed := 2, mps := 64 } : Chan).txTime = 22548 ∧
    ({ kind := 1, payload := 8, bus := 1, speed := 1, mps := 8 } : Chan).txTime = 130484 ∧
    blockTime 2 [{ kind := 1, payload := 16, bus := 2, speed := 2, mps := 64 }] = 59892 := by decide

/-- The pump 1 clock of 04_angle_timebase.md: four events for each of 1,024 lines. -/
theorem test_events : (on.setReg 0x1044 0x04000002).eventsPerCycle 1 = 4096 := by decide

/-- The gas detector of 11_cable_power_negotiation.md: the ceilings at 5 V and 15 V, in 10 mA. -/
def gasDetector : State :=
  { (((((on.setReg 0x3C0C 1).setReg 0x3C10 (600 + 450 * 65536)).setReg 0x3C14 (1200 + 500 * 65536)).modPw 35
        fun u => { u with grant := 25 }).modPw 1 fun u => { u with grant := 285, grantRail := 2 }).modPw 9
        fun u => { u with grant := 525 } with
    clover.feeds := [(0, { present := true }), (1, { present := true })]
    clover.rails := [(0, { inBand := true }), (1, { inBand := true })] }
theorem test_ceilings : gasDetector.ceiling 35 0 = 150 ∧ gasDetector.ceiling 35 1 = 126 := by decide

/-- The same example: the two objects offered. -/
theorem test_offer : ((offer 35 gasDetector).port 35).pd.sentObjs = [0x04019096, 0x0004B07E] := by decide

/-- The flooded gland of 10_port_power_and_fusing.md: at 4,200 mA the reset curve trips after 2.000 s, in 10 µs. -/
theorem test_curve : on.samplesToTrip 3 4200 = some 200000 := by decide +kernel

/-- The same example: the second trip of the ladder cools down for 20 s, the fifth latches. -/
theorem test_ladder :
    ((trip 3 3 1000 (on.modPw 3 fun u => { u with ladder := 1, pgood := true })).port 3).pw.coolUntil =
      some (ticksS 20) ∧
    ((trip 3 3 1000 (on.modPw 3 fun u => { u with ladder := 4, pgood := true })).port 3).pw.latch ≠ 0 := by decide +kernel

/-- The reset timing of R393: 80 quanta of a prescaler of 2 nominal, 40 of 1 in the data phase. -/
theorem test_can_timing : (on.canTiming 0).nBit = 160 ∧ (on.canTiming 0).dBit = 40 := by decide

/-- A `can.config` of a locked CANA, as 12_field_bus.md has it. -/
theorem test_can_locked :
    (answerOf 0 (after (.canConfig 0) (post 0x0801 14 [0, 0, 2, 0, 63, 0, 16, 16, 1, 29, 10, 10] (tgt 4 0)
      { on with hrs.lock0 := 32 }))).map (·.status) = some .locked := by decide

/-- The history area of 13_memory_integrity.md: 2 GiB raw, and what `integ.restrength` answers. -/
def twoGiB : State := { on with boot.ddrMiB := 2048 }
theorem test_frames : twoGiB.extFrames = 459649 ∧ twoGiB.regionPages 0x12 = 1796 ∧ twoGiB.regionPages 0x13 = 4597 ∧
    twoGiB.regionPages 0x10 = 4096 ∧ twoGiB.regionPages 0x11 = 449160 := by decide
theorem test_restrength :
    answerOf 0 (after (.integRestrength 0) (post 0x0903 4 [0x11, 16, 0, 0] 0 twoGiB)) =
      some { committed := true, results := le 4 449160 ++ le 4 514 } := by decide

/-- The vibration channel of 06_concentrator_channels.md: the first handle is 0x0000_4001. -/
theorem test_handle : (on.setChan 1 { st := 1, gen := 1 }).slotOf 0x00004001 = some 1 := by decide

/-- The widths of 04_angle_timebase.md: a slot's pulse within 40 ns, and none between two slots (R135). -/
theorem test_markSlot : markSlot 540 = some 1 ∧ markSlot 541 = none ∧ markSlot 360 = some 0 := by decide

/-! ### Single steps, one or two of each family -/

/-- R89. The sixteen bytes of an event. -/
theorem test_event_bytes :
    ({ source := 47, code := 4, eseq := 0x1234, time32 := 0x89ABCDEF, detail := [1, 2, 3, 4, 5, 6, 7, 8] } :
      Event).bytes = [47, 4, 0x34, 0x12, 0xEF, 0xCD, 0xAB, 0x89, 1, 2, 3, 4, 5, 6, 7, 8] := by decide

/-- R94. A whole read of `CCI_EVREAD` takes the oldest event, a shorter one takes none. -/
theorem test_eventRead : (after (.eventRead 4) { on with cci.evq := [{ source := 1 }, { source := 2 }] }).cci.evq =
    [{ source := 2 }] := by decide
theorem test_eventRead_short :
    (after (.eventRead 3) { on with cci.evq := [{ source := 1 }, { source := 2 }] }).cci.evq.length = 2 := by decide

/-- R64. A doorbell posts an IDLE mailbox; R65: a write of 1 to `CCI_DONE` frees a DONE one. -/
theorem test_doorbellRing : ((after (.doorbellRing 0x80) on).mb 7).state = .posted := by decide
theorem test_cciDoneWrite : ((after (.cciDoneWrite 0x40) (on.setMb 6 { state := .done })).mb 6).state = .idle := by
  decide

/-- R287. `sys.hello` opens the session; R449: nothing comes of a doorbell in the safe state. -/
theorem test_sysHello : (after (.sysHello 0) (post 0x0001 0 [])).cci.session = true := by decide
theorem test_doorbell_safe : after (.doorbellRing 1) { on with warden.safe := true } = { on with warden.safe := true } := rfl

/-- R115. `ang.enable` starts a clock; R288: an unknown choice is refused. -/
theorem test_angEnable : (after (.angEnable 0) (post 0x0102 1 [1] (tgt 5 3))).flag 0x10C0 0 = true := by decide +kernel
theorem test_angEnable_bad :
    answerOf 0 (after (.angEnable 0) (post 0x0102 1 [2] (tgt 5 3))) = some { status := .badParam } := by decide

/-- R147. A CC detach sends a port to OFF from every state. -/
theorem test_ccDetach : ((after (.ccDetach 3) (on.modUsb 3 fun u => { u with ccAtt := true, st := 6 })).port 3).usb.st = 0 := by
  decide +kernel

/-- R293. `pwr.off` holds a port's power off, and `pwr.on` releases the hold. -/
theorem test_pwrOff : ((after (.pwrOff 0) (post 0x0602 0 [] (tgt 2 0))).port 0).pw.held = true := by decide
theorem test_pwrOn : ((after (.pwrOn 0) (post 0x0601 0 [] (tgt 2 0) (on.modPw 0 fun u => { u with held := true }))).port
    0).pw.held = false := by decide

/-- R294. `pd.swap` names a service port; P01 is none. -/
theorem test_pdSwap_port : answerOf 0 (after (.pdSwap 0) (post 0x0704 0 [] (tgt 2 1))) =
    some { status := .notPermitted } := by decide

/-- R199. A pause of an ACTIVE channel with nothing on the wire; R189: a handle of another generation is stale. -/
theorem test_chanPause : ((after (.chanPause 0) (post 0x0403 0 [] 0x4000 (on.setChan 1 { st := 1 }))).chan 1).st = 2 := by
  decide
theorem test_chanPause_stale : answerOf 0 (after (.chanPause 0) (post 0x0403 0 [] 0x4001 (on.setChan 1 { st := 1 }))) =
    some { status := .staleHandle } := by decide

/-- R236. A chip numbers its transactions from 1. -/
theorem test_schedBegin : answerOf 0 (after (.schedBegin 0) (post 0x0501 4 [])) =
    some { committed := true, results := [1, 0, 0, 0] } := by decide

/-- R295. `can.enable` starts a controller; a received frame that no filter takes is not kept. -/
theorem test_canEnable : ((after (.canEnable 0) (post 0x0802 1 [1] (tgt 4 1))).can 1).running = true := by decide
theorem test_canFrameReceived :
    ((after (.canFrameReceived 0 { id := 5 } 0) (on.setCan 0 { running := true, st := 1 })).can 0).rxq0 = [] := by decide

/-- R297. A source at rest stays CLEAR when it is cleared. -/
theorem test_faultClear : ((after (.faultClear 0) (post 0x0A03 1 [5])).src 5).st = 0 := by decide

/-- R437. `warden.enter` enters warden mode with a valid safety set, and the safe state without one. -/
theorem test_wardenEnter : (after (.wardenEnter 0) (post 0x0A12 0 [] 0
    { ((on.setReg 0x30C 4).setReg 0x310 0x1F).setReg 0x314 3 with hrs.lock0 := 1 })).warden.mode = true := by decide +kernel
theorem test_wardenEnter_unset : (after (.wardenEnter 0) (post 0x0A12 0 [])).warden.safe = true := by decide +kernel

/-- R399. Bytes of a page that allocation cleared are not in memory until they are written. -/
theorem test_lineValid : ({ on with integ.cleared := [(0, 8)] } : State).lineValid 0 3 64 = false ∧
    (writeLine 0 3 1 { on with integ.cleared := [(0, 8)] }).lineValid 0 3 64 = true := by decide

/-- R298. `dom.pstate` asks a domain to leave ON: its entry begins. -/
theorem test_domPstate : ((after (.domPstate 0) (post 0x0B10 1 [1] (tgt 6 0x1E))).dom 0x1E).entry.isSome = true := by decide

/-- R496. An erase begins in the slot that does not run, and not in the other. -/
theorem test_fwBegin : (after (.fwBegin 0) (post 0x0C02 8 [1, 0, 0, 0, 0, 1, 0,
        0])).boot.slotB.st = 1 := by decide +kernel
theorem test_fwBegin_running : (answerOf 0 (after (.fwBegin 0) (post 0x0C02 8 [0, 0, 0, 0, 0, 1, 0,
        0]))).map (·.status) =
    some .wrongState := by decide

/-- R512. From Test-Logic-Reset a TMS of 0 leads to Run-Test/Idle, and a TMS of 1 stays. -/
theorem test_tapClock : (after (.tapClock false false false) on).test.tap.st = 1 ∧
    (after (.tapClock true false false) on).test.tap.st = 0 := by decide

/-- R483. A chip reset stops the hub and clears its locks; the boot starts it. -/
theorem test_chipReset : (after .chipReset { on with hrs.lock0 := 0x3FF, boot.resetReq := some (2, 0) }).hrs.lock0 = 0 := by
  decide +kernel
theorem test_bootSequence : goes (.bootSequence false) State.reset = true := rfl

/-- The model's own row (log 2): an empty queue passes one tick. -/
theorem test_step_empty : step on = .next (on.elapse 1) := rfl

/-- A step takes the front of the queue and leaves the rest. -/
theorem test_step_front :
    step { on with pending := [.doorbellRing 1, .chipReset] } =
      exec (.doorbellRing 1) { on with pending := [.chipReset] } := rfl

/-- The table gives no bits (log 1): no word spells a command. -/
theorem test_decodeTableWord : decodeTableWord 8 0x5A = none := rfl

/-! ### For every statement with hypotheses: a state and operands that meet them, clause by clause -/

/-- A state that holds `chan.open` of an interrupt endpoint once every 10 ms, and the channel it asks for. -/
def openState : State :=
  post 0x0401 64 [1, 129, 1, 0, 8, 0, 0, 0, 0, 0, 0, 0, 0, 0, 0, 0, 4, 1, 0, 0, 1, 0, 0, 0, 0, 0, 0, 0, 0, 0, 0, 0, 0,
        0, 0, 0, 16, 39] (tgt 3 255) ((on.setDev 255 { used := true, port := 47, desc := { speed := 2, cfgDesc := [7, 5, 0x81, 3, 8, 0, 1] } }).modUsb 47 fun u => { u with st := 8, speed := 2, enumerated := true })

def openChan : Chan :=
  match openParse openState ((openState.mb 0).req 0).target ((openState.mb 0).req 0).params with
  | .ok c => c
  | .error _ => {}

theorem meets_StepRunsFrontCommand :
    ∃ (c : Instr) (l : List Instr) (s : State), s.pending = c :: l :=
  ⟨.chipReset, [], ({ on with pending := [.chipReset] } : State), by decide⟩

theorem meets_EmptyQueuePassesOneTick :
    ∃ (s : State), s.pending = [] :=
  ⟨on, by decide⟩

theorem meets_QueueAndPartStay :
    (∃ (c : Instr) (s : State) (t : State), exec c s = .next t) ∧
    (∃ (s : State) (t : State), step s = .next t) :=
  ⟨⟨.bootSequence false, ({ on with pending := [.chipReset] } : State), _, rfl⟩,
   ⟨({ on with pending := [.bootSequence false] } : State), _, rfl⟩⟩

theorem meets_LockBitsStay :
    ∃ (s : State) (t : State),
      (∀ c ∈ s.pending.head?, (match c with | .powerOnReset _ _ _ | .pinReset _ | .chipReset | .supplyLoss | .bootFailure | .activationDue | .rescueStart | .rescuePortDetach | .frsFeedReturn _ => False | _ => True)) ∧
      step s = .next t :=
  ⟨({ on with pending := [.bootSequence false], hrs.lock0 := 1 } : State), _, fun c h => by cases h; trivial, rfl⟩

theorem meets_CatalogueRowsWaitOrRefuse :
    (∃ (mb : Nat) (op : Nat) (s : State),
      ((s.mb mb).runnable = false ∨ (s.mb mb).op ≠ op ∨ s.mayStart mb = false)) ∧
    (∃ (mb : Nat) (op : Nat) (i : OpInfo) (s : State),
      (s.mb mb).runnable = true ∧ (s.mb mb).op = op ∧ s.mayStart mb = true ∧ opInfo op = some i ∧
      shapeBad s i ((s.mb mb).req mb) = true) ∧
    (∃ (mb : Nat) (op : Nat) (core : Req → State → CmdRes) (i : OpInfo) (res : List Byte) (u : State) (s : State),
      (s.mb mb).runnable = true ∧ (s.mb mb).op = op ∧ s.mayStart mb = true ∧ opInfo op = some i ∧
      shapeBad s i ((s.mb mb).req mb) = false ∧ s.boot.rescue = none ∧ core ((s.mb mb).req mb) s = .commit res u ∧
      s.journal.sealed = true) ∧
    (∃ (i : OpInfo) (chip : Nat) (p : Nat) (s : State),
      s.variant = .svh16 ∧ chip < 64 ∧ 16 ≤ p ∧ p < 256 ∧ i.scopes = [2]) :=
  ⟨⟨0, 0x0202, on, by decide⟩,
   ⟨0, 0x0202, _, post 0x0202 1 [1] (tgt 2 0), by decide, by decide, by decide, rfl, by decide⟩,
   ⟨0, 0x0202, fun _ _ => .commit [] on, _, [], on,
     ({ (post 0x0202 0 [] (tgt 2 0)) with journal.sealed := true } : State), by decide, by decide, by decide, rfl,
     by decide, by decide, rfl, by decide⟩,
   ⟨{ op := 0, scopes := [2], pmin := 0, pmax := 0 }, 63, 16, ({ on with variant := .svh16 } : State), by decide,
     by decide, by decide, by decide, by decide⟩⟩

theorem meets_AnswersAndCommits :
    ∃ (mb : Nat) (res : List Byte) (u : State) (s : State) (t : State),
      s.journal.sealed = false ∧ t = finish mb (.commit res u) s :=
  ⟨0, [], on, on, _, by decide, rfl⟩

theorem meets_EventRecordsAndSequence :
    (∃ (s : State), s.cci.evq.length ≤ 256) ∧
    (∃ (ev : Nat) (s : State), s.flag 0x220 0 = true ∧ ev < 128 ∧ s.cci.evq.length < 256) ∧
    (∃ (e : Event), e.source < 128 ∧ e.code < 256 ∧ e.eseq < 65536 ∧ e.time32 < 4294967296 ∧ e.detail.length = 8) ∧
    (∃ (ev : Nat), ev < 128) ∧
    (∃ (ev : Nat) (s : State), ev < 128 ∧ s.flag 0x220 0 = true ∧ 256 ≤ s.cci.evq.length) ∧
    (∃ (ev : Nat) (s : State), ev < 128 ∧ s.flag 0x220 0 = false) :=
  ⟨⟨on, by decide⟩,
   ⟨127, (on.setReg 0x220 1), by decide, by decide, by decide⟩,
   ⟨{ source := 127, code := 255, eseq := 65535, time32 := 4294967295, detail := [0, 1, 2, 3, 4, 5, 6, 7] },
     by decide, by decide, by decide, by decide, by decide⟩,
   ⟨127, by decide⟩,
   ⟨127, ({ (on.setReg 0x220 1) with cci.evq := List.replicate 256 {} } : State), by decide, by decide,
     by decide +kernel⟩,
   ⟨0, on, by decide, by decide⟩⟩

theorem meets_QueryCommandsFrame :
    ∃ (mb : Fin 8) (s : State) (t : State) (c : Instr),
      c ∈ ([.sysInfo mb, .angStatus mb, .portStatus mb, .devList mb, .devInfo mb, .chanInfo mb, .chanLatest mb,
        .chanHistory mb, .pwrStatus mb, .pdStatus mb, .canStatus mb, .integStatus mb, .integLog mb, .faultStatus mb, .wardenStatus mb, .domList mb, .domStatus mb, .domKeeper mb, .fwInfo mb, .profRead mb, .linkStatus mb, .testResult mb] : List Instr) ∧
      exec c s = .next t :=
  ⟨0, post 0x0205 0 [] (tgt 2 0), _, .portStatus 0, by decide +kernel, rfl⟩

theorem meets_SafeStateIgnoresWrites :
    (∃ (s : State) (c : Instr) (off : BitVec 16) (val : Word) (mask : Byte) (bytes : List Byte) (pat : BitVec 2),
      s.warden.safe = true ∧
      c ∈ ([.registerWrite off val, .lockBitSet off val, .bitAliasWrite off val, .tmuxSelWrite off val,
        .padHoldRelease val, .ltnClr, .campClear, .campForce pat, .doorbellRing mask, .cciDoneWrite mask, .abortReqWrite mask, .dataUnit bytes, .commandPipeTransfer bytes] : List Instr)) ∧
    (∃ (s : State), s.warden.safe = true) ∧
    (∃ (s : State), s.warden.safe = true) :=
  ⟨⟨({ on with warden.safe := true } : State), .doorbellRing 1, 0, 0, 1, [], 0, by decide, by decide⟩,
   ⟨({ on with warden.safe := true } : State), by decide⟩,
   ⟨({ on with warden.safe := true } : State), by decide⟩⟩

theorem meets_ReservedLiveWriteStops :
    (∃ (off : BitVec 16) (val : Word) (s : State),
      s.hostWrites = true ∧ off.toNat % 4 = 0 ∧ off.toNat < 0x1000 ∧ (off.toNat < 0x1C0 ∨ 0x200 ≤ off.toNat) ∧
      (off.toNat < 0xE00 ∨ 0xF00 ≤ off.toNat) ∧ val.toNat &&& rsvMask s.variant off.toNat ≠ 0) ∧
    (∃ (off : BitVec 16) (val : Word) (s : State),
      s.hostWrites = true ∧ off.toNat % 4 = 0 ∧ 0x4000 ≤ off.toNat ∧ off.toNat < 0x6000 ∧
      s.windowOpen (off.toNat / 0x1000 - 1) = true ∧ val.toNat &&& rsvMask s.variant off.toNat ≠ 0) :=
  ⟨⟨0xF00, 1, on, by decide, by decide, by decide, by decide, by decide, by decide⟩,
   ⟨0x5000, 0xFFFFFFFF, ({ on with cci.expert := [9] } : State), by decide, by decide, by decide, by decide,
     by decide, by decide⟩⟩

theorem meets_ReservedRegions :
    (∃ (off : BitVec 16) (s : State),
      s.hostOn = true ∧ off.toNat % 4 = 0 ∧ 0x7000 ≤ off.toNat ∧ off.toNat < 0x8000 ∧
      Tbl.getD none s.hrs.latched off.toNat = none) ∧
    (∃ (off : BitVec 16), off.toNat % 4 = 0 ∧ 0x7000 ≤ off.toNat ∧ off.toNat < 0x8000) ∧
    (∃ (off : Nat), 0xF00 ≤ off ∧ off < 0x1000) ∧
    (∃ (off : BitVec 16) (s : State),
      off.toNat % 4 = 0 ∧ bit (rsvMask s.variant (mirrorBit off.toNat).1) (mirrorBit off.toNat).2 = true) :=
  ⟨⟨0x7FFC, on, by decide, by decide, by decide, by decide, by decide⟩,
   ⟨0x7000, by decide, by decide, by decide⟩,
   ⟨0xFFF, by decide, by decide⟩,
   ⟨0xF800, on, by decide, by decide⟩⟩

theorem meets_ResyncResults :
    (∃ (i : OpInfo), opInfo 0x0002 = some i) ∧
    (∃ (mb : Fin 8) (r : Req) (s : State), Ready mb.val 0x0002 r s) :=
  ⟨⟨_, rfl⟩,
   ⟨0, _, post 0x0002 0 [] 0 ({ on with cci.resyncPend := true } : State), ready_of (by decide)⟩⟩

theorem meets_CommandFrames :
    (∃ (mb : Fin 8) (s : State) (t : State) (c : Instr),
      c ∈ ([.canConfig mb, .canEnable mb, .canFilter mb, .canTx mb, .canTxabort mb, .canRecover mb, .canAutobaud mb,
        .canStatus mb] : List Instr) ∧
      exec c s = .next t) ∧
    (∃ (mb : Fin 8) (s : State) (t : State) (c : Instr),
      c ∈ ([.angConfig mb, .angEnable mb, .angStatus mb] : List Instr) ∧ exec c s = .next t) ∧
    (∃ (mb : Fin 8) (s : State) (t : State) (c : Instr),
      c ∈ ([.fwInfo mb, .fwBegin mb, .fwWrite mb, .fwVerify mb, .fwActivate mb, .fwCancel mb, .profRead mb,
        .profWrite mb] : List Instr) ∧
      exec c s = .next t) :=
  ⟨⟨0, post 0x0808 0 [] (tgt 4 1), _, .canStatus 0, by decide, rfl⟩,
   ⟨0, post 0x0102 1 [1] (tgt 5 3), _, .angEnable 0, by decide, rfl⟩,
   ⟨0, post 0x0C06 1 [1], _, .fwCancel 0, by decide, rfl⟩⟩

theorem meets_WindowsReadBack :
    (∃ (n : Fin 8) (s : State), s.hostWrites = true ∧ (s.mb n.val).state ≠ .posted) ∧
    (∃ (off : BitVec 16) (s : State) (t : State), off.toNat < 0x8000 ∧ exec (.rcFieldRead off) s = .next t) :=
  ⟨⟨7, on, by decide, by decide⟩,
   ⟨0x7FFC, on, _, by decide, rfl⟩⟩

theorem meets_PortStateChange :
    (∃ (p : Nat) (st : Nat) (s : State), st ≠ (s.port p).usb.st) ∧
    (∃ (p : Nat) (st : Nat) (s : State),
      p < 48 ∧ st ≠ (s.port p).usb.st ∧ s.flag 0x220 0 = true ∧ s.cci.evq.length < 256) :=
  ⟨⟨0, 1, on, by decide⟩,
   ⟨47, 10, (on.setReg 0x220 1), by decide, by decide, by decide, by decide⟩⟩

theorem meets_RecordNumbers :
    ∃ (slot : Nat) (r : Rec) (s : State), (s.chan slot).change = false ∧ s.noPlace slot r = none :=
  ⟨1, {}, on, by decide, by decide⟩

theorem meets_SessionCommandsComplete :
    (∃ (mb : Fin 8) (r : Req) (s : State), Ready mb.val 0x0001 r s ∧ s.cci.session = false) ∧
    (∃ (mb : Fin 8) (r : Req) (s : State), Ready mb.val 0x0001 r s ∧ s.cci.session = true) ∧
    (∃ (mb : Fin 8) (r : Req) (s : State), Ready mb.val 0x0002 r s) ∧
    (∃ (mb : Fin 8) (r : Req) (s : State), Ready mb.val 0x0003 r s) ∧
    (∃ (r : Req) (s : State), Ready 7 0x0004 r s ∧ s.abortHeld (u8 r.params 0 % 128) = false) ∧
    (∃ (mb : Fin 8) (r : Req) (s : State), Ready mb.val 0x0004 r s ∧ mb ≠ 7) ∧
    (∃ (mb : Fin 8) (r : Req) (s : State),
      Ready mb.val 0x0005 r s ∧ 1 ≤ u8 r.params 0 ∧ u8 r.params 0 ≤ 0x0E ∧ u8 r.params 1 ≤ 1) ∧
    (∃ (mb : Fin 8) (r : Req) (s : State), Ready mb.val 0x0006 r s ∧ u16 r.params 0 = 0x5A5A) :=
  ⟨⟨0, _, post 0x0001 0 [], ready_of (by decide), by decide⟩,
   ⟨6, _, post 0x0001 0 [] 0 ({ on with cci.session := true } : State) 6, ready_of (by decide), by decide⟩,
   ⟨0, _, post 0x0002 0 [], ready_of (by decide)⟩,
   ⟨0, _, post 0x0003 0 [], ready_of (by decide)⟩,
   ⟨_, post 0x0004 1 [127] 0 on 7, ready_of (by decide), by decide⟩,
   ⟨6, _, post 0x0004 1 [1] 0 on 6, ready_of (by decide), by decide⟩,
   ⟨0, _, post 0x0005 2 [14, 1], ready_of (by decide), by decide, by decide, by decide⟩,
   ⟨0, _, post 0x0006 2 [90, 90], ready_of (by decide), by decide⟩⟩

theorem meets_ClockCommandsComplete :
    (∃ (mb : Fin 8) (r : Req) (s : State),
      Ready mb.val 0x0101 r s ∧ tIndex r.target ≤ 3 ∧ angCfgBad r = false ∧ s.angRuns (tIndex r.target) = false) ∧
    (∃ (mb : Fin 8) (r : Req) (s : State), Ready mb.val 0x0102 r s ∧ tIndex r.target ≤ 3 ∧ u8 r.params 0 = 1) ∧
    (∃ (mb : Fin 8) (r : Req) (s : State), Ready mb.val 0x0102 r s ∧ tIndex r.target ≤ 3 ∧ u8 r.params 0 = 0) ∧
    (∃ (mb : Fin 8) (r : Req) (s : State), Ready mb.val 0x0103 r s ∧ tIndex r.target ≤ 3) ∧
    (∃ (mb : Fin 8) (r : Req) (s : State), Ready mb.val 0x0111 r s ∧ tIndex r.target = 4) ∧
    (∃ (mb : Fin 8) (r : Req) (s : State), Ready mb.val 0x0112 r s ∧ tIndex r.target = 4) ∧
    (∃ (mb : Fin 8) (r : Req) (s : State),
      Ready mb.val 0x0113 r s ∧ tIndex r.target = 4 ∧ u8 r.params 0 ≤ 2 ∧ u8 r.params 1 ≤ 1 ∧ 1 ≤ u16 r.params 2 ∧
      u16 r.params 2 ≤ 6000 ∧ u8 r.params 4 ≤ 1 ∧ s.flag 0x1100 0 = false) :=
  ⟨⟨0, _, post 0x0101 24 [0, 0, 0, 0, 60, 0, 0, 0, 112, 23, 0, 0, 64, 66, 15] (tgt 5 3), ready_of (by decide),
     by decide, by decide, by decide⟩,
   ⟨0, _, post 0x0102 1 [1] (tgt 5 3), ready_of (by decide), by decide, by decide⟩,
   ⟨0, _, post 0x0102 1 [] (tgt 5 0), ready_of (by decide), by decide, by decide⟩,
   ⟨0, _, post 0x0103 0 [] (tgt 5 3), ready_of (by decide), by decide⟩,
   ⟨0, _, post 0x0111 8 [0, 0, 100, 167, 179, 182, 224, 13] (tgt 5 4), ready_of (by decide), by decide⟩,
   ⟨0, _, post 0x0112 8 [255, 255, 255, 255, 255, 255, 255, 255] (tgt 5 4), ready_of (by decide), by decide⟩,
   ⟨0, _, post 0x0113 5 [2, 1, 112, 23, 1] (tgt 5 4), ready_of (by decide), by decide, by decide, by decide,
     by decide, by decide, by decide, by decide⟩⟩

theorem meets_PhaseCommandsComplete :
    (∃ (mb : Fin 8) (r : Req) (s : State),
      Ready mb.val 0x0121 r s ∧ u8 r.params 0 ≤ 15 ∧ u8 r.params 1 ≤ 1 ∧ u8 r.params 3 ≤ 3 ∧
      u32 r.params 12 < 2 ^ 24 ∧
      phoBad (u8 r.params 2) (u32 r.params 4) (u32 r.params 8) (u32 r.params 12) (bit (u8 r.params 3) 0) = false) ∧
    (∃ (mb : Fin 8) (r : Req) (s : State),
      Ready mb.val 0x0122 r s ∧ u8 r.params 0 ≤ 1 ∧ u8 r.params 1 ≤ 1 ∧ u8 r.params 2 ≤ 1 ∧ 1 ≤ u16 r.params 4 ∧
      s.flag (psyncReg (tIndex r.target)) 0 = false) ∧
    (∃ (mb : Fin 8) (r : Req) (s : State),
      Ready mb.val 0x0123 r s ∧ u8 r.params 0 ≤ 7 ∧ u8 r.params 1 ≤ 1 ∧ u8 r.params 2 ≤ 2 ∧ u8 r.params 3 ≤ 4 ∧
      s.flag (pcapBase (u8 r.params 0)) 0 = false) ∧
    (∃ (mb : Fin 8) (r : Req) (s : State),
      Ready mb.val 0x0124 r s ∧ u8 r.params 0 ≤ 7 ∧ u8 r.params 1 ≤ 15 ∧ u16 r.params 4 ≤ 4095) :=
  ⟨⟨0, _, post 0x0121 20 [15, 1, 4, 3, 0, 0, 0, 0, 1, 0, 0, 0, 255, 255, 255], ready_of (by decide), by decide,
     by decide, by decide, by decide, by decide⟩,
   ⟨0, _, post 0x0122 6 [1, 1, 1, 0, 1] (tgt 2 0), ready_of (by decide), by decide, by decide, by decide,
     by decide, by decide⟩,
   ⟨0, _, post 0x0123 5 [7, 1, 2, 4], ready_of (by decide), by decide, by decide, by decide, by decide, by decide⟩,
   ⟨0, _, post 0x0124 6 [7, 15, 0, 0, 255, 15], ready_of (by decide), by decide, by decide, by decide⟩⟩

theorem meets_PortCommandsComplete :
    (∃ (mb : Fin 8) (r : Req) (s : State),
      Ready mb.val 0x0201 r s ∧ u8 r.params 0 ≤ 1 ∧
      (u8 r.params 0 == 1) = (s.port (tIndex r.target)).usb.transparent) ∧
    (∃ (mb : Fin 8) (r : Req) (s : State),
      Ready mb.val 0x0201 r s ∧ u8 r.params 0 = 0 ∧ (s.port (tIndex r.target)).usb.transparent = true ∧
      (if tIndex r.target < 32 then bit s.hrs.portLo.toNat (tIndex r.target) else bit s.hrs.portHi.toNat (tIndex r.target - 32)) = false) ∧
    (∃ (mb : Fin 8) (r : Req) (s : State),
      Ready mb.val 0x0201 r s ∧ u8 r.params 0 = 1 ∧ (s.port (tIndex r.target)).usb.transparent = false ∧
      (if tIndex r.target < 32 then bit s.hrs.portLo.toNat (tIndex r.target) else bit s.hrs.portHi.toNat (tIndex r.target - 32)) = false ∧
      s.usbHost = true ∧ s.safetyPort (tIndex r.target) = false ∧ s.portSlots (tIndex r.target) = [] ∧
      s.childBehind (tIndex r.target) = false) ∧
    (∃ (mb : Fin 8) (r : Req) (s : State),
      Ready mb.val 0x0202 r s ∧ (s.port (tIndex r.target)).usb.transparent = false ∧
      7 ≤ (s.port (tIndex r.target)).usb.st) ∧
    (∃ (mb : Fin 8) (r : Req) (s : State),
      Ready mb.val 0x0203 r s ∧ (s.port (tIndex r.target)).usb.transparent = false ∧
      (s.port (tIndex r.target)).usb.st = 8 ∧
      (s.portSlots (tIndex r.target)).any (fun k => (s.chan k).st == 1) = false) ∧
    (∃ (mb : Fin 8) (r : Req) (s : State),
      Ready mb.val 0x0204 r s ∧ (s.port (tIndex r.target)).usb.transparent = false) ∧
    (∃ (mb : Fin 8) (r : Req) (s : State), Ready mb.val 0x0205 r s) ∧
    (∃ (mb : Fin 8) (r : Req) (s : State), Ready mb.val 0x0206 r s ∧ u8 r.params 0 ≤ 1 ∧ r.expert = false) ∧
    (∃ (mb : Fin 8) (r : Req) (s : State),
      Ready mb.val 0x0206 r s ∧ u8 r.params 0 ≤ 1 ∧ r.expert = true ∧ 10 ≤ u8 r.params 1 ∧ u8 r.params 1 ≤ 200 ∧
      10 ≤ u8 r.params 2 ∧ u8 r.params 2 ≤ 20) :=
  ⟨⟨0, _, post 0x0201 4 [] (tgt 2 47), ready_of (by decide), by decide, by decide⟩,
   ⟨0, _, post 0x0201 4 [] (tgt 2 47) (on.modUsb 47 fun u => { u with transparent := true }), ready_of (by decide),
     by decide, by decide, by decide⟩,
   ⟨0, _, post 0x0201 4 [1] (tgt 2 31), ready_of (by decide), by decide, by decide, by decide, by decide,
     by decide, by decide, by decide⟩,
   ⟨0, _, post 0x0202 0 [] (tgt 2 0) (on.modUsb 0 fun u => { u with st := 7 }), ready_of (by decide), by decide,
     by decide⟩,
   ⟨0, _, post 0x0203 0 [] (tgt 2 0) (on.modUsb 0 fun u => { u with st := 8 }), ready_of (by decide), by decide,
     by decide, by decide⟩,
   ⟨0, _, post 0x0204 0 [] (tgt 2 0) (on.modUsb 0 fun u => { u with st := 9 }), ready_of (by decide), by decide⟩,
   ⟨0, _, post 0x0205 0 [] (tgt 2 0), ready_of (by decide)⟩,
   ⟨0, _, post 0x0206 4 [1] (tgt 2 0), ready_of (by decide), by decide, by decide⟩,
   ⟨0, _, expert (post 0x0206 4 [1, 200, 10] (tgt 2 0)), ready_of (by decide), by decide, by decide, by decide,
     by decide, by decide, by decide⟩⟩

theorem meets_HubRequestsComplete :
    (∃ (h : HubPort) (s : State) (p : Nat),
      s.hubPortOf h.val = some p ∧ h.val ≠ s.embeddedPort ∧ 7 ≤ (s.port p).usb.st) ∧
    (∃ (h : HubPort) (s : State) (p : Nat),
      s.hubPortOf h.val = some p ∧ h.val ≠ s.embeddedPort ∧ (s.port p).usb.st = 8) ∧
    (∃ (h : HubPort) (s : State) (p : Nat),
      s.hubPortOf h.val = some p ∧ h.val ≠ s.embeddedPort ∧ (s.port p).usb.st = 9) ∧
    (∃ (h : HubPort) (s : State) (p : Nat),
      s.hubPortOf h.val = some p ∧ ((s.port p).usb.st = 8 ∨ (s.port p).usb.st = 9)) ∧
    (∃ (h : HubPort) (s : State) (p : Nat), s.hubPortOf h.val = some p) ∧
    (∃ (h : HubPort) (s : State) (p : Nat), s.hubPortOf h.val = some p) ∧
    (∃ (s : State), s.usbHost = true) ∧
    (∃ (h : HubPort) (s : State), h.val = s.embeddedPort ∧ s.usbHost = true) :=
  ⟨⟨1, on.modUsb 0 fun u => { u with transparent := true, st := 7 }, 0, by decide, by decide, by decide⟩,
   ⟨48, on.modUsb 47 fun u => { u with transparent := true, st := 8 }, 47, by decide, by decide, by decide⟩,
   ⟨1, on.modUsb 0 fun u => { u with transparent := true, st := 9 }, 0, by decide, by decide, by decide⟩,
   ⟨1, on.modUsb 0 fun u => { u with transparent := true, st := 9 }, 0, by decide, by decide⟩,
   ⟨1, on.modUsb 0 fun u => { u with transparent := true, st := 0 }, 0, by decide⟩,
   ⟨1, on.modUsb 0 fun u => { u with transparent := true, st := 0 }, 0, by decide⟩,
   ⟨on, by decide⟩,
   ⟨49, on, by decide, by decide⟩⟩

theorem meets_PortConnectionRowsComplete :
    (∃ (p : Port) (s : State),
      (s.port p.val).usb.st = 6 ∧ (s.port p.val).pd.done = true ∧ (s.port p.val).usb.running = true ∧
      (s.port p.val).usb.transparent = false) ∧
    (∃ (p : Port) (t : Nat) (s : State),
      (s.port p.val).usb.debounce = some t ∧ (s.port p.val).usb.transparent = false ∧ s.groupUp (p.val / 8) = true) ∧
    (∃ (p : Port) (chirp : Chirp) (s : State) (w : Nat),
      (s.port p.val).usb.resetting = some w ∧ chirp ≠ .unswitched) ∧
    (∃ (p : Port) (s : State) (w : Nat), (s.port p.val).usb.resetting = some w) ∧
    (∃ (p : Port) (s : State),
      (s.port p.val).usb.pull ≠ 0 ∧ (s.port p.val).usb.ccAtt = true ∧ 7 ≤ (s.port p.val).usb.st) ∧
    (∃ (p : Port) (hub1 : Nat) (s : State),
      (s.port p.val).usb.st = 8 ∧ (s.port p.val).usb.transparent = false ∧ (s.port p.val).usb.enumerated = true ∧
      s.groupUp (p.val / 8) = true ∧ hub1 ≠ 0) ∧
    (∃ (p : Port) (s : State), (s.port p.val).usb.st = 9 ∧ (s.port p.val).usb.transparent = false) ∧
    (∃ (p : Port) (s : State), (s.port p.val).usb.resuming = 1) ∧
    (∃ (p : Port) (s : State), (s.port p.val).usb.resuming = 2) ∧
    (∃ (s : State), s.usbHost = true ∧ s.hub.suspended = false) ∧
    (∃ (s : State), s.hub.suspended = true) ∧
    (∃ (p : Port) (t : Nat) (s : State),
      (s.port p.val).usb.surgeAt = some t ∧ (s.port p.val).usb.st = 8 ∧ (s.port p.val).usb.transparent = false ∧
      recoveryFull p.val ((s.waitUntil (t + ticksMs 1)).modUsb p.val fun u => { u with surgeAt := none }) = false) ∧
    (∃ (p : Port) (s : State),
      (s.port p.val).usb.st = 8 ∧ (s.port p.val).usb.transparent = false ∧ (s.port p.val).usb.babbleReset = none) ∧
    (∃ (p : Port) (t : Nat) (s : State),
      (s.port p.val).usb.st = 8 ∧ (s.port p.val).usb.transparent = false ∧ (s.port p.val).usb.babbleReset = some t ∧
      (setPortState p.val 10 4 (raiseEvent p.val 6 [] ((wireDrop p.val s).setFlag (portBase p.val) 13))).tick - t < ticksS 1) ∧
    (∃ (p : Port) (t : Nat) (s : State),
      (s.port p.val).usb.babbleAt = some t ∧ (s.port p.val).usb.st = 10 ∧ (s.port p.val).usb.transparent = false) :=
  ⟨⟨0, (on.modUsb 0 fun u => { u with st := 6, running := true }).modPd 0 fun u => { u with done := true },
     by decide, by decide, by decide, by decide⟩,
   ⟨47, 0, on.modUsb 47 fun u => { u with debounce := some 0 }, by decide, by decide, by decide⟩,
   ⟨0, .high, on.modUsb 0 fun u => { u with resetting := some 2 }, 2, by decide, by decide⟩,
   ⟨0, on.modUsb 0 fun u => { u with resetting := some 2 }, 2, by decide⟩,
   ⟨0, on.modUsb 0 fun u => { u with pull := 1, ccAtt := true, st := 7 }, by decide, by decide, by decide⟩,
   ⟨47, 1, on.modUsb 47 fun u => { u with st := 8, enumerated := true }, by decide, by decide, by decide,
     by decide, by decide⟩,
   ⟨0, on.modUsb 0 fun u => { u with st := 9 }, by decide, by decide⟩,
   ⟨0, on.modUsb 0 fun u => { u with resuming := 1 }, by decide⟩,
   ⟨0, on.modUsb 0 fun u => { u with resuming := 2 }, by decide⟩,
   ⟨on, by decide, by decide⟩,
   ⟨({ on with hub.suspended := true } : State), by decide⟩,
   ⟨0, 0, on.modUsb 0 fun u => { u with surgeAt := some 0, st := 8 }, by decide, by decide, by decide, by decide⟩,
   ⟨0, on.modUsb 0 fun u => { u with st := 8 }, by decide, by decide, by decide⟩,
   ⟨0, 0, on.modUsb 0 fun u => { u with st := 8, babbleReset := some 0 }, by decide, by decide, by decide,
     by decide⟩,
   ⟨0, 0, on.modUsb 0 fun u => { u with st := 10, babbleAt := some 0 }, by decide, by decide, by decide⟩⟩

theorem meets_PowerCommandsComplete :
    (∃ (mb : Fin 8) (r : Req) (s : State), Ready mb.val 0x0601 r s ∧ (s.port (tIndex r.target)).pw.held = false) ∧
    (∃ (mb : Fin 8) (r : Req) (s : State),
      Ready mb.val 0x0601 r s ∧ (s.port (tIndex r.target)).pw.held = true ∧ (s.port (tIndex r.target)).usb.st ≠ 0) ∧
    (∃ (mb : Fin 8) (r : Req) (s : State), Ready mb.val 0x0602 r s) ∧
    (∃ (mb : Fin 8) (r : Req) (s : State),
      Ready mb.val 0x0603 r s ∧ (s.port (tIndex r.target)).usb.st = 3 ∧ (s.port (tIndex r.target)).pw.voMv ≤ 1000 ∧
      (s.src (tIndex r.target)).st = 0) ∧
    (∃ (mb : Fin 8) (r : Req) (s : State),
      Ready mb.val 0x0604 r s ∧ curveBad r = false ∧ s.hrs.lock0.getLsbD 2 = false) ∧
    (∃ (mb : Fin 8) (r : Req) (s : State),
      Ready mb.val 0x0604 r s ∧ curveBad r = false ∧ s.hrs.lock0.getLsbD 2 = true) ∧
    (∃ (mb : Fin 8) (r : Req) (s : State),
      Ready mb.val 0x0605 r s ∧ u8 r.params 0 ∈ [9, 15, 20] ∧ s.hrs.lock0.getLsbD 3 = false ∧ s.hiInUse = false) ∧
    (∃ (mb : Fin 8) (r : Req) (s : State),
      Ready mb.val 0x0606 r s ∧ u8 r.params 0 ≤ 7 ∧ s.hrs.lock0.getLsbD 3 = false) ∧
    (∃ (mb : Fin 8) (r : Req) (s : State), Ready mb.val 0x0607 r s ∧ 5 ≤ u16 r.params 0 ∧ u16 r.params 0 ≤ 200) ∧
    (∃ (mb : Fin 8) (r : Req) (s : State), Ready mb.val 0x0608 r s ∧ tScope r.target = 0) ∧
    (∃ (mb : Fin 8) (r : Req) (s : State), Ready mb.val 0x0608 r s ∧ tScope r.target = 2) :=
  ⟨⟨0, _, post 0x0601 0 [] (tgt 2 0), ready_of (by decide), by decide⟩,
   ⟨0, _,
     post 0x0601 0 [] (tgt 2 0) ((on.modPw 0 fun u => { u with held := true }).modUsb 0 fun u => { u with st := 6 }),
     ready_of (by decide), by decide, by decide⟩,
   ⟨0, _, post 0x0602 0 [] (tgt 2 0), ready_of (by decide)⟩,
   ⟨0, _,
     post 0x0603 0 [] (tgt 2 0) ((on.modUsb 0 fun u => { u with st := 3 }).modPw 0 fun u => { u with voMv := 1000 }),
     ready_of (by decide), by decide, by decide, by decide⟩,
   ⟨0, _,
     post 0x0604 72 [2, 1, 1, 0, 15, 0, 0, 0, 25, 0, 0, 0, 128, 141, 91, 0, 50, 0, 0, 0, 127, 141, 91, 0, 75, 0, 0, 0,
        126, 141, 91, 0, 100, 0, 0, 0, 125, 141, 91, 0, 125, 0, 0, 0, 124, 141, 91, 0, 150, 0, 0, 0, 123, 141, 91, 0, 175, 0, 0, 0, 122, 141, 91, 0, 200, 0, 0, 0, 121, 141, 91] (tgt 2 0),
     ready_of (by decide), by decide, by decide⟩,
   ⟨0, _,
     post 0x0604 72 [2, 1, 1, 0, 15, 0, 0, 0, 25, 0, 0, 0, 128, 141, 91, 0, 50, 0, 0, 0, 127, 141, 91, 0, 75, 0, 0, 0,
        126, 141, 91, 0, 100, 0, 0, 0, 125, 141, 91, 0, 125, 0, 0, 0, 124, 141, 91, 0, 150, 0, 0, 0, 123, 141, 91, 0, 175, 0, 0, 0, 122, 141, 91, 0, 200, 0, 0, 0, 121, 141, 91] (tgt 2 0) ({ on with hrs.lock0 := 4 } : State),
     ready_of (by decide), by decide, by decide⟩,
   ⟨0, _, post 0x0605 8 [9], ready_of (by decide), by decide, by decide, by decide⟩,
   ⟨0, _, post 0x0606 1 [7] (tgt 2 0), ready_of (by decide), by decide, by decide⟩,
   ⟨0, _, post 0x0607 2 [200], ready_of (by decide), by decide, by decide⟩,
   ⟨0, _, post 0x0608 0 [], ready_of (by decide), by decide⟩,
   ⟨0, _, post 0x0608 0 [] (tgt 2 0), ready_of (by decide), by decide⟩⟩

theorem meets_PortPowerRowsComplete :
    (∃ (h : HubPort) (s : State) (p : Nat), s.hubPortOf h.val = some p ∧ s.safetyPort p = false) ∧
    (∃ (h : HubPort) (s : State) (p : Nat),
      s.hubPortOf h.val = some p ∧ (s.port p).usb.hostOff = true ∧ (s.port p).usb.st ≠ 0) ∧
    (∃ (p : Port) (w : Nat) (s : State),
      (s.port p.val).pw.waiting = some w ∧ s.cloverRuns = true ∧ s.firstWaiting p.val = true ∧
      s.fits p.val 0 25 = true ∧ Tbl.getD none s.sched.inrush p.val = none) ∧
    (∃ (p : Port) (voMv : Nat) (b : Nat) (s : State),
      (s.port p.val).pw.booked = some (b, 0) ∧ (s.port p.val).pw.grant ≠ 0 ∧ s.flag (fuseBase p.val) 0 = true ∧
      (s.port p.val).pw.path = 0 ∧ (s.port p.val).usb.st = 0 ∧ senseVo voMv < 800) ∧
    (∃ (p : Port) (gateMv : Nat) (voMv : Nat) (railMv : Nat) (s : State),
      (s.port p.val).usb.st = 5 ∧ senseVo voMv + 7000 ≤ gateMv ∧ railMv * 93 ≤ senseVo voMv * 100) ∧
    (∃ (p : Port) (mA : Nat) (s : State), (s.port p.val).usb.st = 5 ∧ 100 * (s.port p.val).pw.rampInrush ≤ mA) ∧
    (∃ (p : Port) (s : State),
      (s.port p.val).pw.pgood = true ∧ (s.port p.val).pw.path = 1 ∧ (s.rail 0).inBand = true) ∧
    (∃ (p : Port) (mA : Nat) (n : Nat) (s : State),
      (s.port p.val).pw.pgood = true ∧ (s.port p.val).usb.st ≠ 4 ∧ s.samplesToTrip p.val (senseMa mA) = some n) ∧
    (∃ (p : Port) (mA : Nat) (s : State),
      (s.port p.val).pw.pgood = true ∧ (s.port p.val).usb.st ≠ 4 ∧ 100 * s.fld (fuseBase p.val + 4) 22 16 ≤ mA) ∧
    (∃ (p : Port) (t : Nat) (s : State),
      (s.port p.val).pw.coolUntil = some t ∧ (s.port p.val).usb.st = 2 ∧ (s.port p.val).pw.held = true) ∧
    (∃ (p : Port) (t : Nat) (s : State), (s.port p.val).pw.goodSince = some t) ∧
    (∃ (p : Port) (voMv : Nat) (s : State),
      p.val < s.nPorts ∧ (s.port p.val).pw.path = 0 ∧ 1000 < senseVo voMv ∧ (s.port p.val).usb.st ≠ 4 ∧
      (s.port p.val).pd.sink = false) ∧
    (∃ (g : Fin 6) (i : Nat) (s : State),
      s.safetyGroup g.val = false ∧ s.clover.gmgOn.contains g.val = true ∧
      (List.range 8).find? (fun k => (s.port (8 * g.val + k)).usb.st == 4) = some i) ∧
    (∃ (p : Port) (dropMv : Nat) (mA : Nat) (s : State),
      6 ≤ (s.port p.val).usb.st ∧ 500 ≤ senseMa mA ∧ s.fld (fuseBase p.val + 0x18) 9 0 < dropMv) ∧
    (∃ (f : Fin 2) (mv : Nat) (s : State),
      18000 ≤ mv ∧ mv ≤ 60000 ∧ (s.feed f.val).present = false ∧ (s.feed f.val).overV = false) ∧
    (∃ (f : Fin 2) (mv : Nat) (s : State),
      18000 ≤ mv ∧ mv ≤ 60000 ∧ (s.feed f.val).present = true ∧ (s.feed f.val).overV = true) ∧
    (∃ (f : Fin 2) (mv : Nat) (s : State), 62000 < mv ∧ (s.feed f.val).overV = false) ∧
    (∃ (r : Fin 2) (mv : Nat) (s : State), s.bandOk r.val mv = false ∧ (s.rail r.val).inBand = true ∧ r.val = 0) ∧
    (∃ (r : Fin 2) (mv : Nat) (s : State), s.bandOk r.val mv = true ∧ (s.rail r.val).inBand = false) ∧
    (∃ (r : Fin 2) (s : State), (s.rail r.val).inBand = false ∧ (s.rail r.val).removed = false) ∧
    (∃ (r : Fin 2) (s : State), (s.rail r.val).inBand = true ∧ (s.rail r.val).removed = true) ∧
    (∃ (s : State), s.feedBudget < s.feedLoad ∧ (shedDown 7 [] s).1 ≠ []) ∧
    (∃ (s : State), s.clover.shed ≠ [] ∧ s.covers = true) :=
  ⟨⟨1, on.modUsb 0 fun u => { u with transparent := true, st := 0 }, 0, by decide, by decide⟩,
   ⟨1, on.modUsb 0 fun u => { u with transparent := true, hostOff := true, st := 6 }, 0, by decide, by decide,
     by decide⟩,
   ⟨0, 0,
     ({ ((on.setReg 0x3C04 1).setReg 0x3C10 100).setReg 0x3C14 0x00640064 with clover.rails := [(0, { inBand := true })], clover.feeds := [(0, { present := true })] } : State).modPw 0 fun u => { u with waiting := some 0 },
     by decide, by decide, by decide, by decide, by decide⟩,
   ⟨0, 799, 25, (on.modPw 0 fun u => { u with booked := some (25, 0), grant := 25 }).setReg 0x3000 1, by decide,
     by decide, by decide, by decide, by decide, by decide⟩,
   ⟨0, 11650, 4650, 5000, on.modUsb 0 fun u => { u with st := 5 }, by decide, by decide, by decide⟩,
   ⟨0, 2000, on.modUsb 0 fun u => { u with st := 5 }, by decide, by decide⟩,
   ⟨0,
     ({ on.modPw 0 fun u => { u with pgood := true, path := 1 } with clover.rails := [(0, { inBand := true })] } : State),
     by decide, by decide, by decide⟩,
   ⟨0, 10239, _, on.modPw 0 fun u => { u with pgood := true }, by decide, by decide, rfl⟩,
   ⟨0, 60000, on.modPw 0 fun u => { u with pgood := true }, by decide, by decide, by decide⟩,
   ⟨0, 5, (on.modUsb 0 fun u => { u with st := 2 }).modPw 0 fun u => { u with coolUntil := some 5, held := true },
     by decide, by decide, by decide⟩,
   ⟨0, 0, on.modPw 0 fun u => { u with goodSince := some 0 }, by decide⟩,
   ⟨47, 1002, on, by decide, by decide, by decide, by decide, by decide⟩,
   ⟨5, 7, ({ on.modUsb 47 fun u => { u with st := 4 } with clover.gmgOn := [5] } : State), by decide, by decide,
     by decide⟩,
   ⟨0, 21, 500, (on.modUsb 0 fun u => { u with st := 6 }).setReg 0x3018 20, by decide, by decide, by decide⟩,
   ⟨1, 18000, on, by decide, by decide, by decide, by decide⟩,
   ⟨1, 60000, ({ on with clover.feeds := [(1, { present := true, overV := true })] } : State), by decide,
     by decide, by decide, by decide⟩,
   ⟨1, 62001, on, by decide, by decide⟩,
   ⟨0, 4000, ({ on with clover.rails := [(0, { inBand := true })] } : State), by decide, by decide, by decide⟩,
   ⟨1, 9000, on, by decide, by decide⟩,
   ⟨1, on, by decide, by decide⟩,
   ⟨1, ({ on with clover.rails := [(1, { inBand := true, removed := true })] } : State), by decide, by decide⟩,
   ⟨on.modPw 0 fun u => { u with grant := 300, path := 1 }, by decide, by decide +kernel⟩,
   ⟨({ on with clover.shed := [0] } : State), by decide, by decide⟩⟩

theorem meets_NegotiationCommandsComplete :
    (∃ (mb : Fin 8) (r : Req) (s : State), Ready mb.val 0x0701 r s) ∧
    (∃ (mb : Fin 8) (r : Req) (s : State),
      Ready mb.val 0x0702 r s ∧ u8 r.params 0 ≤ 1 ∧ 500 ≤ u16 r.params 2 ∧ u16 r.params 2 ≤ 3000 ∧
      (s.port (tIndex r.target)).pw.pgood = false) ∧
    (∃ (mb : Fin 8) (r : Req) (s : State),
      Ready mb.val 0x0703 r s ∧ (s.port (tIndex r.target)).pd.partner = true ∧
      (s.port (tIndex r.target)).pw.path ≠ 0) ∧
    (∃ (mb : Fin 8) (r : Req) (s : State),
      Ready mb.val 0x0704 r s ∧ s.servicePort (tIndex r.target) = true ∧
      (s.port (tIndex r.target)).pd.contract = 2 ∧ (s.port (tIndex r.target)).pd.sink = false ∧
      (s.port (tIndex r.target)).pd.swapping = false ∧ (s.port (tIndex r.target)).pd.await = 0) ∧
    (∃ (mb : Fin 8) (r : Req) (s : State), Ready mb.val 0x0705 r s ∧ u8 r.params 0 ≤ 1) ∧
    (∃ (mb : Fin 8) (r : Req) (s : State),
      Ready mb.val 0x0706 r s ∧ 20 ≤ u16 r.params 0 ∧ u16 r.params 0 ≤ 2000 ∧ 1 ≤ u16 r.params 2 ∧
      u16 r.params 2 ≤ 3600) ∧
    (∃ (mb : Fin 8) (r : Req) (v : Nat) (s : State),
      Ready mb.val 0x0707 r s ∧ 1 ≤ u8 r.params 0 ∧ u8 r.params 0 ≤ 2 ∧ (s.port (tIndex r.target)).pd.contract = 2 ∧
      (s.port (tIndex r.target)).pd.entering = 0 ∧ (s.port (tIndex r.target)).pd.await = 0 ∧
      u8 r.params 0 ≠ (s.port (tIndex r.target)).pd.mode ∧
      (s.port (tIndex r.target)).pd.vdo (u8 r.params 0) = some v ∧
      s.shapeOk (tIndex r.target) (u8 r.params 0) v = true) :=
  ⟨⟨0, _, post 0x0701 0 [] (tgt 2 0), ready_of (by decide)⟩,
   ⟨0, _, post 0x0702 4 [1, 0, 184, 11] (tgt 2 0), ready_of (by decide), by decide, by decide, by decide, by decide⟩,
   ⟨0, _,
     post 0x0703 0 [] (tgt 2 0) ((on.modPw 0 fun u => { u with path := 1 }).modPd 0 fun u => { u with partner := true }),
     ready_of (by decide), by decide, by decide⟩,
   ⟨0, _, post 0x0704 0 [] (tgt 2 0) (on.modPd 0 fun u => { u with contract := 2 }), ready_of (by decide),
     by decide, by decide, by decide, by decide, by decide⟩,
   ⟨0, _, post 0x0705 1 [1] (tgt 2 0), ready_of (by decide), by decide⟩,
   ⟨0, _, post 0x0706 4 [208, 7, 16, 14] (tgt 2 0), ready_of (by decide), by decide, by decide, by decide,
     by decide⟩,
   ⟨0, _, 0, post 0x0707 1 [2] (tgt 2 0) (on.modPd 0 fun u => { u with contract := 2, vdo2 := some 0 }),
     ready_of (by decide), by decide, by decide, by decide, by decide, by decide, by decide, by decide, by decide⟩⟩

theorem meets_AttachRowsComplete :
    (∃ (p : Port) (s : State),
      (s.port p.val).usb.ccAtt = false ∧ p.val < s.nPorts ∧ (s.port p.val).pw.latch = 0 ∧
      (s.port p.val).pw.coolUntil = none) ∧
    (∃ (p : Port) (s : State), (s.port p.val).usb.ccAtt = true) ∧
    (∃ (p : Port) (k1 : Nat) (k2 : Nat) (s : State),
      (s.port p.val).pd.check = true ∧ s.warden.safe = false ∧ 1 ≤ (s.port p.val).pd.threshold ∧
      5 * k1 ≤ 4 * (s.port p.val).pd.threshold ∧ 4 * k2 ≥ 5 * (s.port p.val).pd.threshold) ∧
    (∃ (p : Port) (k1 : Nat) (k2 : Nat) (s : State),
      (s.port p.val).usb.st = 1 ∧ (s.port p.val).pd.dry = 2 ∧ 1 ≤ (s.port p.val).pd.threshold ∧
      4 * k1 ≥ 5 * (s.port p.val).pd.threshold ∧ 4 * k2 ≥ 5 * (s.port p.val).pd.threshold) ∧
    (∃ (p : Port) (data : Bool) (cc : Bool) (s : State),
      p.val < s.nPorts ∧ (data || cc) = true ∧ (s.port p.val).usb.surgeAt = none ∧ (s.port p.val).pd.atomic = false) :=
  ⟨⟨47, on, by decide, by decide, by decide, by decide⟩,
   ⟨0, on.modUsb 0 fun u => { u with ccAtt := true }, by decide⟩,
   ⟨0, 160, 250, on.modPd 0 fun u => { u with check := true }, by decide, by decide, by decide, by decide,
     by decide⟩,
   ⟨0, 250, 250, (on.modUsb 0 fun u => { u with st := 1 }).modPd 0 fun u => { u with dry := 2 }, by decide,
     by decide, by decide, by decide, by decide⟩,
   ⟨47, true, false, on, by decide, by decide, by decide, by decide⟩⟩

theorem meets_ContractRowsComplete :
    (∃ (p : Port) (t : Nat) (s : State), s.offerDue p.val = some t ∧ (s.port p.val).pd.rp ≠ 2) ∧
    (∃ (p : Port) (t : Nat) (s : State), s.offerDue p.val = some t ∧ (s.port p.val).pd.rp = 2) ∧
    (∃ (p : Port) (rdo : Word) (s : State),
      (s.port p.val).pw.pgood = true ∧ (s.port p.val).pw.path = 1 ∧ (s.port p.val).pd.sink = false ∧
      (s.port p.val).pd.await = 2 ∧ (s.port p.val).pd.fallbackReason = 0 ∧ bits rdo.toNat 30 28 = 1 ∧
      (s.port p.val).pd.offer1 ≠ 0 ∧ bits rdo.toNat 19 10 ≤ (s.port p.val).pd.offer1 ∧
      bits rdo.toNat 9 0 ≤ (s.port p.val).pd.offer1 ∧
      (s.modPd p.val fun d => { d with partner := true, rev := 3, await := 0, atomic := false, sends := 0 }).fits p.val 0 (reqGrant 5000 (bits rdo.toNat 19 10)) = true) ∧
    (∃ (p : Port) (s : State),
      (s.port p.val).pd.newPos = 1 ∧ (s.port p.val).pd.pos = 2 ∧ (s.port p.val).pd.await = 4 ∧
      (s.port p.val).pw.pgood = true ∧ (s.port p.val).pw.path = 1 ∧ (s.port p.val).pd.frsArm = false) ∧
    (∃ (p : Port) (s : State), (s.port p.val).pd.await = 2) ∧
    (∃ (p : Port) (s : State), (s.port p.val).pd.await = 6) ∧
    (∃ (p : Port) (s : State), (s.port p.val).pw.pgood = true ∧ (s.port p.val).pd.silent = false) ∧
    (∃ (p : Port) (s : State),
      (s.port p.val).pw.path ≠ 0 ∧ (s.port p.val).pd.sink = false ∧ s.rescue.port = none) ∧
    (∃ (p : Port) (s : State), (s.port p.val).pd.cycling = true ∧ (s.port p.val).usb.ccAtt = false) ∧
    (∃ (p : Port) (s : State),
      (s.port p.val).pw.pgood = true ∧ (s.port p.val).pd.sink = false ∧ (s.port p.val).pd.contract = 0 ∧
      (s.port p.val).pd.fallbackReason = 2) ∧
    (∃ (p : Port) (s : State),
      (s.port p.val).pw.pgood = true ∧ (s.port p.val).pd.sink = false ∧ (s.port p.val).pd.contract = 1 ∧
      (s.port p.val).pd.fallbackReason ≠ 2 ∧ (s.port p.val).pd.reoffers < 10 ∧ (s.port p.val).pd.await ≤ 1) ∧
    (∃ (p : Port) (s : State), (s.port p.val).pd.contract = 2 ∧ (s.port p.val).pd.sink = false) :=
  ⟨⟨0, _, (on.modPw 0 fun u => { u with pgood := true }).modPd 0 fun u => { u with await := 1 }, rfl, by decide⟩,
   ⟨0, _,
     (on.modPw 0 fun u => { u with pgood := true }).modPd 0 fun u => { u with await := 1, contract := 2, rev := 3 },
     rfl, by decide⟩,
   ⟨0, 268742956,
     ({ (((on.modPw 0 fun u => { u with pgood := true, path := 1 }).modPd 0 fun u => { u with await := 2, offer1 := 300 }).setReg 0x3C10 65535).setReg 0x3C14 65535 with clover.rails := [(0, { inBand := true })], clover.feeds := [(0, { present := true })] } : State),
     by decide, by decide, by decide, by decide, by decide, by decide, by decide, by decide, by decide, by decide⟩,
   ⟨0,
     (on.modPw 0 fun u => { u with pgood := true, path := 1 }).modPd 0 fun u => { u with newPos := 1, pos := 2, await := 4 },
     by decide, by decide, by decide, by decide, by decide, by decide⟩,
   ⟨0, on.modPd 0 fun u => { u with await := 2 }, by decide⟩,
   ⟨0, on.modPd 0 fun u => { u with await := 6 }, by decide⟩,
   ⟨0, on.modPw 0 fun u => { u with pgood := true }, by decide, by decide⟩,
   ⟨0, on.modPw 0 fun u => { u with path := 1 }, by decide, by decide, by decide⟩,
   ⟨0, on.modPd 0 fun u => { u with cycling := true }, by decide, by decide⟩,
   ⟨0, (on.modPw 0 fun u => { u with pgood := true }).modPd 0 fun u => { u with fallbackReason := 2 }, by decide,
     by decide, by decide, by decide⟩,
   ⟨0, (on.modPw 0 fun u => { u with pgood := true }).modPd 0 fun u => { u with contract := 1, reoffers := 9 },
     by decide, by decide, by decide, by decide, by decide, by decide⟩,
   ⟨0, on.modPd 0 fun u => { u with contract := 2 }, by decide, by decide⟩⟩

theorem meets_RoleAndModeRowsComplete :
    (∃ (p : Port) (s : State),
      (s.port p.val).pw.pgood = true ∧ (s.port p.val).pd.silent = false ∧ s.servicePort p.val = true ∧
      (s.port p.val).pd.swapping = false ∧ (s.port p.val).pd.contract = 2 ∧ (s.port p.val).pd.sink = false) ∧
    (∃ (p : Port) (s : State),
      (s.port p.val).pw.pgood = true ∧ (s.port p.val).pd.silent = false ∧ (s.port p.val).pd.swapping = true) ∧
    (∃ (p : Port) (s : State), (s.port p.val).pd.frsEnabled = true) ∧
    (∃ (p : Port) (s : State),
      (s.port p.val).pd.discover = true ∧ (s.port p.val).pd.contract = 2 ∧ (s.port p.val).pd.await = 0) ∧
    (∃ (p : Port) (s : State), (s.port p.val).pd.await = 6 ∧ (s.port p.val).pd.entering = 1) ∧
    (∃ (p : Port) (s : State), (s.port p.val).pd.mode ≠ 0) ∧
    (∃ (p : Port) (s : State), (s.port p.val).pw.pgood = true ∧ (s.port p.val).pd.silent = false) ∧
    (∃ (p : Port) (s : State), (s.port p.val).pd.sink = true ∧ s.boot.up = true) ∧
    (∃ (p : Port) (mv : Nat) (s : State),
      s.boot.up = false ∧ 4000 < mv ∧ s.servicePort p.val = true ∧ s.rescue.port = none ∧
      (s.feed 0).present = false ∧ (s.feed 1).present = false) ∧
    (∃ (p : Port) (mv : Nat) (s : State),
      s.rescue.port = some p.val ∧ s.rescue.step = 4 ∧ s.rescue.en = true ∧ 855 ≤ mv ∧ mv ≤ 945) :=
  ⟨⟨0, (on.modPw 0 fun u => { u with pgood := true }).modPd 0 fun u => { u with contract := 2 }, by decide,
     by decide, by decide, by decide, by decide, by decide⟩,
   ⟨0, (on.modPw 0 fun u => { u with pgood := true }).modPd 0 fun u => { u with swapping := true }, by decide,
     by decide, by decide⟩,
   ⟨0, on.modPd 0 fun u => { u with frsEnabled := true }, by decide⟩,
   ⟨0, on.modPd 0 fun u => { u with discover := true, contract := 2 }, by decide, by decide, by decide⟩,
   ⟨0, on.modPd 0 fun u => { u with await := 6, entering := 1 }, by decide, by decide⟩,
   ⟨0, on.modPd 0 fun u => { u with mode := 1 }, by decide⟩,
   ⟨0, on.modPw 0 fun u => { u with pgood := true }, by decide, by decide⟩,
   ⟨0, on.modPd 0 fun u => { u with sink := true }, by decide, by decide⟩,
   ⟨0, 4001, State.reset, by decide, by decide, by decide, by decide, by decide, by decide⟩,
   ⟨0, 855, ({ on with rescue := { port := some 0, step := 4, en := true } } : State), by decide, by decide,
     by decide, by decide, by decide⟩⟩

theorem meets_ChannelLifeCommandsComplete :
    (∃ (mb : Fin 8) (r : Req) (c : Chan) (n : Nat) (t : State) (s : State),
      Ready mb.val 0x0401 r s ∧ openParse s r.target r.params = .ok c ∧ admitBoth s none c = 0 ∧ c.periodic = true ∧
      openCommit (admitted (s.chanSet.map (·.2)) c) s = some (n, t)) ∧
    (∃ (mb : Fin 8) (r : Req) (c : Chan) (s : State),
      Ready mb.val 0x0401 r s ∧ openParse s r.target r.params = .ok c ∧ admitBoth s none c ≠ 0) ∧
    (∃ (mb : Fin 8) (r : Req) (n : Nat) (s : State),
      Ready mb.val 0x0402 r s ∧ u8 r.params 0 = 0 ∧ s.slotOf r.target = some n ∧ n ≠ 0) ∧
    (∃ (mb : Fin 8) (r : Req) (n : Nat) (s : State),
      Ready mb.val 0x0402 r s ∧ u8 r.params 0 = 1 ∧ s.slotOf r.target = some n ∧ n ≠ 0 ∧ s.slotOnWire n = false) ∧
    (∃ (mb : Fin 8) (r : Req) (n : Nat) (s : State),
      Ready mb.val 0x0403 r s ∧ s.slotOf r.target = some n ∧ n ≠ 0 ∧ (s.chan n).st = 1) ∧
    (∃ (mb : Fin 8) (r : Req) (n : Nat) (s : State),
      Ready mb.val 0x0404 r s ∧ s.slotOf r.target = some n ∧ n ≠ 0 ∧ (s.chan n).st = 2 ∧
      s.groupStopped (s.chan n).grp = false) ∧
    (∃ (mb : Fin 8) (r : Req) (n : Nat) (s : State),
      Ready mb.val 0x0404 r s ∧ s.slotOf r.target = some n ∧ n ≠ 0 ∧ (s.chan n).st = 3 ∧ (s.chan n).cause = 2 ∧
      s.groupStopped (s.chan n).grp = false) ∧
    (∃ (mb : Fin 8) (r : Req) (s : State),
      Ready mb.val 0x0405 r s ∧ (s.group (tIndex r.target)).stopped = false ∧
      (s.chanSet.filter fun e => e.2.grp == tIndex r.target && e.2.st ≤ 1) = []) ∧
    (∃ (mb : Fin 8) (r : Req) (s : State), Ready mb.val 0x0406 r s ∧ (s.group (tIndex r.target)).stopped = true) :=
  ⟨(by
      have h : (openCommit (admitted (openState.chanSet.map (·.2)) openChan) openState).isSome = true := by decide +kernel
      obtain ⟨x, hx⟩ := Option.isSome_iff_exists.1 h
      exact ⟨0, _, openChan, x.1, x.2, openState, ready_of (by decide), by decide +kernel, by decide +kernel, by decide, hx⟩),
   ⟨0, _, _,
     post 0x0401 64 [1, 129, 1, 0, 8, 0, 0, 0, 0, 0, 0, 0, 0, 0, 0, 0, 4, 1, 0, 0, 1, 0, 0, 0, 0, 0, 0, 0, 0, 0, 0, 0,
        0, 0, 0, 0, 125] (tgt 3 255) ((on.setDev 255 { used := true, port := 47, desc := { speed := 2, cfgDesc := [7, 5, 0x81, 3, 8, 0, 1] } }).modUsb 47 fun u => { u with st := 8, speed := 2, enumerated := true }),
     ready_of (by decide), rfl, by decide⟩,
   ⟨0, _, 1, post 0x0402 4 [] (16384) (on.setChan 1 { st := 1 }), ready_of (by decide), by decide, by decide,
     by decide⟩,
   ⟨0, _, 1, post 0x0402 4 [1] (16384) (on.setChan 1 { st := 1 }), ready_of (by decide), by decide, by decide,
     by decide, by decide⟩,
   ⟨0, _, 1, post 0x0403 0 [] (16384) (on.setChan 1 { st := 1 }), ready_of (by decide), by decide, by decide,
     by decide⟩,
   ⟨0, _, 1, post 0x0404 0 [] (16384) (on.setChan 1 { st := 2 }), ready_of (by decide), by decide, by decide,
     by decide, by decide⟩,
   ⟨0, _, 1, post 0x0404 0 [] (16384) (on.setChan 1 { st := 3, cause := 2 }), ready_of (by decide), by decide,
     by decide, by decide, by decide, by decide⟩,
   ⟨0, _, post 0x0405 0 [] (tgt 1 5), ready_of (by decide), by decide, by decide⟩,
   ⟨0, _, post 0x0406 0 [] (tgt 1 0) (on.setGroup 0 { stopped := true }), ready_of (by decide), by decide⟩⟩

theorem meets_ChannelDataCommandsComplete :
    (∃ (mb : Fin 8) (r : Req) (n : Nat) (s : State),
      Ready mb.val 0x0407 r s ∧ r.hasData = false ∧ r.params.length ≤ 232 ∧ u16 r.params 6 ≤ 2048 ∧
      s.slotOf r.target = some n ∧ (s.chan n).kind = 3 ∧ (s.chan n).st = 1 ∧ (s.chan n).ctrl = none) ∧
    (∃ (mb : Fin 8) (r : Req) (n : Nat) (s : State),
      Ready mb.val 0x0408 r s ∧ r.hasData = false ∧ u16 r.params 0 = (r.params.drop 8).length ∧ u8 r.params 2 ≤ 1 ∧
      s.slotOf r.target = some n ∧ (s.chan n).kind = 2 ∧ (s.chan n).ringed = false ∧
      (r.params.drop 8).length ≤ (s.chan n).payload ∧ (s.chan n).st ≠ 4 ∧ (s.chan n).unsent = none) ∧
    (∃ (mb : Fin 8) (r : Req) (n : Nat) (s : State),
      Ready mb.val 0x0409 r s ∧ r.params = [] ∧ s.slotOf r.target = some n ∧ (s.chan n).st ≠ 4) ∧
    (∃ (mb : Fin 8) (r : Req) (n : Nat) (s : State),
      Ready mb.val 0x040A r s ∧ s.slotOf r.target = some n ∧ (s.chan n).toLatest = true ∧ (s.chan n).st ≠ 4) ∧
    (∃ (mb : Fin 8) (r : Req) (n : Nat) (s : State),
      Ready mb.val 0x040B r s ∧ s.slotOf r.target = some n ∧ (s.chan n).toHistory = true ∧ (s.chan n).st ≠ 4 ∧
      (s.chan n).history = []) ∧
    (∃ (mb : Fin 8) (r : Req) (n : Nat) (x : Rec) (l : List Rec) (s : State),
      Ready mb.val 0x040B r s ∧ s.slotOf r.target = some n ∧ (s.chan n).toHistory = true ∧ (s.chan n).st ≠ 4 ∧
      (s.chan n).history = x :: l ∧ x.seq = u16 r.params 0 ∧ x.data.length ≤ 224) ∧
    (∃ (mb : Fin 8) (r : Req) (n : Nat) (s : State),
      Ready mb.val 0x0410 r s ∧ u8 r.params 0 = 1 ∧ r.params.length = 16 ∧ tChip (u32 r.params 8) = tChip r.target ∧
      (u16 r.params 14 + 65536 - u16 r.params 12) % 65536 ≤ 32766 ∧ s.slotOf (u32 r.params 8) = some n ∧
      n = hSlot (u32 r.params 8) ∧ (rangeSeqs (ackRange r.params 0)).any (fun q => (s.chan n).notYet q) = false) ∧
    (∃ (mb : Fin 8) (r : Req) (n : Nat) (s : State),
      Ready mb.val 0x0411 r s ∧ s.slotOf r.target = some n ∧ (s.chan n).stream = true ∧ (s.chan n).st ≠ 4) :=
  ⟨⟨0, _, 1, post 0x0407 8 [0, 0, 0, 0, 0, 0, 0, 8] (16384) (on.setChan 1 { st := 1, kind := 3 }),
     ready_of (by decide), by decide, by decide, by decide, by decide, by decide, by decide, by decide⟩,
   ⟨0, _, 4095,
     post 0x0408 10 [2, 0, 1, 0, 0, 0, 0, 0, 7, 8] (67092480) (on.setChan 4095 { st := 1, kind := 2, payload := 2 }),
     ready_of (by decide), by decide, by decide, by decide, by decide, by decide, by decide, by decide, by decide,
     by decide⟩,
   ⟨0, _, 1, post 0x0409 0 [] (16384) (on.setChan 1 { st := 1 }), ready_of (by decide), by decide, by decide,
     by decide⟩,
   ⟨0, _, 1, post 0x040A 2 [] (16384) (on.setChan 1 { st := 1, deliver := 4 }), ready_of (by decide), by decide,
     by decide, by decide⟩,
   ⟨0, _, 1, post 0x040B 4 [] (16384) (on.setChan 1 { st := 1, deliver := 8 }), ready_of (by decide), by decide,
     by decide, by decide, by decide⟩,
   ⟨0, _, 1, _, _, post 0x040B 4 [9] (16384) (on.setChan 1 { st := 1, deliver := 8, history := [{ seq := 9 }] }),
     ready_of (by decide), by decide, by decide, by decide, rfl, by decide, by decide⟩,
   ⟨0, _, 1,
     post 0x0410 16 [1, 0, 0, 0, 0, 0, 0, 0, 0, 64, 0, 0, 255,
        255] 0 (on.setChan 1 { st := 1, oldest := 65535, delivered := 1 }),
     ready_of (by decide), by decide, by decide, by decide, by decide, by decide, by decide, by decide⟩,
   ⟨0, _, 1, post 0x0411 0 [] (16384) (on.setChan 1 { st := 1, deliver := 1 }), ready_of (by decide), by decide,
     by decide, by decide⟩⟩

theorem meets_ScheduleCommandsComplete :
    (∃ (mb : Fin 8) (r : Req) (s : State), Ready mb.val 0x0501 r s ∧ s.presentTxn = none) ∧
    (∃ (mb : Fin 8) (r : Req) (i : Item) (t : SchedTxn) (s : State),
      Ready mb.val 0x0502 r s ∧ parseItem s r = .ok i ∧ s.namedTxn (u32 r.params 0) = some t ∧ t.st = 0 ∧
      t.items.length < 64) ∧
    (∃ (mb : Fin 8) (r : Req) (p : SchedSpec) (n : Nat) (t : SchedTxn) (s : State),
      Ready mb.val 0x0503 r s ∧ parseSpec (r.params.drop 8) = some p ∧ s.slotOf r.target = some n ∧
      (s.chan n).periodic = true ∧ (s.chan n).sched.tb = p.tb ∧ (s.chan n).st ≠ 4 ∧
      s.namedTxn (u32 r.params 0) = some t ∧ t.st = 0 ∧ t.items.length < 64) ∧
    (∃ (mb : Fin 8) (r : Req) (t : SchedTxn) (a : Nat) (s : State),
      Ready mb.val 0x0504 r s ∧ u8 r.params 4 ≤ 1 ∧ u8 r.params 5 ≤ 4 ∧ s.namedTxn (u32 r.params 0) = some t ∧
      t.st = 0 ∧ t.items = [] ∧ resolveApply s (u8 r.params 4) (u8 r.params 5) (u64 r.params 8) = some a) ∧
    (∃ (mb : Fin 8) (r : Req) (t : SchedTxn) (s : State),
      Ready mb.val 0x0505 r s ∧ s.namedTxn (u32 r.params 0) = some t ∧ t.st = 0) ∧
    (∃ (mb : Fin 8) (r : Req) (s : State), Ready mb.val 0x0506 r s ∧ u32 r.params 0 = 0 ∧ tScope r.target = 2) ∧
    (∃ (mb : Fin 8) (r : Req) (t : SchedTxn) (s : State),
      Ready mb.val 0x0506 r s ∧ u32 r.params 0 ≠ 0 ∧ tScope r.target = 0 ∧
      s.sched.txns.find? (fun t => t.txn == u32 r.params 0) = some t ∧ t.items = [] ∧ t.st ≠ 0) :=
  ⟨⟨0, _, post 0x0501 4 [], ready_of (by decide), by decide⟩,
   ⟨0, _, _, { txn := 1 },
     post 0x0502 8 [1, 0, 0, 0, 5] (16384) (({ on with sched.txns := [{ txn := 1 }] } : State).setChan 1 { st := 1 }),
     ready_of (by decide), rfl, by decide, by decide, by decide⟩,
   ⟨0, _, _, 1, { txn := 1 },
     post 0x0503 56 [1, 0, 0, 0, 0, 0, 0, 0, 4, 1, 0, 0, 1, 0, 0, 0, 0, 0, 0, 0, 0, 0, 0, 0, 0, 0, 0, 0, 16,
        39] (16384) (({ on with sched.txns := [{ txn := 1 }] } : State).setChan 1 { st := 1, kind := 1, sched := { tb := 4 } }),
     ready_of (by decide), rfl, by decide, by decide, by decide, by decide, by decide, by decide, by decide⟩,
   ⟨0, _, { txn := 1 }, _, post 0x0504 16 [1] 0 ({ on with sched.txns := [{ txn := 1 }] } : State),
     ready_of (by decide), by decide, by decide, by decide, by decide, by decide, rfl⟩,
   ⟨0, _, { txn := 1 }, post 0x0505 4 [1] 0 ({ on with sched.txns := [{ txn := 1 }] } : State),
     ready_of (by decide), by decide, by decide⟩,
   ⟨0, _, post 0x0506 5 [] (tgt 2 0), ready_of (by decide), by decide, by decide⟩,
   ⟨0, _, { txn := 7, st := 2 }, post 0x0506 5 [7] 0 ({ on with sched.txns := [{ txn := 7, st := 2 }] } : State),
     ready_of (by decide), by decide, by decide, by decide, by decide, by decide⟩⟩

theorem meets_ServiceRowsComplete :
    (∃ (slot : Fin 4096) (t : State) (s : State),
      (applyFirst slot.val s).tansyServes slot.val = true ∧
      (applyFirst slot.val s).reach ((applyFirst slot.val s).chan slot.val).sched.tb ((applyFirst slot.val s).chan slot.val).next = some t) ∧
    (∃ (p : Port) (n : Nat) (c : Chan) (d : Due) (s : State),
      s.busFree p.val = true ∧ s.portSlots p.val = [n] ∧ s.chan n = c ∧ c.due = [d] ∧ d.expired s.tick = false ∧
      (d.hard || s.beforeSof p.val c.txTime) = true ∧ s.journal.level = 0 ∧ c.noHalf = false) ∧
    (∃ (slot : Fin 4096) (d : Due) (s : State), (s.chan slot.val).due.find? (·.hard) = some d) ∧
    (∃ (slot : Fin 4096) (t : State) (s : State),
      s.tansyServes slot.val = true ∧ (s.chan slot.val).due.all (·.hard) = false ∧
      s.reach (s.chan slot.val).sched.tb (s.chan slot.val).next = some t) ∧
    (∃ (p : Port) (s : State),
      (s.port p.val).usb.transparent = false ∧ (s.port p.val).usb.st = 8 ∧ s.groupUp (p.val / 8) = true) ∧
    (∃ (p : Port) (w : OnWire) (s : State), s.onWire p.val = some w) ∧
    (∃ (slot : Fin 4096) (r : Rec) (l : List Rec) (s : State),
      (s.chan slot.val).built = r :: l ∧ (s.chan slot.val).periodic = true ∧ s.earlier slot.val r.stamp = false) ∧
    (∃ (slot : Fin 4096) (q : CtrlReq) (s : State), (s.chan slot.val).ctrl = some q ∧ q.phase ≠ 2) ∧
    (∃ (t : SchedTxn) (u : State) (s : State),
      s.pendingTxn = some t ∧ s.warden.mode = false ∧ s.reach t.applyTb t.applyAt = some u) ∧
    (∃ (t : SchedTxn) (s : State), s.presentTxn = some t ∧ t.st = 0) :=
  ⟨⟨1, _, on.setChan 1 { st := 1, kind := 1, port := 0, sched := { tb := 4 } }, by decide, rfl⟩,
   ⟨0, 1, _, _,
     (on.modUsb 0 fun u => { u with st := 8, enumerated := true }).setChan 1 { st := 1, kind := 2, port := 0, due := [{ hard := true }], sched := { tb := 4 } },
     by decide, by decide, rfl, rfl, by decide, by decide, by decide, by decide⟩,
   ⟨4095, _, on.setChan 4095 { st := 1, kind := 1, due := [{}, { target := 7, hard := true }] }, rfl⟩,
   ⟨1, _, on.setChan 1 { st := 1, kind := 1, port := 0, sched := { tb := 4, cls := 1 }, due := [{}] }, by decide,
     by decide, rfl⟩,
   ⟨47, on.modUsb 47 fun u => { u with st := 8 }, by decide, by decide, by decide⟩,
   ⟨0, { slot := 1 }, on.setWire 0 (some { slot := 1 }), by decide⟩,
   ⟨1, {}, [], on.setChan 1 { st := 1, kind := 1, built := [{}] }, by decide, by decide, by decide⟩,
   ⟨1, { phase := 1 }, on.setChan 1 { st := 1, kind := 3, ctrl := some { phase := 1 } }, by decide, by decide⟩,
   ⟨_, _, ({ on with sched.txns := [{ txn := 1, st := 1, applyTb := 4, applyAt := 0 }] } : State), rfl, by decide,
     rfl⟩,
   ⟨{ txn := 1 }, ({ on with sched.txns := [{ txn := 1 }] } : State), by decide, by decide⟩⟩

theorem meets_DeviceAndDomainCommandsComplete :
    (∃ (mb : Fin 8) (r : Req) (s : State), Ready mb.val 0x0301 r s ∧ s.devices = []) ∧
    (∃ (mb : Fin 8) (r : Req) (id : Nat) (d : Device) (l : List (Nat × Device)) (s : State),
      Ready mb.val 0x0301 r s ∧ u8 r.params 0 ≤ id ∧ d.used = true ∧ s.devices = (id, d) :: l) ∧
    (∃ (mb : Fin 8) (r : Req) (s : State), Ready mb.val 0x0302 r s ∧ (s.dev (tIndex r.target)).used = true) ∧
    (∃ (mb : Fin 8) (r : Req) (s : State),
      Ready mb.val 0x0303 r s ∧ u8 r.params 0 ≤ 2 ∧ (s.port (tIndex r.target)).usb.transparent = false) ∧
    (∃ (mb : Fin 8) (r : Req) (s : State), Ready mb.val 0x0B01 r s ∧ s.domain.children = [] ∧ u8 r.params 0 = 0) ∧
    (∃ (mb : Fin 8) (r : Req) (e : List Byte) (l : List (List Byte)) (s : State),
      Ready mb.val 0x0B02 r s ∧ (s.child (tChip r.target)).mirror = e :: l) ∧
    (∃ (mb : Fin 8) (r : Req) (s : State), Ready mb.val 0x0B03 r s ∧ (s.child (tChip r.target)).joined = false) :=
  ⟨⟨0, _, post 0x0301 1 [], ready_of (by decide), by decide⟩,
   ⟨0, _, 1, _, _, post 0x0301 1 [1] 0 (on.setDev 1 { used := true }), ready_of (by decide), by decide, by decide,
     rfl⟩,
   ⟨0, _, post 0x0302 2 [] (tgt 3 255) (on.setDev 255 { used := true }), ready_of (by decide), by decide⟩,
   ⟨0, _, post 0x0303 1 [2] (tgt 2 0), ready_of (by decide), by decide, by decide⟩,
   ⟨0, _, post 0x0B01 1 [], ready_of (by decide), by decide, by decide⟩,
   ⟨0, _, [1, 2], [],
     post 0x0B02 0 [] (63 * 2 ^ 26) (on.setChild 63 { known := true, joined := true, mirror := [[1, 2]] }),
     ready_of (by decide), by decide⟩,
   ⟨0, _, post 0x0B03 0 [] (2 ^ 26), ready_of (by decide), by decide⟩⟩

theorem meets_EnumerationAndDomainRowsComplete :
    (∃ (p : Port) (d : DevDesc) (s : State),
      (s.port p.val).usb.transparent = false ∧ (s.port p.val).usb.st = 8 ∧ s.groupUp (p.val / 8) = true ∧
      d.tier = 1 ∧ (s.port p.val).usb.enumerated = false) ∧
    (∃ (p : Port) (k : Fin 8) (s : State),
      (s.port p.val).usb.transparent = false ∧ (s.port p.val).usb.st = 8 ∧ s.groupUp (p.val / 8) = true ∧
      k.val ≠ 0 ∧ (s.port p.val).usb.enumerated = false) ∧
    (∃ (p : Port) (k : Fin 8) (hub1 : Nat) (s : State),
      (s.port p.val).usb.transparent = false ∧ (s.port p.val).usb.st = 8 ∧ s.groupUp (p.val / 8) = true ∧
      k.val ≠ 0 ∧ (s.port p.val).usb.enumerated = true ∧ hub1 ≠ 0 ∧
      s.hubAbove p.val { tier := 2, hub1 := hub1, hub2 := 0 } = true ∧
      2 ≤ Tbl.getD 0 (s.port p.val).usb.enumTries (hub1 * 256)) ∧
    (∃ (p : Port) (c : ChildDesc) (id : Nat) (n : Nat) (s : State),
      s.isRoot = true ∧ (s.portDevs p.val).filter (fun id => isOtind (s.dev id).desc && !(s.dev id).gone) = [id] ∧
      c.parent = 0 ∧ childNumber c.serial s = some n ∧ s.child n = {} ∧ s.chipsKnown < 64) ∧
    (∃ (number : Fin 64) (tier : Fin 3) (s : State), s.isRoot = false ∧ number.val ≠ 0 ∧ tier.val ≠ 0) ∧
    (∃ (chip : Fin 64) (s : State), (s.child chip.val).joined = true) ∧
    (∃ (chip : Fin 64) (s : State), (s.child chip.val).joined = true) :=
  ⟨⟨47, {}, on.modUsb 47 fun u => { u with st := 8 }, by decide, by decide, by decide, by decide, by decide⟩,
   ⟨47, 1, on.modUsb 47 fun u => { u with st := 8 }, by decide, by decide, by decide, by decide, by decide⟩,
   ⟨47, 1, 1,
     (on.setDev 1 { used := true, port := 47, desc := { isHub := true, tier := 1 } }).modUsb 47 fun u => { u with st := 8, enumerated := true, enumTries := [(256, 2)] },
     by decide, by decide, by decide, by decide, by decide, by decide, by decide, by decide⟩,
   ⟨0, { serial := 7 }, 1, 1, on.setDev 1 { used := true, port := 0, desc := { vid := 0x3A5E, pid := 0x0480 } },
     by decide, by decide, by decide, by decide, by decide, by decide⟩,
   ⟨63, 4, ({ on with straps.bootsel0 := true } : State), by decide, by decide, by decide⟩,
   ⟨63, on.setChild 63 { known := true, joined := true, mirror := [[1, 2]] }, by decide⟩,
   ⟨63, on.setChild 63 { known := true, joined := true, mirror := [[1, 2]] }, by decide⟩⟩

theorem meets_LinkAndJournalRowsComplete :
    (∃ (mb : Fin 8) (r : Req) (s : State), Ready mb.val 0x0D01 r s) ∧
    (∃ (mb : Fin 8) (r : Req) (s : State), Ready mb.val 0x0D02 r s ∧ u32 r.params 0 ≤ s.budgetDefault) ∧
    (∃ (mb : Fin 8) (r : Req) (s : State),
      Ready mb.val 0x0D03 r s ∧ 10 ≤ u16 r.params 0 ∧ u16 r.params 0 ≤ 1000 ∧ s.straps.hostsel = false) ∧
    (∃ (s : State), s.usbHost = true ∧ s.boot.up = true) ∧
    (∃ (s : State),
      s.usbHost = true ∧ s.boot.up = true ∧ s.hub.upSpeed = 0 ∧ s.hub.detachedUntil = none ∧ s.chanSet = [] ∧
      s.relayedHandles = []) ∧
    (∃ (s : State), s.journal.levelNow ≠ s.journal.level) ∧
    (∃ (s : State), s.mgmtUp = true ∧ s.journal.sealed = false) ∧
    (∃ (s : State), s.journal.sealed = false ∧ s.openSlots = []) ∧
    (∃ (s : State), s.journal.sealed = true ∧ s.warden.safe = false ∧ s.boot.resetReq = none) :=
  ⟨⟨0, _, post 0x0D01 0 [], ready_of (by decide)⟩,
   ⟨0, _, post 0x0D02 4 [], ready_of (by decide), by decide⟩,
   ⟨0, _, post 0x0D03 2 [232, 3], ready_of (by decide), by decide, by decide, by decide⟩,
   ⟨on, by decide, by decide⟩,
   ⟨on, by decide, by decide, by decide, by decide, by decide, by decide⟩,
   ⟨({ on with journal.level := 2 } : State), by decide⟩,
   ⟨on, by decide, by decide⟩,
   ⟨on, by decide, by decide⟩,
   ⟨({ on with journal.sealed := true } : State), by decide, by decide, by decide⟩⟩

theorem meets_RestartRowsComplete :
    (∃ (t : Nat) (s : State),
      s.boot.up = true ∧ s.warden.safe = false ∧ s.warden.mode = false ∧ s.mgmtDown = some t ∧ s.boot.trial = false) ∧
    (∃ (t : Nat) (s : State), s.mgmtDown = some t) ∧
    (∃ (s : State),
      s.warden.mode = false ∧ s.warden.safe = false ∧ s.boot.up = true ∧ s.mgmtDown = none ∧
      maskOf ((bitList 8 s.cci.abortReq).filter fun n => !s.abortWaits n) ≠ 0 ∧ (s.mb 7).state ≠ .posted) ∧
    (∃ (g : Fin 6) (s : State),
      g.val < s.nGroups ∧ s.warden.safe = false ∧ s.boot.up = true ∧ (s.dom (3 + g.val)).st = 0 ∧
      (s.group g.val).engine = 1) ∧
    (∃ (g : Fin 6) (s : State), (s.group g.val).engine = 1) :=
  ⟨⟨5, ({ on with mgmtDown := some 5 } : State), by decide, by decide, by decide, by decide, by decide⟩,
   ⟨5, ({ on with mgmtDown := some 5 } : State), by decide⟩,
   ⟨({ on with cci.abortReq := 1 } : State), by decide, by decide, by decide, by decide, by decide, by decide⟩,
   ⟨5, on.setGroup 5 { engine := 1 }, by decide, by decide, by decide, by decide, by decide⟩,
   ⟨5, on.setGroup 5 { engine := 1 }, by decide⟩⟩

theorem meets_CanCommandsComplete :
    (∃ (mb : Fin 8) (r : Req) (s : State),
      Ready mb.val 0x0801 r s ∧ u8 r.params 0 < 8 ∧ u8 r.params 1 ≤ 15 ∧ r.expert = false ∧
      (timingOf (r.params.drop 2)).inRange (bit (u8 r.params 0) 0) = true ∧
      (timingOf (r.params.drop 2)).ok (bit (u8 r.params 0) 0) = true ∧ s.canLocked (tIndex r.target) = false ∧
      (s.can (tIndex r.target)).running = false ∧ (s.can (tIndex r.target)).st ≠ 4) ∧
    (∃ (mb : Fin 8) (r : Req) (s : State),
      Ready mb.val 0x0802 r s ∧ u8 r.params 0 = 1 ∧ (s.can (tIndex r.target)).running = false ∧
      (s.can (tIndex r.target)).st ≠ 4 ∧ (s.canTiming (tIndex r.target)).ok (s.canFd (tIndex r.target)) = true) ∧
    (∃ (mb : Fin 8) (r : Req) (s : State),
      Ready mb.val 0x0802 r s ∧ u8 r.params 0 = 0 ∧ (s.can (tIndex r.target)).running = true ∧
      (s.can (tIndex r.target)).st ≠ 4) ∧
    (∃ (mb : Fin 8) (r : Req) (s : State),
      Ready mb.val 0x0803 r s ∧ u8 r.params 0 ≤ 63 ∧ u8 r.params 1 ≤ 3 ∧ u8 r.params 2 ≤ 1 ∧
      u32 r.params 4 < 2 ^ 29 ∧ u32 r.params 8 < 2 ^ 29) ∧
    (∃ (mb : Fin 8) (r : Req) (s : State),
      Ready mb.val 0x0804 r s ∧ u8 r.params 0 < 32 ∧ u8 r.params 1 = 0 ∧ u8 r.params 2 < 16 ∧
      u32 r.params 4 < 2 ^ 11 ∧ (r.params.drop 16).length = min (u8 r.params 2) 8 ∧
      s.canListen (tIndex r.target) = false ∧ (s.can (tIndex r.target)).running = true ∧
      (s.can (tIndex r.target)).stopping = false ∧ (s.can (tIndex r.target)).st ≠ 3) ∧
    (∃ (mb : Fin 8) (r : Req) (s : State), Ready mb.val 0x0805 r s ∧ (s.can (tIndex r.target)).onBus = none) ∧
    (∃ (mb : Fin 8) (r : Req) (s : State), Ready mb.val 0x0806 r s) ∧
    (∃ (mb : Fin 8) (r : Req) (s : State),
      Ready mb.val 0x0807 r s ∧ u8 r.params 0 = 1 ∧ 10 ≤ u8 r.params 1 ∧ r.params.length = 16 ∧
      (timingOf (slice r.params 4 12)).inRange (s.canFd (tIndex r.target)) = true ∧
      (timingOf (slice r.params 4 12)).ok (s.canFd (tIndex r.target)) = true ∧ u16 (slice r.params 4 12) 10 = 0 ∧
      s.canLocked (tIndex r.target) = false ∧ (s.can (tIndex r.target)).running = false ∧
      (s.can (tIndex r.target)).st ≠ 4) ∧
    (∃ (mb : Fin 8) (r : Req) (s : State), Ready mb.val 0x0808 r s) :=
  ⟨⟨0, _, post 0x0801 14 [7, 15, 2, 0, 63, 0, 16, 16, 1, 29, 10, 10] (tgt 4 1), ready_of (by decide), by decide,
     by decide, by decide, by decide, by decide, by decide, by decide, by decide⟩,
   ⟨0, _, post 0x0802 1 [1] (tgt 4 1), ready_of (by decide), by decide, by decide, by decide, by decide⟩,
   ⟨0, _, post 0x0802 1 [] (tgt 4 0) (on.setCan 0 { running := true, st := 1 }), ready_of (by decide), by decide,
     by decide, by decide⟩,
   ⟨0, _, post 0x0803 12 [63, 3, 1, 0, 255, 255, 255, 31, 255, 255, 255, 31] (tgt 4 1), ready_of (by decide),
     by decide, by decide, by decide, by decide, by decide⟩,
   ⟨0, _, post 0x0804 24 [31, 0, 15, 0, 255, 7] (tgt 4 0) (on.setCan 0 { running := true, st := 1 }),
     ready_of (by decide), by decide, by decide, by decide, by decide, by decide, by decide, by decide, by decide,
     by decide⟩,
   ⟨0, _, post 0x0805 4 [255, 255, 255, 255] (tgt 4 0), ready_of (by decide), by decide⟩,
   ⟨0, _, post 0x0806 0 [] (tgt 4 0), ready_of (by decide)⟩,
   ⟨0, _, post 0x0807 16 [1, 10, 0, 0, 2, 0, 63, 0, 16, 16, 1, 29, 10, 10] (tgt 4 1), ready_of (by decide),
     by decide, by decide, by decide, by decide, by decide, by decide, by decide, by decide, by decide⟩,
   ⟨0, _, post 0x0808 0 [] (tgt 4 1), ready_of (by decide)⟩⟩

theorem meets_CanBusRowsComplete :
    (∃ (c : Fin 2) (f : CanFrame) (n : Nat) (t : State) (s : State),
      s.canLive c.val = true ∧ f.fd = false ∧ s.elapse n = t ∧ (t.can c.val).rxErr = 0 ∧
      (List.range 64).find? (fun k => pairMatches (canCounters c.val (t.can c.val).tec 0 t) c.val k f) = none) ∧
    (∃ (c : Fin 2) (f : CanFrame) (n : Nat) (k : Nat) (t : State) (s : State),
      s.canLive c.val = true ∧ f.fd = false ∧ s.elapse n = t ∧ (t.can c.val).rxErr = 0 ∧
      (List.range 64).find? (fun k => pairMatches (canCounters c.val (t.can c.val).tec 0 t) c.val k f) = some k ∧
      (canCounters c.val (t.can c.val).tec 0 t).fld (pairBase c.val k) 1 0 = 0) ∧
    (∃ (c : Fin 2) (b : Nat) (t : TxBuf) (s : State),
      s.canUp c.val = true ∧ (s.can c.val).stopping = false ∧ (s.can c.val).onBus = none ∧
      s.canListen c.val = false ∧ topBuf ((s.can c.val).bufs.filter fun e => e.2.st == 1) = some (b, t) ∧
      t.frame.fd = false) ∧
    (∃ (c : Fin 2) (b : Nat) (s : State),
      s.canLive c.val = true ∧ (s.can c.val).onBus = some b ∧ (∀ n < 8, (s.mb n).state ≠ .posted) ∧
      (txSent c.val b s).cci.mbs = s.cci.mbs) ∧
    (∃ (c : Fin 2) (b : Fin 32) (t : State) (s : State),
      ((s.can c.val).buf b.val).st = 2 ∧ s.warden.safe = false ∧ ((s.can c.val).buf b.val).tb = 4 ∧
      s.reach 4 ((s.can c.val).buf b.val).target = some t) ∧
    (∃ (c : Fin 2) (s : State), s.canLive c.val = true) ∧
    (∃ (c : Fin 2) (s : State), s.canLive c.val = true) ∧
    (∃ (c : Fin 2) (s : State), (s.can c.val).st = 3 ∧ (s.can c.val).recovering = true ∧ s.warden.safe = false) ∧
    (∃ (c : Fin 2) (s : State),
      (s.can c.val).st = 4 ∧ s.warden.safe = false ∧ (s.can c.val).cands.length ≤ (s.can c.val).candIdx + 1) ∧
    (∃ (c : Fin 2) (s : State),
      (s.can c.val).stopping = true ∧ (s.can c.val).onBus = none ∧ s.warden.safe = false) :=
  ⟨⟨1, { id := 5 }, 0, _, on.setCan 1 { running := true, st := 2 }, by decide, by decide, rfl, by decide, by decide⟩,
   ⟨0, { id := 5 }, 0, 3, _,
     (((on.setCan 0 { running := true, st := 1 }).setReg 0x4130 0).setReg 0x4104 5).setReg 0x4108 536870911,
     by decide, by decide, rfl, by decide, by decide, by decide⟩,
   ⟨0, _, _, on.setCan 0 { running := true, st := 1, bufs := [(31, { st := 1 })] }, by decide, by decide,
     by decide, by decide, rfl, by decide⟩,
   ⟨0, 0, on.setCan 0 { running := true, st := 1, bufs := [(0, { st := 4 })] }, by decide, by decide, by decide,
     by decide⟩,
   ⟨0, 31, _, on.setCan 0 { running := true, st := 1, bufs := [(31, { st := 2, tb := 4 })] }, by decide, by decide,
     by decide, rfl⟩,
   ⟨0, on.setCan 0 { running := true, st := 1 }, by decide⟩,
   ⟨0, on.setCan 0 { running := true, st := 1 }, by decide⟩,
   ⟨0, on.setCan 0 { st := 3, recovering := true }, by decide, by decide, by decide⟩,
   ⟨0, on.setCan 0 { st := 4 }, by decide, by decide, by decide⟩,
   ⟨0, on.setCan 0 { stopping := true }, by decide, by decide, by decide⟩⟩

theorem meets_FaultAndWardenCommandsComplete :
    (∃ (mb : Fin 8) (r : Req) (s : State),
      Ready mb.val 0x0A01 r s ∧ u8 r.params 0 ≤ 112 ∧ u8 r.params 0 % 16 = 0) ∧
    (∃ (mb : Fin 8) (r : Req) (s : State),
      Ready mb.val 0x0A02 r s ∧ u8 r.params 0 ≤ 127 ∧ u8 r.params 1 ≠ 0 ∧
      classFits (u8 r.params 0) (u8 r.params 2) = true ∧ 1 ≤ u32 r.params 4 ∧ u32 r.params 4 ≤ 86400000) ∧
    (∃ (mb : Fin 8) (r : Req) (s : State), Ready mb.val 0x0A03 r s ∧ u8 r.params 0 ≤ 127) ∧
    (∃ (mb : Fin 8) (r : Req) (s : State),
      Ready mb.val 0x0A04 r s ∧ u8 r.params 0 ≤ 127 ∧ u8 r.params 1 ≤ 3 ∧
      (s.safetyValid && srcFixed (u8 r.params 0)) = false) ∧
    (∃ (mb : Fin 8) (r : Req) (s : State), Ready mb.val 0x0A11 r s ∧ scriptOk (u8 r.params 0) r.data = true) ∧
    (∃ (mb : Fin 8) (r : Req) (s : State), Ready mb.val 0x0A12 r s ∧ s.warden.mode = false) ∧
    (∃ (mb : Fin 8) (r : Req) (s : State),
      Ready mb.val 0x0A13 r s ∧ s.warden.mode = true ∧ s.warden.cause = 0xFF ∧ s.warden.run ≠ 2) ∧
    (∃ (mb : Fin 8) (r : Req) (s : State), Ready mb.val 0x0A14 r s) :=
  ⟨⟨0, _, post 0x0A01 1 [112], ready_of (by decide), by decide, by decide⟩,
   ⟨0, _, post 0x0A02 8 [127, 255, 5, 0, 0, 92, 38, 5], ready_of (by decide), by decide, by decide, by decide,
     by decide, by decide⟩,
   ⟨0, _, post 0x0A03 1 [127], ready_of (by decide), by decide⟩,
   ⟨0, _, expert (post 0x0A04 2 [127, 3]), ready_of (by decide), by decide, by decide, by decide⟩,
   ⟨0, _,
     withData ([0x44, 0x57, 1, 1] ++ List.replicate 44 0 ++ [1] ++ List.replicate 17 0 ++ [1, 0, 0, 0,
        0xFF] ++ List.replicate 9 0) (post 0x0A11 4 [1]),
     ready_of (by decide), by decide⟩,
   ⟨0, _, post 0x0A12 0 [], ready_of (by decide), by decide⟩,
   ⟨7, _, post 0x0A13 0 [] 0 ({ on with warden.mode := true, warden.cause := 0xFF } : State) 7,
     ready_of (by decide), by decide, by decide, by decide⟩,
   ⟨0, _, post 0x0A14 0 [], ready_of (by decide)⟩⟩

theorem meets_FaultRowsComplete :
    (∃ (src : Source) (s : State),
      src.val < 48 ∧ s.srcRaised src.val = true ∧ s.srcMasked src.val = false ∧ (s.src src.val).input = 1 ∧
      s.warden.safe = false) ∧
    (∃ (src : Source) (s : State), ((s.src src.val).input = 1 ∨ (s.src src.val).input = 2)) ∧
    (∃ (src : Source) (s : State), 56 ≤ src.val ∧ (s.src src.val).pair ≠ 1) ∧
    (∃ (s : State), (s.src 95).input = 1) :=
  ⟨⟨47, on.setSrc 47 { pair := 1 }, by decide, by decide, by decide, by decide, by decide⟩,
   ⟨127, on.setSrc 127 { pair := 1 }, by decide⟩,
   ⟨56, on.setSrc 56 { pair := 2 }, by decide, by decide⟩,
   ⟨on, by decide⟩⟩

theorem meets_WardenRowsComplete :
    (∃ (s : State), s.warden.mode = true ∧ s.warden.cleanup = true ∧ s.warden.safe = false) ∧
    (∃ (x : Step) (s : State),
      s.scriptLive = true ∧ s.warden.started = false ∧ s.tick = s.warden.startAt ∧ s.scriptGroup = [x] ∧
      x.mirror = false ∧ x.op ≠ 6 ∧ (s.can 0).st ≠ 3) ∧
    (∃ (buf : Fin 8) (x : Step) (s : State),
      s.scriptGroup[buf.val]? = some x ∧ s.scriptLive = true ∧ s.warden.started = true ∧
      Tbl.getD 0 s.warden.frames buf.val < x.frames ∧ ((s.can 0).buf buf.val).st ≠ 4 ∧
      s.tick = s.warden.startAt + ticksMs (Tbl.getD 0 s.warden.frames buf.val * x.period) ∧
      (s.can 0).running = true ∧ (s.can 0).st ≠ 3) ∧
    (∃ (f : CanFrame) (x : Step) (s : State),
      s.scriptGroup = [x] ∧ s.scriptLive = true ∧ s.warden.started = true ∧ s.canLive 0 = true ∧ x.op = 5 ∧
      s.warden.matched = [] ∧ x.id = f.id ∧ x.ext = f.ext ∧ x.fpos + x.width ≤ f.data.length ∧
      x.readField f.data ≤ x.limit ∧ s.tick ≤ s.stepEnd x) ∧
    (∃ (x : Step) (s : State),
      s.scriptLive = true ∧ s.warden.started = true ∧ s.scriptGroup = [x] ∧ x.op = 4 ∧ s.warden.matched = []) ∧
    (∃ (s : State), s.warden.safe = false ∧ s.warden.aliveRun = true) ∧
    (∃ (ago : Nat) (s : State),
      s.warden.safe = false ∧ s.warden.aliveRun = true ∧ s.campion.selfOk = true ∧ ago ≤ ticksUs 500) ∧
    (∃ (s : State), s.warden.safe = false ∧ s.warden.aliveRun = true ∧ s.campion.selfOk = false) ∧
    (∃ (s : State),
      s.warden.safe = true ∧ s.fld 0xC48 11 0 ≠ 0 ∧ s.keeper.holdTimes.length < 3 ∧ s.boot.resetReq = none) :=
  ⟨⟨({ on with warden.mode := true, warden.cleanup := true } : State), by decide, by decide, by decide⟩,
   ⟨_, ({ on with warden.mode := true, warden.script := some { steps := [{ op := 1, duration := 1 }] } } : State),
     by decide, by decide, by decide, rfl, by decide, by decide, by decide⟩,
   ⟨0, _,
     ({ (({ on with warden.mode := true, warden.script := some { steps := [{ op := 2, dlc := 1, period := 10, duration := 1 }] }, warden.started := true } : State).setCan 0 { running := true, st := 1 }) with mgmtDown := none } : State),
     rfl, by decide, by decide, by decide, by decide, by decide, by decide, by decide⟩,
   ⟨{ id := 5, data := [0, 0, 0, 0, 0, 0, 0, 0] }, _,
     ({ on with warden.mode := true, warden.script := some { steps := [{ op := 5, id := 5, duration := 1 }] }, warden.started := true } : State).setCan 0 { running := true, st := 1 },
     rfl, by decide, by decide, by decide, by decide, by decide, by decide, by decide, by decide, by decide,
     by decide⟩,
   ⟨_,
     ({ on with warden.mode := true, warden.script := some { steps := [{ op := 4, duration := 1 }] }, warden.started := true } : State),
     by decide, by decide, rfl, by decide, by decide⟩,
   ⟨({ on with warden.aliveRun := true } : State), by decide, by decide⟩,
   ⟨50000, ({ on with warden.aliveRun := true } : State), by decide, by decide, by decide, by decide⟩,
   ⟨({ on with warden.aliveRun := true, campion.selfOk := false } : State), by decide, by decide, by decide⟩,
   ⟨({ on.setReg 0xC48 0xE10 with warden.safe := true } : State), by decide, by decide, by decide, by decide⟩⟩

theorem meets_IntegrityCommandsComplete :
    (∃ (mb : Fin 8) (r : Req) (s : State), Ready mb.val 0x0901 r s ∧ u8 r.params 0 < 0x14) ∧
    (∃ (mb : Fin 8) (r : Req) (s : State),
      Ready mb.val 0x0902 r s ∧ u8 r.params 0 ≤ 0x0D ∧ u8 r.params 1 ≤ 1 ∧ u8 r.params 2 ≤ 1 ∧
      s.rgnState (u8 r.params 0) = 0) ∧
    (∃ (mb : Fin 8) (r : Req) (s : State),
      Ready mb.val 0x0903 r s ∧ u8 r.params 0 ≤ 0x0D ∧ u8 r.params 1 ≤ 32 ∧ u8 r.params 1 % 4 = 0 ∧
      u16 r.params 2 = 0 ∧ s.integ.rsActive = false ∧
      runCount (u8 r.params 1) (s.regionPages (u8 r.params 0)) (s.rgnRuns (u8 r.params 0)) = s.regionPages (u8 r.params 0)) ∧
    (∃ (mb : Fin 8) (r : Req) (s : State) (n : Nat),
      Ready mb.val 0x0903 r s ∧ u8 r.params 0 ≤ 0x0D ∧ u8 r.params 1 ≤ 32 ∧ u8 r.params 1 % 4 = 0 ∧
      u16 r.params 2 = 0 ∧ s.integ.rsActive = false ∧
      n = s.regionPages (u8 r.params 0) - runCount (u8 r.params 1) (s.regionPages (u8 r.params 0)) (s.rgnRuns (u8 r.params 0)) ∧
      n ≠ 0) ∧
    (∃ (mb : Fin 8) (r : Req) (s : State), Ready mb.val 0x0904 r s ∧ u8 r.params 0 ≤ 1 ∧ u16 r.params 2 ≠ 0) ∧
    (∃ (mb : Fin 8) (r : Req) (s : State), Ready mb.val 0x0905 r s) ∧
    (∃ (mb : Fin 8) (r : Req) (s : State), Ready mb.val 0x0906 r s ∧ u8 r.params 0 ≤ 15 ∧ u8 r.params 1 = 0) ∧
    (∃ (mb : Fin 8) (r : Req) (s : State),
      Ready mb.val 0x0907 r s ∧ u8 r.params 0 < 0x14 ∧ u8 r.params 0 ≠ 0x0F ∧
      u32 r.params 4 < s.regionPages (u8 r.params 0) ∧ u16 r.params 8 < 4096 ∧ s.rgnState (u8 r.params 0) = 0) :=
  ⟨⟨0, _, post 0x0901 1 [19], ready_of (by decide), by decide⟩,
   ⟨0, _, post 0x0902 3 [13, 1, 1], ready_of (by decide), by decide, by decide, by decide, by decide⟩,
   ⟨0, _, post 0x0903 4 [0, 8], ready_of (by decide), by decide, by decide, by decide, by decide, by decide,
     by decide⟩,
   ⟨0, _, post 0x0903 4 [0, 32], _, ready_of (by decide), by decide, by decide, by decide, by decide, by decide,
     rfl, by decide⟩,
   ⟨0, _, post 0x0904 4 [1, 0, 1], ready_of (by decide), by decide, by decide⟩,
   ⟨0, _, post 0x0905 1 [], ready_of (by decide)⟩,
   ⟨0, _, expert (post 0x0906 2 [15]), ready_of (by decide), by decide, by decide⟩,
   ⟨0, _, expert (post 0x0907 12 [13, 0, 0, 0, 127, 0, 0, 0, 255, 15]), ready_of (by decide), by decide, by decide,
     by decide, by decide, by decide⟩⟩

theorem meets_PageRowsComplete :
    (∃ (g : PageRef) (n : Nat) (s : State),
      s.pageOk g = true ∧ n ≠ 0 ∧ s.lineValid g.region g.page g.offset = true) ∧
    (∃ (g : PageRef) (t : State) (s : State),
      s.pageOk g = true ∧ s.lazyNow g.region g.page = true ∧ (s.note g.region g.page).stale = false ∧
      writeLine g.region g.page (g.offset / 64 % 64) s = t ∧
      (t.staleOf (isExt g.region)).length < t.staleDepth (isExt g.region)) ∧
    (∃ (g : PageRef) (n : PageNote) (l : List PageNote) (s : State),
      s.staleOf (isExt g.region) = n :: l ∧ n.region = g.region ∧ n.page = g.page ∧ s.warden.safe = false) ∧
    (∃ (g : PageRef) (s : State),
      s.pageOk g = true ∧ s.flag 0x5000 0 = true ∧ (s.note g.region g.page).stale = false ∧
      (s.note g.region g.page).poisoned = false ∧ s.visitDue g.region g.page = true) ∧
    (∃ (g : PageRef) (byteOff : Nat) (s : State),
      s.flag 0x5040 0 = true ∧ s.fld 0x5040 12 8 = g.region ∧ s.fld 0x5044 23 0 = g.page ∧
      s.fld 0x5048 11 0 = byteOff ∧ s.warden.safe = false) ∧
    (∃ (p : Nat) (s : State),
      s.integ.rsActive = true ∧ s.flag 0x5000 0 = true ∧ s.warden.mode = false ∧ s.warden.safe = false ∧
      s.integ.rsStep ≠ 7 ∧ nextOff s.integ.rsT s.integ.rsNext (s.region s.integ.rsRegion).runs = some p ∧
      p < s.regionPages s.integ.rsRegion) ∧
    (∃ (s : State), s.warden.safe = false ∧ s.warden.mode = true) ∧
    (∃ (s : State), s.warden.safe = false ∧ s.warden.mode = false ∧ s.flag 0x5000 0 = false) ∧
    (∃ (s : State),
      s.warden.safe = false ∧ s.integ.rotPhase = 1 ∧ s.integ.rotRetire = false ∧ s.integ.rotBank < 14) ∧
    (∃ (b : Fin 17) (s : State),
      s.integ.due.contains (0x100, b.val) = true ∧ s.warden.safe = false ∧ s.integ.rotRetired = false ∧
      s.integ.rotPhase = 0) ∧
    (∃ (g : PageRef) (s : State),
      s.integ.due.contains (g.region, g.page) = true ∧ s.warden.safe = false ∧ isExt g.region = true ∧
      ({ s with integ.due := s.integ.due.filter (· != (g.region, g.page)) } : State).sparesLeft = 0) ∧
    (∃ (g : PageRef) (s : State),
      s.integ.due.contains (g.region, g.page) = true ∧ s.warden.safe = false ∧ isExt g.region = true ∧
      ({ s with integ.due := s.integ.due.filter (· != (g.region, g.page)) } : State).sparesLeft ≠ 0) :=
  ⟨⟨{ region := 0, page := 127 }, 1, ({ on with integ.cleared := [(1, 1)] } : State), by decide, by decide,
     by decide⟩,
   ⟨{ region := 0, page := 0 }, _, on, by decide, by decide, by decide, rfl, by decide⟩,
   ⟨{ region := 0, page := 5 }, _, _,
     ({ on with integ.notes := [{ region := 0, page := 5, stale := true }] } : State), rfl, by decide, by decide,
     by decide⟩,
   ⟨{ region := 0, page := 0 }, on.setReg 0x5000 1, by decide, by decide, by decide, by decide, by decide⟩,
   ⟨{ region := 1, page := 5 }, 4095, ((on.setReg 0x5040 0x101).setReg 0x5044 5).setReg 0x5048 0xFFF, by decide,
     by decide, by decide, by decide, by decide⟩,
   ⟨0,
     ({ on with integ.rsActive := true, integ.rsRegion := 0, integ.rsT := 8, integ.regions := [(0, { runs := [(0, 4)] })] } : State).setReg 0x5000 1,
     by decide, by decide, by decide, by decide, by decide, by decide, by decide⟩,
   ⟨({ on with warden.mode := true } : State), by decide, by decide⟩,
   ⟨on.setReg 0x5000 0, by decide, by decide, by decide⟩,
   ⟨({ on with integ.rotPhase := 1, integ.rotBank := 13 } : State), by decide, by decide, by decide, by decide⟩,
   ⟨15, ({ on with integ.due := [(0x100, 15)] } : State), by decide, by decide, by decide, by decide⟩,
   ⟨{ region := 0x10, page := 5 }, ({ on with integ.due := [(0x10, 5)], boot.ddrMiB := 0 } : State), by decide,
     by decide, by decide, by decide⟩,
   ⟨{ region := 0x10, page := 5 }, ({ on with integ.due := [(0x10, 5)] } : State), by decide, by decide, by decide,
     by decide⟩⟩

theorem meets_PowerDomainCommandsComplete :
    (∃ (mb : Fin 8) (r : Req) (s : State),
      Ready mb.val 0x0B10 r s ∧ u8 r.params 0 = 0 ∧ domLists (tIndex r.target) 0 = true ∧ tIndex r.target ≠ 0x20 ∧
      (s.dom (tIndex r.target)).st = 0 ∧ (s.dom (tIndex r.target)).entry = none) ∧
    (∃ (mb : Fin 8) (r : Req) (s : State),
      Ready mb.val 0x0B10 r s ∧ 1 ≤ u8 r.params 0 ∧ u8 r.params 0 ≤ 2 ∧
      domLists (tIndex r.target) (u8 r.params 0) = true ∧ tIndex r.target ≠ 0x20 ∧
      (s.dom (tIndex r.target)).st = 0 ∧ (s.dom (tIndex r.target)).entry = none ∧
      (s.dom (tIndex r.target)).wake = none ∧ s.mayLeave (some r.mb) (tIndex r.target) (u8 r.params 0) = true) ∧
    (∃ (mb : Fin 8) (r : Req) (s : State),
      Ready mb.val 0x0B11 r s ∧ 100 ≤ u32 r.params 0 ∧ u32 r.params 0 ≤ 60000000 ∧ 1 ≤ u8 r.params 4 ∧
      u8 r.params 4 ≤ 2 ∧ u32 r.params 8 < 64 ∧ domLists (tIndex r.target) (u8 r.params 4) = true) ∧
    (∃ (mb : Fin 8) (r : Req) (s : State), Ready mb.val 0x0B12 r s) ∧
    (∃ (mb : Fin 8) (r : Req) (s : State), Ready mb.val 0x0B13 r s) :=
  ⟨⟨0, _, post 0x0B10 1 [] (tgt 6 0x1F), ready_of (by decide), by decide, by decide, by decide, by decide,
     by decide⟩,
   ⟨0, _, post 0x0B10 1 [2] (tgt 6 8), ready_of (by decide), by decide, by decide, by decide, by decide, by decide,
     by decide, by decide, by decide⟩,
   ⟨0, _, post 0x0B11 12 [0, 135, 147, 3, 2, 0, 0, 0, 63] (tgt 6 9), ready_of (by decide), by decide, by decide,
     by decide, by decide, by decide, by decide⟩,
   ⟨0, _, post 0x0B12 0 [] (tgt 6 0x20), ready_of (by decide)⟩,
   ⟨0, _, post 0x0B13 0 [], ready_of (by decide)⟩⟩

theorem meets_PowerDomainAndKeeperRowsComplete :
    (∃ (d : Fin 33) (t : Nat) (why : Nat) (s : State),
      (s.dom d.val).entry = some (t, why) ∧ s.warden.safe = false ∧ s.warden.mode = false ∧ (s.dom d.val).ap < 3) ∧
    (∃ (d : Fin 33) (t : Nat) (why : Nat) (s : State),
      (s.dom d.val).entry = some (t, why) ∧ s.warden.safe = false ∧ (s.dom d.val).ap = 3 ∧ isGrp d.val = false ∧
      (s.dom d.val).wakeAfter = none) ∧
    (∃ (d : Fin 33) (src : Fin 16) (s : State),
      domainExists s.variant d.val = true ∧ s.boot.up = true ∧ s.wakeEnabled d.val src.val = true) ∧
    (∃ (d : Fin 33) (src : Nat) (t0 : Nat) (s : State),
      (s.dom d.val).wake = some (src, t0) ∧ s.warden.safe = false ∧ isGrp d.val = false ∧ d.val ≠ 2 ∧
      (s.dom d.val).deferred = none ∧ s.variant = .svh16) ∧
    (∃ (d : Fin 33) (s : State),
      s.idleRuns d.val = true ∧ (s.dom d.val).st = 0 ∧ (s.dom d.val).entry = none ∧ (s.dom d.val).wake = none ∧
      s.tick = (s.dom d.val).idleAt + ticksUs (s.fld (domBase d.val + 4) 25 0) ∧
      domLists d.val (s.fld (domBase d.val) 3 2) = true ∧ s.mayLeave none d.val (s.fld (domBase d.val) 3 2) = true) ∧
    (∃ (mv : Nat) (k : Nat) (s : State), s.power.vcorePend = some (mv, k)) ∧
    (∃ (mv : Nat) (s : State), s.power.vcorePend = some (mv, 1)) ∧
    (∃ (mv : Nat) (s : State), s.power.vcorePend = some (mv, 2) ∧ mv ≠ 800) ∧
    (∃ (i : Fin 4) (s : State),
      bit s.keeper.wakeCfg i.val = true ∧ bits s.keeper.wakeCfg (5 + 2 * i.val) (4 + 2 * i.val) = 2 ∧
      s.boot.up = false) ∧
    (∃ (s : State), s.warden.safe = false ∧ s.boot.up = true) ∧
    (∃ (s : State), s.warden.safe = false ∧ s.boot.up = true ∧ s.chicory.wall.valid = true) ∧
    (∃ (s : State),
      s.reg 0x6014 + 4294967296 * s.reg 0x6018 ≠ 0 ∧ s.power.alarmDone = false ∧ s.warden.safe = false) ∧
    (∃ (s : State), s.boot.up = true ∧ s.warden.safe = false) ∧
    (∃ (s : State), s.keeper.vbakLow = false ∧ s.boot.up = false) ∧
    (∃ (s : State), s.keeper.vbakLow = true) :=
  ⟨⟨0x10, 1, 2, on.setDom 0x10 { entry := some (1, 2) }, by decide, by decide, by decide, by decide⟩,
   ⟨0x10, 1, 2, on.setDom 0x10 { entry := some (1, 2), ap := 3 }, by decide, by decide, by decide, by decide,
     by decide⟩,
   ⟨2, 8, on, by decide, by decide, by decide⟩,
   ⟨9, 8, 0, ({ (on.setDom 9 { wake := some (8, 0) }) with variant := .svh16 } : State), by decide, by decide,
     by decide, by decide, by decide, by decide⟩,
   ⟨9, ({ ((on.setReg 0x6000 1).setReg 0x6190 5).setReg 0x6194 100 with tick := 10000 } : State), by decide,
     by decide, by decide, by decide, by decide, by decide, by decide⟩,
   ⟨700, 1, ({ on with power.vcorePend := some (700, 1) } : State), by decide⟩,
   ⟨700, ({ on with power.vcorePend := some (700, 1) } : State), by decide⟩,
   ⟨700, ({ on with power.vcorePend := some (700, 2) } : State), by decide, by decide⟩,
   ⟨3, ({ State.reset with keeper.wakeCfg := 2 ^ 3 + 2 ^ 11 } : State), by decide, by decide, by decide⟩,
   ⟨on, by decide, by decide⟩,
   ⟨({ on with chicory.wall.valid := true } : State), by decide, by decide, by decide⟩,
   ⟨on.setReg 0x6014 1, by decide, by decide, by decide⟩,
   ⟨on, by decide, by decide⟩,
   ⟨State.reset, by decide, by decide⟩,
   ⟨({ on with keeper.vbakLow := true } : State), by decide⟩⟩

theorem meets_FirmwareCommandsComplete :
    (∃ (mb : Fin 8) (r : Req) (s : State), Ready mb.val 0x0C01 r s ∧ s.boot.pendingAct = none) ∧
    (∃ (mb : Fin 8) (r : Req) (n : Bool) (s : State),
      Ready mb.val 0x0C02 r s ∧ slotArg r = some n ∧ 1 ≤ u32 r.params 4 ∧ u32 r.params 4 ≤ 1835008 ∧
      s.fwLocked = false ∧ s.boot.running ≠ n ∧ (s.boot.slot n).st ≠ 5 ∧ (s.boot.slot n).st ≠ 1) ∧
    (∃ (mb : Fin 8) (r : Req) (n : Bool) (s : State),
      Ready mb.val 0x0C03 r s ∧ slotArg r = some n ∧ r.hasData = true ∧ (s.boot.slot n).st = 2 ∧
      u32 r.params 4 = (s.boot.slot n).bytes.length ∧
      (s.boot.slot n).bytes.length + r.data.length ≤ (s.boot.slot n).size ∧ s.fwLocked = false) ∧
    (∃ (mb : Fin 8) (r : Req) (n : Bool) (s : State), Ready mb.val 0x0C04 r s ∧ slotArg r = some n) ∧
    (∃ (mb : Fin 8) (r : Req) (n : Bool) (s : State),
      Ready mb.val 0x0C05 r s ∧ slotArg r = some n ∧ u8 r.params 1 ≤ 1 ∧ s.fwLocked = false ∧ (s.boot.slot n).st = 4) ∧
    (∃ (mb : Fin 8) (r : Req) (n : Bool) (s : State),
      Ready mb.val 0x0C06 r s ∧ slotArg r = some n ∧ s.fwLocked = false ∧ s.boot.pendingAct = none) ∧
    (∃ (b : Bool) (s : State), (s.boot.slot b).st = 1 ∧ s.boot.dark = false ∧ s.warden.safe = false) ∧
    (∃ (mb : Fin 8) (r : Req) (s : State), Ready mb.val 0x0C11 r s ∧ u32 r.params 0 ≤ s.boot.norProfile.length) ∧
    (∃ (mb : Fin 8) (r : Req) (s : State),
      Ready mb.val 0x0C12 r s ∧ r.hasData = true ∧ 16 ≤ u32 r.params 0 ∧ u32 r.params 0 ≤ 65536 ∧
      r.data.length = u32 r.params 0 ∧ u32 r.data 8 = u32 r.params 4 ∧ crc32 (r.data.drop 16) = u32 r.params 4) :=
  ⟨⟨0, _, post 0x0C01 0 [], ready_of (by decide), by decide⟩,
   ⟨0, _, true, post 0x0C02 8 [1, 0, 0, 0, 0, 0, 28], ready_of (by decide), by decide, by decide, by decide,
     by decide, by decide, by decide, by decide⟩,
   ⟨0, _, true,
     withData [1, 2, 3] (post 0x0C03 8 [1] 0 ({ on with boot.slotB := { st := 2, size := 3 } } : State)),
     ready_of (by decide), by decide, by decide, by decide, by decide, by decide, by decide⟩,
   ⟨0, _, true, post 0x0C04 1 [1], ready_of (by decide), by decide⟩,
   ⟨0, _, true, post 0x0C05 16 [1, 1] 0 ({ on with boot.slotB := { st := 4 } } : State), ready_of (by decide),
     by decide, by decide, by decide, by decide⟩,
   ⟨0, _, true, post 0x0C06 1 [1], ready_of (by decide), by decide, by decide, by decide⟩,
   ⟨true, ({ on with boot.slotB := { st := 1 } } : State), by decide, by decide, by decide⟩,
   ⟨0, _, post 0x0C11 4 [], ready_of (by decide), by decide⟩,
   ⟨0, _, withData (List.replicate 16 0) (post 0x0C12 8 [16]), ready_of (by decide), by decide, by decide,
     by decide, by decide, by decide, by decide⟩⟩

theorem meets_TestCommandsComplete :
    (∃ (mb : Fin 8) (r : Req) (s : State),
      Ready mb.val 0x0E01 r s ∧ u8 r.params 0 ≤ 7 ∧ u8 r.params 1 ≤ 7 ∧ u16 r.params 2 ≠ 0xFFFF ∧
      s.tmuxCode (u8 r.params 1) (u16 r.params 2) = true) ∧
    (∃ (mb : Fin 8) (r : Req) (s : State),
      Ready mb.val 0x0E02 r s ∧ tScope r.target = 1 ∧ r.params = [] ∧ s.safetyGroup (tIndex r.target) = false ∧
      s.groupUp (tIndex r.target) = true ∧ s.test.bist = 0) ∧
    (∃ (mb : Fin 8) (r : Req) (s : State),
      Ready mb.val 0x0E03 r s ∧ 1 ≤ u16 r.params 0 ∧ u16 r.params 0 ≤ 1000 ∧ s.portSlots (tIndex r.target) = [] ∧
      (s.port (tIndex r.target)).usb.transparent = false ∧ s.test.loopPort = none) ∧
    (∃ (mb : Fin 8) (r : Req) (s : State), Ready mb.val 0x0E04 r s) ∧
    (∃ (s : State),
      s.warden.safe = false ∧ s.test.bist = 1 ∧
      (s.chanSet.any fun e => e.2.grp == s.test.bistOf && e.2.pausing) = false) ∧
    (∃ (p : Nat) (s : State), s.test.loopPort = some p ∧ s.test.loopEnd ≠ 0 ∧ s.warden.safe = false) ∧
    (∃ (low : Bool) (s : State), s.test.tap.st = 4 ∧ (s.test.tap.resetLow && !low) = false) :=
  ⟨⟨0, _, expert (post 0x0E01 4 [7, 0, 55, 16]), ready_of (by decide), by decide, by decide, by decide, by decide⟩,
   ⟨0, _, expert (post 0x0E02 0 [] (tgt 1 5)), ready_of (by decide), by decide, by decide, by decide, by decide,
     by decide⟩,
   ⟨0, _, expert (post 0x0E03 2 [232, 3] (tgt 2 47)), ready_of (by decide), by decide, by decide, by decide,
     by decide, by decide⟩,
   ⟨0, _, post 0x0E04 0 [], ready_of (by decide)⟩,
   ⟨({ on with test.bist := 1 } : State), by decide, by decide, by decide⟩,
   ⟨0, ({ on with test.loopPort := some 0, test.loopEnd := 1 } : State), by decide, by decide, by decide⟩,
   ⟨true, ({ on with test.tap.st := 4, test.tap.resetLow := true } : State), by decide, by decide⟩⟩

theorem meets_MailboxRowsComplete :
    (∃ (n : Fin 8) (s : State), s.hostWrites = true ∧ (s.mb n.val).state = .idle) ∧
    (∃ (n : Fin 8) (s : State), s.hostWrites = true ∧ (s.mb n.val).state ≠ .idle) ∧
    (∃ (s : State), s.hostWrites = true) ∧
    (∃ (s : State), s.hostWrites = true) ∧
    (∃ (mask : Byte) (s : State),
      s.hostWrites = true ∧ mask ≠ 0 ∧ s.warden.safe = false ∧ s.warden.mode = true ∧ (s.dom 2).st = 0 ∧
      (s.dom 2).entry = none) ∧
    (∃ (b : List Byte) (s : State), s.hostWrites = true ∧ b.length ≠ 64) ∧
    (∃ (b : List Byte) (s : State), s.hostWrites = true ∧ b.length = 64 ∧ s.avail = 0) ∧
    (∃ (b : List Byte) (s : State),
      s.hostWrites = true ∧ b.length = 64 ∧ s.avail ≠ 0 ∧
      ((s.mb (u32 b 0 % 8)).state ≠ .posted ∨ (s.mb (u32 b 0 % 8)).data = false ∨ (s.mb (u32 b 0 % 8)).dead = true)) ∧
    (∃ (b : List Byte) (n : Nat) (t : State) (s : State),
      s.hostWrites = true ∧ b.length = 64 ∧ s.avail ≠ 0 ∧ s.flag 0x110 0 = true ∧ u32 b 0 % 8 = n ∧
      (s.mb n).state = .posted ∧ (s.mb n).data = true ∧ (s.mb n).dead = false ∧ unitIn n s = t ∧
      (t.mb n).takesUnits = true ∧ (t.mb n).lastSeen = false ∧ bits (u32 b 0) 31 16 = (t.mb n).nextUnit) ∧
    (∃ (mb : Fin 8) (s : State),
      (s.mb mb.val).takesUnits = true ∧ (s.mb mb.val).lastSeen = false ∧ s.warden.safe = false) ∧
    (∃ (mb : Fin 8) (r : Resp) (s : State),
      (s.mb mb.val).state = .posted ∧ (s.mb mb.val).phase = .answered r ∧ s.hostOn = true ∧ s.warden.safe = false ∧
      (s.warden.mode = true ∨ s.mgmtDown = none)) ∧
    (∃ (b : List Byte) (s : State),
      s.hostWrites = true ∧ s.usbHost = true ∧ s.hub.suspended = false ∧ s.hub.casideSuspended = false ∧
      20 ≤ b.length ∧ u8 b 0 ≤ 7 ∧ allZero b 1 4 = true ∧ b.length = 20 + u16 b 16 ∧ (s.mb (u8 b 0)).state = .idle) ∧
    (∃ (b : List Byte) (s : State),
      s.hostWrites = true ∧ s.usbHost = true ∧ s.hub.suspended = false ∧ s.hub.casideSuspended = false ∧
      b.length < 20) :=
  ⟨⟨7, on, by decide, by decide⟩,
   ⟨7, on.setMb 7 { state := .posted }, by decide, by decide⟩,
   ⟨on, by decide⟩,
   ⟨on, by decide⟩,
   ⟨1, ({ on with warden.mode := true } : State), by decide, by decide, by decide, by decide, by decide, by decide⟩,
   ⟨[], on, by decide, by decide⟩,
   ⟨List.replicate 64 0, ({ on with cci.credits := 0 } : State), by decide, by decide, by decide⟩,
   ⟨List.replicate 64 0, on, by decide, by decide, by decide, by decide⟩,
   ⟨List.replicate 64 0, 0, _, (on.setMb 0 { state := .posted, data := true }).setReg 0x110 1, by decide,
     by decide, by decide, by decide, by decide, by decide, by decide, by decide, rfl, by decide, by decide,
     by decide⟩,
   ⟨0, on.setMb 0 { state := .posted, data := true }, by decide, by decide, by decide⟩,
   ⟨7, {}, on.setMb 7 { state := .posted, phase := .answered {} }, by decide, by decide, by decide, by decide,
     by decide⟩,
   ⟨[7] ++ List.replicate 19 0, on, by decide, by decide, by decide, by decide, by decide, by decide, by decide,
     by decide, by decide⟩,
   ⟨[], on, by decide, by decide, by decide, by decide, by decide⟩⟩

theorem meets_QueueReadRowsComplete :
    (∃ (s : State), s.hostOn = true) ∧
    (∃ (w : Fin 17) (s : State), s.hostOn = true ∧ w.val < 16) ∧
    (∃ (s : State), s.hostOn = true) ∧
    (∃ (s : State), s.hostOn = true ∧ s.usbHost = true ∧ s.hub.suspended = false ∧ s.hub.casideSuspended = false) ∧
    (∃ (s : State), s.hostOn = true ∧ s.usbHost = true ∧ s.hub.suspended = false ∧ s.hub.casideSuspended = false) :=
  ⟨⟨on, by decide⟩,
   ⟨15, on, by decide, by decide⟩,
   ⟨on, by decide⟩,
   ⟨on, by decide, by decide, by decide, by decide⟩,
   ⟨on, by decide, by decide, by decide, by decide⟩⟩

theorem meets_RegisterWriteRowsComplete :
    (∃ (off : BitVec 16) (val : Word) (s : State),
      s.hostWrites = true ∧ off.toNat % 4 = 0 ∧ off.toNat < 0x7000 ∧ val.toNat &&& rsvMask s.variant off.toNat = 0) ∧
    (∃ (off : BitVec 16) (s : State),
      s.hostWrites = true ∧ off.toNat % 4 = 0 ∧ 0x7000 ≤ off.toNat ∧ off.toNat < 0x8000) ∧
    (∃ (val : Word) (s : State), s.hostWrites = true ∧ val.toNat < 1024) ∧
    (∃ (s : State), s.hostWrites = true) ∧
    (∃ (val : Word) (s : State), s.hostWrites = true ∧ s.variant = .svh48 ∧ val.toNat < 65536) ∧
    (∃ (off : BitVec 16) (s : State), s.hostWrites = true ∧ off.toNat % 4 = 0 ∧ 0x8000 ≤ off.toNat) ∧
    (∃ (s : State), s.hostWrites = true ∧ (∀ p ∈ s.hrs.posted, p.dom ≠ 0)) ∧
    (∃ (d : Fin 3) (p : Posted) (l : List Posted) (s : State), s.hrs.posted = p :: l ∧ p.dom = d.val) ∧
    (∃ (val : Word) (s : State),
      s.hostWrites = true ∧ s.windowOpen 5 = true ∧ val.toNat &&& rsvMask s.variant 0x6010 = 0) ∧
    (∃ (s : State), s.hostWrites = true) ∧
    (∃ (s : State), s.hostWrites = true) ∧
    (∃ (sel : Nat) (code : Nat) (s : State),
      s.hostWrites = true ∧ s.cci.expert.contains 0x0E = true ∧ s.boot.otpTmuxOff = false ∧ sel ≤ 5 ∧ code < 65535 ∧
      s.tmuxCode sel code = true) :=
  ⟨⟨0x6FFC, 0, on, by decide, by decide, by decide, by decide⟩,
   ⟨0x7000, on, by decide, by decide, by decide, by decide⟩,
   ⟨1023, on, by decide, by decide⟩,
   ⟨on, by decide⟩,
   ⟨65535, on, by decide, by decide, by decide⟩,
   ⟨0xFFFC, on, by decide, by decide, by decide⟩,
   ⟨on, by decide, by decide⟩,
   ⟨2, { dom := 2 }, [], ({ on with hrs.posted := [{ dom := 2 }] } : State), by decide, by decide⟩,
   ⟨1, ({ on with cci.expert := [0x0B] } : State), by decide, by decide, by decide⟩,
   ⟨on, by decide⟩,
   ⟨on, by decide⟩,
   ⟨5, 0x5001, ({ on with cci.expert := [0x0E] } : State), by decide, by decide, by decide, by decide, by decide,
     by decide⟩⟩

theorem meets_RegisterReadRowsComplete :
    (∃ (off : BitVec 16) (s : State),
      s.hostOn = true ∧ off.toNat % 4 = 0 ∧ off.toNat < 0x8000 ∧ Tbl.getD none s.hrs.latched off.toNat = none) ∧
    (∃ (off : BitVec 16) (s : State),
      s.hostOn = true ∧ off.toNat % 4 = 0 ∧ off.toNat < 0x8000 ∧ Tbl.getD none s.hrs.latched off.toNat = none) ∧
    (∃ (off : BitVec 16) (s : State),
      s.hostOn = true ∧ off.toNat % 4 = 0 ∧ 0x8000 ≤ off.toNat ∧ noMirror (mirrorBit off.toNat).1 = false) :=
  ⟨⟨0x7FFC, on, by decide, by decide, by decide, by decide⟩,
   ⟨0, on, by decide, by decide, by decide, by decide⟩,
   ⟨0x8000, on, by decide, by decide, by decide, by decide⟩⟩

theorem meets_RegisterPathRowsComplete :
    (∃ (s : State), s.hostOn = true ∧ s.usbHost = true) ∧
    (∃ (off : BitVec 16) (len : Nat) (s : State),
      s.hostOn = true ∧ s.usbHost = true ∧ rangeBad off.toNat len = true) ∧
    (∃ (off : BitVec 16) (len : Nat) (data : List Byte) (t : State) (s : State),
      s.hostWrites = true ∧ s.usbHost = true ∧ rangeBad off.toNat len = false ∧ data.length = len ∧
      writeFrame off.toNat data s = some t) ∧
    (∃ (n : Fin 8) (s : State), s.hostWrites = true ∧ s.usbHost = true ∧ (s.mb n.val).state ≠ .posted) ∧
    (∃ (h : List Byte) (st : Nat) (n : Nat) (t : State) (s : State),
      s.spiOn = true ∧ h.length = 4 ∧ u8 h 0 = 3 ∧ rangeBad (spiOff h) (4 * spiCount h) = false ∧ st ≤ 32 ∧
      readFrame (spiOff h) (spiCount h) (spiStatus 0 s) = t ∧ st + 2 + t.rdata.length ≤ n) ∧
    (∃ (h : List Byte) (st : Nat) (n : Nat) (t : State) (s : State),
      s.spiOn = true ∧ h.length = 4 ∧ u8 h 0 = 3 ∧ rangeBad (spiOff h) (4 * spiCount h) = false ∧
      readFrame (spiOff h) (spiCount h) (spiStatus 0 s) = t ∧ (n < st + 2 + t.rdata.length ∨ 32 < st)) ∧
    (∃ (b : List Byte) (t : State) (s : State),
      s.spiOn = true ∧ s.hostWrites = true ∧ 5 + 4 * spiCount b ≤ b.length ∧ u8 b 0 = 2 ∧
      rangeBad (spiOff b) (4 * spiCount b) = false ∧
      crc8 (b.take (4 + 4 * spiCount b)) = u8 b (4 + 4 * spiCount b) ∧
      writeFrame (spiOff b) (slice b 4 (4 * spiCount b)) s = some t) ∧
    (∃ (b : List Byte) (s : State),
      s.spiOn = true ∧ 5 + 4 * spiCount b ≤ b.length ∧ u8 b 0 = 2 ∧ rangeBad (spiOff b) (4 * spiCount b) = false ∧
      crc8 (b.take (4 + 4 * spiCount b)) ≠ u8 b (4 + 4 * spiCount b)) ∧
    (∃ (s : State), s.spiOn = true) ∧
    (∃ (b : List Byte) (s : State), s.spiOn = true ∧ b.length < 4 ∧ u8 b 0 ≠ 5) :=
  ⟨⟨on, by decide, by decide⟩,
   ⟨0xFC, 8, on, by decide, by decide, by decide⟩,
   ⟨0x7000, 4, [0, 0, 0, 0], _, on, by decide, by decide, by decide, by decide, rfl⟩,
   ⟨7, on, by decide, by decide, by decide⟩,
   ⟨[3, 0x70, 0, 15], 32, 98, _, ({ on with straps.hostsel := true } : State), by decide, by decide, by decide,
     by decide, by decide, rfl, by decide +kernel⟩,
   ⟨[3, 0x70, 0, 15], 32, 97, _, ({ on with straps.hostsel := true } : State), by decide, by decide, by decide,
     by decide, rfl, by decide +kernel⟩,
   ⟨[2, 0x70, 0, 0, 0, 0, 0, 0, 0x11], _, ({ on with straps.hostsel := true } : State), by decide, by decide,
     by decide, by decide, by decide, by decide +kernel, (Option.some_get (by decide +kernel)).symm⟩,
   ⟨[2, 0x70, 0, 0, 0, 0, 0, 0, 0xFF], ({ on with straps.hostsel := true } : State), by decide, by decide,
     by decide, by decide, by decide +kernel⟩,
   ⟨({ on with straps.hostsel := true } : State), by decide⟩,
   ⟨[2, 0, 0], ({ on with straps.hostsel := true } : State), by decide, by decide, by decide⟩⟩

theorem meets_ClockRowsComplete :
    (∃ (k : Fin 4) (chg : PinChange) (s : State), s.lineChange k.val chg = .glitch ∧ (s.ang k.val).st ≠ 0) ∧
    (∃ (k : Fin 4) (chg : PinChange) (s : State) (u : State),
      s.lineChange k.val chg = .level ∧ u = s.waitUntil (s.tick + chg.after)) ∧
    (∃ (k : Fin 4) (chg : PinChange) (s : State) (u : State),
      s.lineChange k.val chg = .illegal ∧ (s.ang k.val).st ≠ 0 ∧ u = s.waitUntil (s.tick + chg.after)) ∧
    (∃ (k : Fin 4) (chg : PinChange) (s : State) (u : State),
      s.lineChange k.val chg = .event ∧ (s.ang k.val).st ≠ 0 ∧
      u = (track k.val chg.after s).waitUntil (s.tick + chg.after)) ∧
    (∃ (k : Fin 4) (chg : PinChange) (s : State) (u : State),
      s.lineChange k.val chg = .backward ∧ (s.ang k.val).st ≠ 0 ∧ u = s.waitUntil (s.tick + chg.after)) ∧
    (∃ (k : Fin 4) (s : State),
      (s.ang k.val).st ≠ 0 ∧ (s.ang k.val).fast = false ∧ (s.ang k.val).reverse = false ∧ (s.ang k.val).seen = 0 ∧
      (s.ang k.val).rate = 0 ∧ s.angMode k.val ≠ 3) ∧
    (∃ (k : Fin 4) (s : State),
      (s.ang k.val).st ≠ 0 ∧ (s.ang k.val).fast = false ∧ (s.ang k.val).reverse = false ∧ (s.ang k.val).seen ≠ 0 ∧
      (((refUpdate k.val s).ang k.val).rate = 0 ∨ rateInRange ((refUpdate k.val s).ang k.val).rate = true)) ∧
    (∃ (k : Fin 4) (e : Nat) (s : State),
      (s.ang k.val).edgeAt = some e ∧ s.tick - e < 50 ∧ (s.ang k.val).fast = false) ∧
    (∃ (k : Fin 4) (m : Fin 8) (after : Nat) (hold : Nat) (s : State) (u : State),
      u = s.waitUntil (s.tick + after) ∧ (u.ang k.val).st ≠ 0 ∧ u.fld (angBase k.val + 4) 11 8 = m.val ∧
      (u.angMode k.val = 1 ∨ u.angMode k.val = 2) ∧ hold < u.fld (pcapBase m.val) 23 16) ∧
    (∃ (k : Fin 4) (m : Fin 8) (after : Nat) (hold : Nat) (rising : Bool) (s : State) (u : State),
      u = s.waitUntil (s.tick + after) ∧ (u.ang k.val).st ≠ 0 ∧ u.fld (angBase k.val + 4) 11 8 = m.val ∧
      (u.angMode k.val = 1 ∨ u.angMode k.val = 2) ∧ u.fld (pcapBase m.val) 23 16 ≤ hold ∧
      (u.ang k.val).reverse = false ∧ u.pcapEdge m.val rising = true ∧
      ((u.indexOff k.val).natAbs ≤ 4 ∨ (u.ang k.val).firstIndex = true)) ∧
    (∃ (k : Fin 4) (a : Bool) (s : State),
      (s.ang k.val).st ≠ 0 ∧ s.angMode k.val = 2 ∧ (s.ang k.val).reverse = false ∧ a = s.flag (angBase k.val + 4) 7) ∧
    (∃ (k : Fin 4) (a : Bool) (s : State),
      ((s.ang k.val).st = 1 ∨ (s.ang k.val).st = 2) ∧ s.angMode k.val = 2 ∧ (s.ang k.val).reverse = true ∧
      (s.ang k.val).seen ≠ 0 ∧ a ≠ s.flag (angBase k.val + 4) 7) ∧
    (∃ (k : Fin 4) (s : State), (s.ang k.val).st = 2 ∧ (s.ang k.val).reverse = false) ∧
    (∃ (tb : Fin 5) (s : State), tb.val < 4 ∧ (s.ang tb.val).st = 3) ∧
    (∃ (k : Fin 4) (t : State) (s : State), s.reach k.val ((s.ang k.val).cycle * 65536 + 65536) = some t) ∧
    (∃ (tb : Fin 5) (s : State),
      (tb.val = 4 ∨ s.inUse tb.val = true) ∧ Tbl.getD 0 s.chicory.anchorAt tb.val ≠ s.wallUs / 30000000) :=
  ⟨⟨3, { after := 7, hold := 9, levels := 1 }, on.setAng 3 { st := 1 }, by decide, by decide⟩,
   ⟨3, { after := 7, hold := 10, levels := 0 }, on.setAng 3 { st := 1, lines := 1 }, _, by decide, rfl⟩,
   ⟨3, { after := 7, hold := 10, levels := 3 }, (on.setAng 3 { st := 1 }).setReg 0x10C4 0x00010002, _, by decide,
     by decide, rfl⟩,
   ⟨3, { after := 7, hold := 10, levels := 1 }, on.setAng 3 { st := 1 }, _, by decide, by decide, rfl⟩,
   ⟨3, { after := 7, hold := 10, levels := 2 }, (on.setAng 3 { st := 1 }).setReg 0x10C4 0x00010002, _, by decide,
     by decide, rfl⟩,
   ⟨3, on.setAng 3 { st := 1 }, by decide, by decide, by decide, by decide, by decide, by decide⟩,
   ⟨3,
     ({ (on.setAng 3 { st := 2, seen := 2, rate := 1000000000 }).setReg 0x10C4 0x10000 with tick := 100000000 } : State),
     by decide, by decide, by decide, by decide, by decide +kernel⟩,
   ⟨3, 0, ({ on.setAng 3 { st := 1, edgeAt := some 0 } with tick := 49 } : State), by decide, by decide, by decide⟩,
   ⟨3, 7, 7, 0, ((on.setAng 3 { st := 1 }).setReg 0x10C4 0x00010701).setReg 0x1470 0x10000, _, rfl, by decide,
     by decide, by decide, by decide⟩,
   ⟨3, 7, 7, 0, true, ((on.setAng 3 { st := 1 }).setReg 0x10C4 0x00010702).setReg 0x1470 9, _, rfl, by decide,
     by decide, by decide, by decide, by decide, by decide, by decide⟩,
   ⟨3, false, (on.setAng 3 { st := 1 }).setReg 0x10C4 0x00010002, by decide, by decide, by decide, by decide⟩,
   ⟨3, true, (on.setAng 3 { st := 1, reverse := true, seen := 1 }).setReg 0x10C4 0x00010002, by decide, by decide,
     by decide, by decide, by decide⟩,
   ⟨3, on.setAng 3 { st := 2 }, by decide, by decide⟩,
   ⟨3, on.setAng 3 { st := 3 }, by decide, by decide⟩,
   ⟨0, _, on.setAng 0 { st := 2, rate := 1000000, frac := 0, cycle := 0, angle := 65535 },
     (Option.some_get (by decide +kernel)).symm⟩,
   ⟨4, ({ on with chicory.wall.ns := 30000000000 } : State), by decide, by decide⟩⟩

theorem meets_WallLinkAndPinRowsComplete :
    (∃ (after : Nat) (rising : Bool) (s : State) (u : State),
      u = s.waitUntil (s.tick + after) ∧ u.fld 0x1104 1 0 = 1 ∧ rising ≠ u.flag 0x1104 2) ∧
    (∃ (s : State),
      s.disciplined = true ∧ s.chicory.wall.st ≤ 2 ∧
      ((s.wallOffset 0).natAbs ≤ 1000000 ∨ s.chicory.wall.edgeSeen = true)) ∧
    (∃ (s : State), (s.chicory.wall.st = 1 ∨ s.chicory.wall.st = 2)) ∧
    (∃ (x : LinkPulse) (i : Fin 4) (s : State) (u : State),
      360 + 100 * i.val ≤ x.width ∧ x.width ≤ 440 + 100 * i.val ∧
      u = ((s.linkClocks i.val).foldl (fun s k => track k x.after s) s).waitUntil (s.tick + x.after) ∧
      u.linkOn = true) ∧
    (∃ (x : LinkPulse) (s : State) (u : State),
      960 ≤ x.width ∧ x.width ≤ 1040 ∧ u = s.waitUntil (s.tick + x.after) ∧ u.linkOn = true) ∧
    (∃ (x : LinkPulse) (s : State) (u : State),
      markSlot x.width = none ∧ nearWidth x.width 1000 = false ∧ nearWidth x.width 100 = false ∧
      nearWidth x.width 200 = false ∧ u = s.waitUntil (s.tick + x.after) ∧ u.linkOn = true) ∧
    (∃ (b : Bool) (n : Nat) (s : State),
      s.chicory.plink.rxSkip = false ∧ frameBits (u8 (bitsToBytes 1 (s.chicory.plink.rxBits ++ [b])) 0) = some n ∧
      s.chicory.plink.rxBits.length + 1 = n) ∧
    (∃ (f : List Byte), crc8 f.dropLast ≠ (f.getLastD 0).toNat) ∧
    (∃ (f : List Byte) (i : Fin 4), crc8 f.dropLast = (f.getLastD 0).toNat ∧ u8 f 0 = 16 + i.val) ∧
    (∃ (f : List Byte), crc8 f.dropLast = (f.getLastD 0).toNat ∧ u8 f 0 = 1) ∧
    (∃ (s : State), s.flag 0x1500 2 = true) ∧
    (∃ (m : Fin 8) (after : Nat) (hold : Nat) (rise : Bool) (s : State) (u : State),
      u = s.waitUntil (s.tick + after) ∧ u.flag (pcapBase m.val) 0 = true ∧ u.fld (pcapBase m.val) 23 16 ≤ hold ∧
      u.pcapEdge m.val rise = true ∧ (u.pcap m.val).queue.length < 16) ∧
    (∃ (m : Fin 8) (after : Nat) (hold : Nat) (s : State) (u : State),
      u = s.waitUntil (s.tick + after) ∧ u.flag (pcapBase m.val) 0 = true ∧ hold < u.fld (pcapBase m.val) 23 16) ∧
    (∃ (m : Fin 8) (after : Nat) (hold : Nat) (rise : Bool) (s : State) (u : State),
      u = s.waitUntil (s.tick + after) ∧
      (u.flag (pcapBase m.val) 0 = false ∨ (u.fld (pcapBase m.val) 23 16 ≤ hold ∧ u.fld (pcapBase m.val) 3 2 = b2n rise))) ∧
    (∃ (n : Fin 16) (e : Nat) (c : Nat) (s : State) (t : State),
      s.warden.safe = false ∧ (s.pho n.val).endPos = some e ∧ s.reachTick (s.phoSpec n.val).tb e = some c ∧
      t = s.waitUntil (s.phoEdge n.val c)) ∧
    (∃ (n : Fin 16) (c : Nat) (s : State),
      s.warden.safe = false ∧ (s.pho n.val).endPos = none ∧ s.flag (phoBase n.val) 0 = true ∧
      s.reachTick (s.phoSpec n.val).tb (s.pho n.val).next = some c) ∧
    (∃ (s : State), s.warden.safe = true) ∧
    (∃ (p : Port) (c : Nat) (s : State),
      (s.syncPat p.val).on = true ∧ s.reachTick (s.syncPat p.val).sched.tb (s.syncPat p.val).next = some c) :=
  ⟨⟨7, true, on.setReg 0x1104 1, _, rfl, by decide, by decide⟩,
   ⟨({ (on.setReg 0x1100 1).setReg 0x1104 1 with chicory.wall.st := 2, chicory.wall.ns := 1000000 } : State),
     by decide, by decide, by decide⟩,
   ⟨({ on with chicory.wall.st := 2 } : State), by decide⟩,
   ⟨{ after := 7, width := 740 }, 3, on.setReg 0x1500 1, _, by decide, by decide, rfl, by decide⟩,
   ⟨{ after := 7, width := 1040 }, on.setReg 0x1500 1, _, by decide, by decide, rfl, by decide⟩,
   ⟨{ after := 7, width := 959 }, on.setReg 0x1500 1, _, by decide, by decide, by decide, by decide, rfl, by decide⟩,
   ⟨false, 80,
     ({ on with chicory.plink.rxBits := List.replicate 7 false ++ [true] ++ List.replicate 71 false } : State),
     by decide, by decide, by decide⟩,
   ⟨[16], by decide⟩,
   ⟨[19, 0, 0, 0, 0, 0, 0, 0] ++ [byte (crc8 [19, 0, 0, 0, 0, 0, 0, 0])], 3, by decide +kernel, by decide⟩,
   ⟨[1, 0, 0, 0, 0, 0, 0, 0, 0] ++ [byte (crc8 [1, 0, 0, 0, 0, 0, 0, 0, 0])], by decide +kernel, by decide⟩,
   ⟨on.setReg 0x1500 4, by decide⟩,
   ⟨7, 7, 0, true, on.setReg 0x1470 9, _, rfl, by decide, by decide, by decide, by decide⟩,
   ⟨7, 7, 0, on.setReg 0x1470 0x10001, _, rfl, by decide, by decide⟩,
   ⟨7, 7, 0, true, on.setReg 0x1470 5, _, rfl, by decide⟩,
   ⟨15, 0, _, (on.setPho 15 { endPos := some 0 }).setReg 0x12F0 16, _, by decide, by decide, rfl, rfl⟩,
   ⟨15, _, on.setReg 0x12F0 17, by decide, by decide, by decide, rfl⟩,
   ⟨({ on with warden.safe := true } : State), by decide⟩,
   ⟨47, _, on.setSyncPat 47 { on := true, sched := { tb := 4 } }, by decide, rfl⟩⟩

theorem meets_StartRowsComplete :
    (∃ (s : State), s.boot.dark = false) ∧
    (∃ (s : State), s.boot.dark = false) ∧
    (∃ (c : Nat) (t : Nat) (s : State),
      s.boot.resetReq = some (c, t) ∧ s.boot.dark = false ∧ s.boot.rescue = none ∧
      (s.waitUntil t).boot.trial = false) ∧
    (∃ (s : State),
      s.boot.up = false ∧ s.boot.dark = false ∧ s.warden.safe = false ∧
      (s.straps.bootsel1 = true ∨ s.chooseSlot = none)) ∧
    (∃ (n : Bool) (s : State),
      s.boot.up = false ∧ s.boot.dark = false ∧ s.warden.safe = false ∧ s.straps.bootsel1 = false ∧
      s.chooseSlot = some n) ∧
    (∃ (s : State),
      s.boot.trial = true ∧ s.boot.up = true ∧ s.mgmtDown = none ∧ s.warden.safe = false ∧ s.warden.mode = false) ∧
    (∃ (s : State), s.trialFailed = true ∧ s.boot.resetReq = none) ∧
    (∃ (n : Bool) (t : Nat) (u : State) (s : State),
      s.boot.pendingAct = some (n, 2, t) ∧ s.boot.up = true ∧ s.warden.mode = false ∧ s.warden.safe = false ∧
      s.reach 4 t = some u) ∧
    (∃ (p : Nat) (s : State),
      s.rescue.port = some p ∧ s.rescue.step = 5 ∧ s.boot.rescue = none ∧ s.boot.up = false) ∧
    (∃ (p : Nat) (s : State), s.boot.rescue = some p) ∧
    (∃ (p : Nat) (s : State),
      s.rescue.port = some p ∧ s.rescue.frs = true ∧ s.fed = true ∧ (s.rail 0).inBand = true ∧
      (s.rail 1).inBand = true) ∧
    (∃ (p : Nat) (s : State), s.rescue.port = some p ∧ s.rescue.frs = true) :=
  ⟨⟨on, by decide⟩,
   ⟨on, by decide⟩,
   ⟨2, 0, ({ on with boot.resetReq := some (2, 0) } : State), by decide, by decide, by decide, by decide⟩,
   ⟨({ State.reset with straps.bootsel1 := true } : State), by decide, by decide, by decide, by decide⟩,
   ⟨_, State.reset, by decide, by decide, by decide, by decide, rfl⟩,
   ⟨({ on with boot.trial := true } : State), by decide, by decide, by decide, by decide, by decide⟩,
   ⟨({ on with boot.trial := true, mgmtDown := some 5 } : State), by decide, by decide⟩,
   ⟨true, 0, _, ({ on with boot.pendingAct := some (true, 2, 0) } : State), by decide, by decide, by decide,
     by decide, rfl⟩,
   ⟨0, ({ State.reset with rescue := { port := some 0, step := 5 } } : State), by decide, by decide, by decide,
     by decide⟩,
   ⟨0, ({ State.reset with boot.rescue := some 0 } : State), by decide⟩,
   ⟨0,
     ({ on with rescue := { port := some 0, frs := true }, clover.feeds := [(0, { present := true, conducting := true, mv := 24000 })], clover.rails := [(0, { inBand := true }), (1, { inBand := true })] } : State),
     by decide, by decide, by decide, by decide, by decide⟩,
   ⟨0, ({ on with rescue := { port := some 0, frs := true } } : State), by decide, by decide⟩⟩

end Sys2Proof.Tests
end

section
/-!
SUPPORT AND PROOFS for the scope of the model. What each command keeps, over the whole of `exec`: the queue
and the part stay, and no lock bit falls but at a start. And what the row of a catalogue command comes to before its
own rule decides.
-/

namespace Sys2Proof

open Sys2Proof.Machine

/-- The starts, which clear the lock bits (R40, R51). -/
def Instr.startsHub : Instr → Bool
  | .powerOnReset .. | .pinReset .. | .chipReset | .supplyLoss | .bootFailure | .activationDue | .rescueStart
  | .rescuePortDetach | .frsFeedReturn .. => true
  | _ => false

/-- What every command keeps: the queue and the part; and unless it is a start, each lock bit that is set. -/
structure Kept (c : Instr) (s t : State) : Prop where
  kin : Kin s t
  grow : c.startsHub = false → Grow s t

theorem Kept.of_start {c : Instr} {s t : State} (hc : c.startsHub = true) (h : Kin s t) : Kept c s t :=
  ⟨h, fun hn => by rw [hc] at hn; cases hn⟩

theorem Machine.Grow.kept {c : Instr} {s t : State} (h : Grow s t) : Kept c s t := ⟨h.kin, fun _ => h⟩

theorem Machine.OutSame.kept {c : Instr} {s t : State} {o : Out} (h : OutSame s o) (ho : o = .next t) : Kept c s t :=
  (h.out t ho).grow.kept

/-- One arm per command, each by what is known of its meaning (`exec…_same`, `exec…_grow`, `exec…_kin`). -/
theorem exec_kept {s t : State} : ∀ {c : Instr}, exec c s = .next t → Kept c s t
  | .sysHello mb, hn => (execSysHello_same mb s).kept hn
  | .sysResync mb, hn => (execSysResync_same mb s).kept hn
  | .sysInfo mb, hn => (execSysInfo_same mb s).kept hn
  | .sysAbort mb, hn => (execSysAbort_same mb s).kept hn
  | .sysExpert mb, hn => (execSysExpert_same mb s).kept hn
  | .sysReset mb, hn => (execSysReset_same mb s).kept hn
  | .angConfig mb, hn => (execAngConfig_same mb s).kept hn
  | .angEnable mb, hn => (execAngEnable_same mb s).kept hn
  | .angStatus mb, hn => (execAngStatus_same mb s).kept hn
  | .timeSet mb, hn => (execTimeSet_same mb s).kept hn
  | .timeAdjust mb, hn => (execTimeAdjust_same mb s).kept hn
  | .timeDisc mb, hn => (execTimeDisc_same mb s).kept hn
  | .phaseSet mb, hn => (execPhaseSet_same mb s).kept hn
  | .phasePsync mb, hn => (execPhasePsync_same mb s).kept hn
  | .phaseCapture mb, hn => (execPhaseCapture_same mb s).kept hn
  | .phaseLink mb, hn => (execPhaseLink_same mb s).kept hn
  | .portMode mb, hn => (execPortMode_same mb s).kept hn
  | .portReset mb, hn => (execPortReset_same mb s).kept hn
  | .portSuspend mb, hn => (execPortSuspend_same mb s).kept hn
  | .portResume mb, hn => (execPortResume_same mb s).kept hn
  | .portStatus mb, hn => (execPortStatus_same mb s).kept hn
  | .portCfg mb, hn => (execPortCfg_same mb s).kept hn
  | .devList mb, hn => (execDevList_same mb s).kept hn
  | .devInfo mb, hn => (execDevInfo_same mb s).kept hn
  | .devPolicy mb, hn => (execDevPolicy_same mb s).kept hn
  | .chanOpen mb, hn => (execChanOpen_same mb s).kept hn
  | .chanClose mb, hn => (execChanClose_same mb s).kept hn
  | .chanPause mb, hn => (execChanPause_same mb s).kept hn
  | .chanResume mb clearOk, hn => (execChanResume_same mb clearOk s).kept hn
  | .chanStopGroup mb, hn => (execChanStopGroup_same mb s).kept hn
  | .chanStartGroup mb, hn => (execChanStartGroup_same mb s).kept hn
  | .chanCtrl mb, hn => (execChanCtrl_same mb s).kept hn
  | .chanWrite mb, hn => (execChanWrite_same mb s).kept hn
  | .chanInfo mb, hn => (execChanInfo_same mb s).kept hn
  | .chanLatest mb, hn => (execChanLatest_same mb s).kept hn
  | .chanHistory mb, hn => (execChanHistory_same mb s).kept hn
  | .chanAck mb, hn => (execChanAck_same mb s).kept hn
  | .chanRewind mb, hn => (execChanRewind_same mb s).kept hn
  | .schedBegin mb, hn => (execSchedBegin_same mb s).kept hn
  | .schedAdd mb, hn => (execSchedAdd_same mb s).kept hn
  | .schedChange mb, hn => (execSchedChange_same mb s).kept hn
  | .schedCommit mb, hn => (execSchedCommit_same mb s).kept hn
  | .schedCancel mb, hn => (execSchedCancel_same mb s).kept hn
  | .schedReport mb, hn => (execSchedReport_same mb s).kept hn
  | .pwrOn mb, hn => (execPwrOn_same mb s).kept hn
  | .pwrOff mb, hn => (execPwrOff_same mb s).kept hn
  | .pwrClear mb, hn => (execPwrClear_same mb s).kept hn
  | .pwrCurve mb, hn => (execPwrCurve_same mb s).kept hn
  | .pwrRails mb, hn => (execPwrRails_same mb s).kept hn
  | .pwrPriority mb, hn => (execPwrPriority_same mb s).kept hn
  | .pwrStagger mb, hn => (execPwrStagger_same mb s).kept hn
  | .pwrStatus mb, hn => (execPwrStatus_same mb s).kept hn
  | .pdStatus mb, hn => (execPdStatus_same mb s).kept hn
  | .pdCaps mb, hn => (execPdCaps_same mb s).kept hn
  | .pdHardreset mb, hn => (execPdHardreset_same mb s).kept hn
  | .pdSwap mb, hn => (execPdSwap_same mb s).kept hn
  | .pdFrs mb, hn => (execPdFrs_same mb s).kept hn
  | .pdMoist mb, hn => (execPdMoist_same mb s).kept hn
  | .pdAltmode mb, hn => (execPdAltmode_same mb s).kept hn
  | .canConfig mb, hn => (execCanConfig_same mb s).kept hn
  | .canEnable mb, hn => (execCanEnable_same mb s).kept hn
  | .canFilter mb, hn => (execCanFilter_same mb s).kept hn
  | .canTx mb, hn => (execCanTx_same mb s).kept hn
  | .canTxabort mb, hn => (execCanTxabort_same mb s).kept hn
  | .canRecover mb, hn => (execCanRecover_same mb s).kept hn
  | .canAutobaud mb, hn => (execCanAutobaud_same mb s).kept hn
  | .canStatus mb, hn => (execCanStatus_same mb s).kept hn
  | .integStatus mb, hn => (execIntegStatus_same mb s).kept hn
  | .integRegion mb, hn => (execIntegRegion_same mb s).kept hn
  | .integRestrength mb, hn => (execIntegRestrength_same mb s).kept hn
  | .integScrub mb, hn => (execIntegScrub_same mb s).kept hn
  | .integLog mb, hn => (execIntegLog_same mb s).kept hn
  | .integRotate mb, hn => (execIntegRotate_same mb s).kept hn
  | .integInject mb, hn => (execIntegInject_same mb s).kept hn
  | .faultStatus mb, hn => (execFaultStatus_same mb s).kept hn
  | .faultConfig mb, hn => (execFaultConfig_same mb s).kept hn
  | .faultClear mb, hn => (execFaultClear_same mb s).kept hn
  | .faultForce mb, hn => (execFaultForce_same mb s).kept hn
  | .wardenArm mb, hn => (execWardenArm_same mb s).kept hn
  | .wardenEnter mb, hn => (execWardenEnter_same mb s).kept hn
  | .wardenLeave mb, hn => (execWardenLeave_same mb s).kept hn
  | .wardenStatus mb, hn => (execWardenStatus_same mb s).kept hn
  | .domList mb, hn => (execDomList_same mb s).kept hn
  | .domEvent mb, hn => (execDomEvent_same mb s).kept hn
  | .domForget mb, hn => (execDomForget_same mb s).kept hn
  | .domPstate mb, hn => (execDomPstate_same mb s).kept hn
  | .domPcfg mb, hn => (execDomPcfg_same mb s).kept hn
  | .domStatus mb, hn => (execDomStatus_same mb s).kept hn
  | .domKeeper mb, hn => (execDomKeeper_same mb s).kept hn
  | .fwInfo mb, hn => (execFwInfo_same mb s).kept hn
  | .fwBegin mb, hn => (execFwBegin_same mb s).kept hn
  | .fwWrite mb, hn => (execFwWrite_same mb s).kept hn
  | .fwVerify mb, hn => (execFwVerify_same mb s).kept hn
  | .fwActivate mb, hn => (execFwActivate_same mb s).kept hn
  | .fwCancel mb, hn => (execFwCancel_same mb s).kept hn
  | .profRead mb, hn => (execProfRead_same mb s).kept hn
  | .profWrite mb, hn => (execProfWrite_same mb s).kept hn
  | .linkStatus mb, hn => (execLinkStatus_same mb s).kept hn
  | .linkBudget mb, hn => (execLinkBudget_same mb s).kept hn
  | .linkDetach mb, hn => (execLinkDetach_same mb s).kept hn
  | .testTmux mb, hn => (execTestTmux_same mb s).kept hn
  | .testBist mb, hn => (execTestBist_same mb s).kept hn
  | .testLoop mb, hn => (execTestLoop_same mb s).kept hn
  | .testResult mb, hn => (execTestResult_same mb s).kept hn
  | .doorbellRing mask, hn => (execDoorbellRing_same mask s).kept hn
  | .cciDoneWrite mask, hn => (execCciDoneWrite_same mask s).kept hn
  | .abortReqWrite mask, hn => (execAbortReqWrite_same mask s).kept hn
  | .dataUnit bytes, hn => (execDataUnit_same bytes s).kept hn
  | .eventRead words, hn => (execEventRead_same words s).kept hn
  | .streamRead words, hn => (execStreamRead_same words s).kept hn
  | .bitAliasWrite off val, hn => (execBitAliasWrite_grow off val s t hn).kept
  | .bitAliasRead off, hn => (execBitAliasRead_same off s).kept hn
  | .lockBitSet .., hn => (hostWrite_grow _ _ s t hn).kept
  | .registerWrite .., hn => (hostWrite_grow _ _ s t hn).kept
  | .rcFieldRead off, hn => (execRcFieldRead_same off s).kept hn
  | .loRegisterRead off, hn => (execLoRegisterRead_same off s).kept hn
  | .ltnClr, hn => (hostWrite_grow _ _ s t hn).kept
  | .padHoldRelease .., hn => (hostWrite_grow _ _ s t hn).kept
  | .campClear, hn => (hostWrite_grow _ _ s t hn).kept
  | .campForce .., hn => (hostWrite_grow _ _ s t hn).kept
  | .tmuxSelWrite .., hn => (hostWrite_grow _ _ s t hn).kept
  | .regRead off len, hn => (execRegRead_same off len s).kept hn
  | .regWrite off len data, hn => (execRegWrite_grow off len data s t hn).kept
  | .spiReadFrame header statusBytes clocked, hn => (execSpiReadFrame_same header statusBytes clocked s).kept hn
  | .spiWriteFrame bytes, hn => (execSpiWriteFrame_grow bytes s t hn).kept
  | .spiStatusFrame, hn => (execSpiStatusFrame_same s).kept hn
  | .spiFrameRefused bytes, hn => (execSpiFrameRefused_same bytes s).kept hn
  | .commandPipeTransfer bytes, hn => (execCommandPipeTransfer_same bytes s).kept hn
  | .ep1InTransferEnd acked, hn => (execEp1InTransferEnd_same acked s).kept hn
  | .ep3InEventPacket n acked, hn => (execEp3InEventPacket_same n acked s).kept hn
  | .mailboxResponse mb, hn => (execMailboxResponse_same mb s).kept hn
  | .dtimeoutExpiry mb, hn => (execDtimeoutExpiry_same mb s).kept hn
  | .abortEscalation, hn => (execAbortEscalation_same s).kept hn
  | .setPortFeaturePortReset h, hn => (execSetPortFeaturePortReset_same h s).kept hn
  | .clearPortFeaturePortPower h, hn => (execClearPortFeaturePortPower_same h s).kept hn
  | .setPortFeaturePortPower h, hn => (execSetPortFeaturePortPower_same h s).kept hn
  | .setPortFeaturePortSuspend h, hn => (execSetPortFeaturePortSuspend_same h s).kept hn
  | .clearPortFeaturePortSuspend h, hn => (execClearPortFeaturePortSuspend_same h s).kept hn
  | .clearPortFeaturePortEnable h, hn => (execClearPortFeaturePortEnable_same h s).kept hn
  | .setPortFeaturePortIndicator h sel, hn => (execSetPortFeaturePortIndicator_same h sel s).kept hn
  | .setPortFeaturePortTest h sel, hn => (execSetPortFeaturePortTest_same h sel s).kept hn
  | .alternateSettingChange alt busy, hn => (execAlternateSettingChange_same alt busy s).kept hn
  | .upstreamReset detach, hn => (execUpstreamReset_same detach s).kept hn
  | .upstreamAttach highSpeed, hn => (execUpstreamAttach_same highSpeed s).kept hn
  | .globalSuspend rwake caside, hn => (execGlobalSuspend_same rwake caside s).kept hn
  | .ccAttach p kind, hn => (execCcAttach_same p kind s).kept hn
  | .ccDetach p, hn => (execCcDetach_same p s).kept hn
  | .moistureReading p kohm1 kohm2, hn => (execMoistureReading_same p kohm1 kohm2 s).kept hn
  | .moistureInterval p kohm1 kohm2, hn => (execMoistureInterval_same p kohm1 kohm2 s).kept hn
  | .connectSensed p pull, hn => (execConnectSensed_same p pull s).kept hn
  | .connectDebounceEnd p, hn => (execConnectDebounceEnd_same p s).kept hn
  | .resetEnd p chirp, hn => (execResetEnd_same p chirp s).kept hn
  | .usbDisconnect p lost, hn => (execUsbDisconnect_same p lost s).kept hn
  | .remoteWake p, hn => (execRemoteWake_same p s).kept hn
  | .resumeEnd p, hn => (execResumeEnd_same p s).kept hn
  | .resumeRecoveryEnd p, hn => (execResumeRecoveryEnd_same p s).kept hn
  | .surgeSignature p data cc vo, hn => (execSurgeSignature_same p data cc vo s).kept hn
  | .surgeRecovery p, hn => (execSurgeRecovery_same p s).kept hn
  | .babble p, hn => (execBabble_same p s).kept hn
  | .babbleReset p, hn => (execBabbleReset_same p s).kept hn
  | .staggerSlotOpen p voMv, hn => (execStaggerSlotOpen_same p voMv s).kept hn
  | .powerGood p gateMv voMv railMv dropMv, hn => (execPowerGood_same p gateMv voMv railMv dropMv s).kept hn
  | .inrushFail p mA, hn => (execInrushFail_same p mA s).kept hn
  | .pgLost p voMv, hn => (execPgLost_same p voMv s).kept hn
  | .itTrip p mA, hn => (execItTrip_same p mA s).kept hn
  | .fastTrip p mA, hn => (execFastTrip_same p mA s).kept hn
  | .cooldownExpiry p, hn => (execCooldownExpiry_same p s).kept hn
  | .ladderReset p, hn => (execLadderReset_same p s).kept hn
  | .stuckOn p voMv, hn => (execStuckOn_same p voMv s).kept hn
  | .gmgStuck g, hn => (execGmgStuck_same g s).kept hn
  | .fetWarn p dropMv mA, hn => (execFetWarn_same p dropMv mA s).kept hn
  | .feedReverseOff f, hn => (execFeedReverseOff_same f s).kept hn
  | .feedPresenceChange f mv, hn => (execFeedPresenceChange_same f mv s).kept hn
  | .feedOv f mv, hn => (execFeedOv_same f mv s).kept hn
  | .railOutOfBand r mv, hn => (execRailOutOfBand_same r mv s).kept hn
  | .railPowerRemoval r, hn => (execRailPowerRemoval_same r s).kept hn
  | .railRestore r, hn => (execRailRestore_same r s).kept hn
  | .budgetGrant p, hn => (execBudgetGrant_same p s).kept hn
  | .shed, hn => (execShed_same s).kept hn
  | .shedRestore, hn => (execShedRestore_same s).kept hn
  | .sourceCapabilitiesSend p answered, hn => (execSourceCapabilitiesSend_same p answered s).kept hn
  | .request p rdo pd2, hn => (execRequest_same p rdo pd2 s).kept hn
  | .psRdy p, hn => (execPsRdy_same p s).kept hn
  | .pdResponseTimeout p, hn => (execPdResponseTimeout_same p s).kept hn
  | .softReset p byPartner, hn => (execSoftReset_same p byPartner s).kept hn
  | .hardReset p byPartner, hn => (execHardReset_same p byPartner s).kept hn
  | .hardResetWaitEnd p, hn => (execHardResetWaitEnd_same p s).kept hn
  | .typeCOnlyFallback p, hn => (execTypeCOnlyFallback_same p s).kept hn
  | .fallbackReoffer p, hn => (execFallbackReoffer_same p s).kept hn
  | .hrstReset p, hn => (execHrstReset_same p s).kept hn
  | .prSwap p partnerStarts answer, hn => (execPrSwap_same p partnerStarts answer s).kept hn
  | .frSwap p, hn => (execFrSwap_same p s).kept hn
  | .discoverIdentity p ufp svid modes, hn => (execDiscoverIdentity_same p ufp svid modes s).kept hn
  | .enterModeAck p ans, hn => (execEnterModeAck_same p ans s).kept hn
  | .partnerExitMode p, hn => (execPartnerExitMode_same p s).kept hn
  | .rescueVbus p mv, hn => (execRescueVbus_same p mv s).kept hn
  | .rescueRegulationCheck p mv, hn => (execRescueRegulationCheck_same p mv s).kept hn
  | .referenceEvent k chg, hn => (execReferenceEvent_same k chg s).kept hn
  | .indexEdge k m after hold rising, hn => (execIndexEdge_same k m after hold rising s).kept hn
  | .reverse k aLeads, hn => (execReverse_same k aLeads s).kept hn
  | .referenceLoss k, hn => (execReferenceLoss_same k s).kept hn
  | .holdLimExpiry tb, hn => (execHoldLimExpiry_same tb s).kept hn
  | .cycleWrap k, hn => (execCycleWrap_same k s).kept hn
  | .anchorPeriodic tb, hn => (execAnchorPeriodic_same tb s).kept hn
  | .wallDisciplineEdge after rising, hn => (execWallDisciplineEdge_same after rising s).kept hn
  | .wallHoldover, hn => (execWallHoldover_same s).kept hn
  | .linkMark pulse, hn => (execLinkMark_same pulse s).kept hn
  | .linkFrame pulses, hn => (execLinkFrame_same pulses s).kept hn
  | .linkTransmit, hn => (execLinkTransmit_same s).kept hn
  | .captureEdge m after hold rising, hn => (execCaptureEdge_same m after hold rising s).kept hn
  | .phaseOutputTarget n, hn => (execPhaseOutputTarget_same n s).kept hn
  | .psyncTarget p, hn => (execPsyncTarget_same p s).kept hn
  | .targetDue slot, hn => (execTargetDue_same slot s).kept hn
  | .tokenIssue p, hn => (execTokenIssue_same p s).kept hn
  | .lateMiss slot, hn => (execLateMiss_same slot s).kept hn
  | .bestEffortReplaced slot, hn => (execBestEffortReplaced_same slot s).kept hn
  | .sof p, hn => (execSof_same p s).kept hn
  | .transactionEnd p outcome, hn => (execTransactionEnd_same p outcome s).kept hn
  | .recordCommit slot, hn => (execRecordCommit_same slot s).kept hn
  | .applyPoint, hn => (execApplyPoint_same s).kept hn
  | .transactionIdleTimeout, hn => (execTransactionIdleTimeout_same s).kept hn
  | .enumeration p dev, hn => (execEnumeration_same p dev s).kept hn
  | .enumerationStepFail p step hub1 hub2, hn => (execEnumerationStepFail_same p step hub1 hub2 s).kept hn
  | .childJoin join, hn => (execChildJoin_same join s).kept hn
  | .childLost chip reason, hn => (execChildLost_same chip reason s).kept hn
  | .cowslipFlush q far sent, hn => (execCowslipFlush_same q far sent s).kept hn
  | .journalLevel, hn => (execJournalLevel_same s).kept hn
  | .checkpoint, hn => (execCheckpoint_same s).kept hn
  | .seal, hn => (execSeal_same s).kept hn
  | .unseal, hn => (execUnseal_same s).kept hn
  | .managementRestart cause, hn => (execManagementRestart_same cause s).kept hn
  | .groupRestart g, hn => (execGroupRestart_same g s).kept hn
  | .managementRestartTimeout, hn => (execManagementRestartTimeout_same s).kept hn
  | .groupRestartTimeout g, hn => (execGroupRestartTimeout_same g s).kept hn
  | .ctrlTmoExpiry slot, hn => (execCtrlTmoExpiry_same slot s).kept hn
  | .canFrameReceived c frame ticks, hn => (execCanFrameReceived_same c frame ticks s).kept hn
  | .canArbitrationStart c, hn => (execCanArbitrationStart_same c s).kept hn
  | .canTxEnd c result, hn => (execCanTxEnd_same c result s).kept hn
  | .canArmedDue c buf, hn => (execCanArmedDue_same c buf s).kept hn
  | .busOff c, hn => (execBusOff_same c s).kept hn
  | .canErrorStateChange c err, hn => (execCanErrorStateChange_same c err s).kept hn
  | .busOffRecoveryEnd c, hn => (execBusOffRecoveryEnd_same c s).kept hn
  | .autobaudDwellEnd c, hn => (execAutobaudDwellEnd_same c s).kept hn
  | .canDisableComplete c, hn => (execCanDisableComplete_same c s).kept hn
  | .faultEvent src persists, hn => (execFaultEvent_same src persists s).kept hn
  | .wireFault src high, hn => (execWireFault_same src high s).kept hn
  | .causeGone src, hn => (execCauseGone_same src s).kept hn
  | .selfCheckFail, hn => (execSelfCheckFail_same s).kept hn
  | .wardenHeartbeatMissing, hn => (execWardenHeartbeatMissing_same s).kept hn
  | .aliveEdge ago, hn => (execAliveEdge_same ago s).kept hn
  | .wardenCleanup, hn => (execWardenCleanup_same s).kept hn
  | .scriptStepStart, hn => (execScriptStepStart_same s).kept hn
  | .scriptFrame buf, hn => (execScriptFrame_same buf s).kept hn
  | .waitRxMatch frame, hn => (execWaitRxMatch_same frame s).kept hn
  | .scriptStepEnd, hn => (execScriptStepEnd_same s).kept hn
  | .safeHoldExpiry, hn => (execSafeHoldExpiry_same s).kept hn
  | .parityError page errors who, hn => (execParityError_same page errors who s).kept hn
  | .staleRecompute page, hn => (execStaleRecompute_same page s).kept hn
  | .staleOvf page, hn => (execStaleOvf_same page s).kept hn
  | .scrubVisit page errors, hn => (execScrubVisit_same page errors s).kept hn
  | .restrengthStep errors offset, hn => (execRestrengthStep_same errors offset s).kept hn
  | .rsEnded, hn => (execRsEnded_same s).kept hn
  | .rotationCopyDone, hn => (execRotationCopyDone_same s).kept hn
  | .bankRetired bank, hn => (execBankRetired_same bank s).kept hn
  | .pageRetired page, hn => (execPageRetired_same page s).kept hn
  | .retirementListWrite, hn => (execRetirementListWrite_same s).kept hn
  | .injectionFired page byteOff, hn => (execInjectionFired_same page byteOff s).kept hn
  | .idleTimerExpiry d, hn => (execIdleTimerExpiry_same d s).kept hn
  | .domainEntry d, hn => (execDomainEntry_same d s).kept hn
  | .domainWake d src, hn => (execDomainWake_same d src s).kept hn
  | .wakeComplete d, hn => (execWakeComplete_same d s).kept hn
  | .vcoreAck, hn => (execVcoreAck_same s).kept hn
  | .vcoreAckTimeout statusWord, hn => (execVcoreAckTimeout_same statusWord s).kept hn
  | .pmAlert statusWord, hn => (execPmAlert_same statusWord s).kept hn
  | .wakeInput input rising, hn => (execWakeInput_same input rising s).kept hn
  | .wallPairWrite, hn => (execWallPairWrite_same s).kept hn
  | .norWallWrite, hn => (execNorWallWrite_same s).kept hn
  | .palarmDue, hn => (execPalarmDue_same s).kept hn
  | .postedWriteComplete dom, hn => (execPostedWriteComplete_same dom s).kept hn
  | .retLow, hn => (execRetLow_same s).kept hn
  | .vbakLoss, hn => (execVbakLoss_same s).kept hn
  | .powerOnReset .., hn => .of_start rfl (execPowerOnReset_kin _ _ _ s t hn)
  | .pinReset .., hn => .of_start rfl (execPinReset_kin _ s t hn)
  | .chipReset, hn => .of_start rfl (execChipReset_kin s t hn)
  | .clock, hn => (execClock_same s).kept hn
  | .bootSequence linearVout, hn => (execBootSequence_grow linearVout s t hn).kept
  | .imageConfirm, hn => (execImageConfirm_same s).kept hn
  | .bootFailure, hn => .of_start rfl (execBootFailure_kin s t hn)
  | .activationDue, hn => .of_start rfl (execActivationDue_kin s t hn)
  | .eraseEnd slotB, hn => (execEraseEnd_same slotB s).kept hn
  | .rescueStart, hn => .of_start rfl (execRescueStart_kin s t hn)
  | .rescuePortDetach, hn => .of_start rfl (execRescuePortDetach_kin s t hn)
  | .frsFeedReturn .., hn => .of_start rfl (execFrsFeedReturn_kin _ s t hn)
  | .bistDone pass signature, hn => (execBistDone_same pass signature s).kept hn
  | .loopDone packets errors, hn => (execLoopDone_same packets errors s).kept hn
  | .upstreamResume, hn => (execUpstreamResume_same s).kept hn
  | .hubSetConfiguration configured, hn => (execHubSetConfiguration_same configured s).kept hn
  | .partnerSourceCapabilities p pdos, hn => (execPartnerSourceCapabilities_same p pdos s).kept hn
  | .pdMessageReceived p msg, hn => (execPdMessageReceived_same p msg s).kept hn
  | .subWindowEnd src, hn => (execSubWindowEnd_same src s).kept hn
  | .railInBand r mv, hn => (execRailInBand_same r mv s).kept hn
  | .vbakRestored, hn => (execVbakRestored_same s).kept hn
  | .supplyLoss, hn => .of_start rfl (execSupplyLoss_kin s t hn)
  | .tapClock tms tdi resetLow, hn => (execTapClock_same tms tdi resetLow s).kept hn
  | .domainLinkFrame chip frame, hn => (execDomainLinkFrame_same chip frame s).kept hn
  | .wallSlewEnd, hn => (execWallSlewEnd_same s).kept hn

theorem step_pending_variant {s t : State} (h : step s = .next t) :
    t.pending = s.pending.tail ∧ t.variant = s.variant := by
  unfold step at h
  split at h
  case h_1 hp =>
    cases h
    have k := (State.elapse_same 1 s (Same.refl s)).kin
    exact ⟨by rw [k.pending, hp]; rfl, k.variant⟩
  case h_2 c rest hp =>
    have k := (exec_kept h).kin
    exact ⟨by rw [k.pending, hp]; rfl, k.variant⟩

/-- Settles O4: command by command over `exec` (`exec_kept`); a step runs the front command or lets a tick pass. -/
theorem queueAndPartStay : Obligations.QueueAndPartStay := by
  unfold Obligations.QueueAndPartStay
  refine ⟨fun c s t h => ?_, fun s t h => step_pending_variant h⟩
  have k := (exec_kept h).kin
  exact ⟨k.pending, k.variant⟩

theorem runCmd_of_out_of_turn {mb op : Nat} {s : State} (core : Req → State → CmdRes)
    (h : (s.mb mb).runnable = false ∨ (s.mb mb).op ≠ op ∨ s.mayStart mb = false) :
    runCmd mb op core s = .next s := by
  unfold runCmd
  rcases h with hr | ho | hm
  · simp [hr]
  · simp [ho]
  · simp [hm]

theorem runCmd_of_turn {mb op : Nat} {s : State} (core : Req → State → CmdRes) (hr : (s.mb mb).runnable = true)
    (ho : (s.mb mb).op = op) (hm : s.mayStart mb = true) :
    runCmd mb op core s = .next (finish mb (core ((s.mb mb).req mb) s) s) := by
  simp [runCmd, hr, ho, hm]

theorem runOp_of_badShape {mb op : Nat} {i : OpInfo} {s : State} (core : Req → State → CmdRes)
    (hr : (s.mb mb).runnable = true) (ho : (s.mb mb).op = op) (hm : s.mayStart mb = true) (hi : opInfo op = some i)
    (hb : shapeBad s i ((s.mb mb).req mb) = true) :
    runOp mb op core s = .next (answer mb (refusal .badParam [] s) s) := by
  rw [runOp, runCmd_of_turn _ hr ho hm]
  simp only [hi, hb, if_true, finish]

theorem runOp_of_goodShape {mb op : Nat} {i : OpInfo} {s : State} (core : Req → State → CmdRes)
    (hr : (s.mb mb).runnable = true) (ho : (s.mb mb).op = op) (hm : s.mayStart mb = true) (hi : opInfo op = some i)
    (hb : shapeBad s i ((s.mb mb).req mb) = false) :
    runOp mb op core s =
      .next (finish mb (rescueGate op ((s.mb mb).req mb) s (core ((s.mb mb).req mb) s)) s) := by
  rw [runOp, runCmd_of_turn _ hr ho hm]
  simp only [hi, hb, Bool.false_eq_true, if_false]

theorem rescueGate_of_no_rescue {op : Nat} {r : Req} {s : State} (h : s.boot.rescue = none) (c : CmdRes) :
    rescueGate op r s c = c := by
  simp [rescueGate, h]

theorem finish_commit_of_sealed {s : State} (h : s.journal.sealed = true) (mb : Nat) (res : List Byte) (u : State) :
    finish mb (.commit res u) s = s := by
  simp [finish, State.canCommit, h]

theorem tIndex_portTarget (chip : Nat) {p : Nat} (h : p < 2 ^ 22) : tIndex (chip * 2 ^ 26 + 2 * 2 ^ 22 + p) = p := by
  unfold tIndex bits
  omega

theorem targetOk_port_eq_false {s : State} {i : OpInfo} {t : Nat} (hi : i.scopes = [2]) (h : s.nPorts ≤ tIndex t) :
    targetOk s i t = false := by
  simp [targetOk, hi, h]

/-- Settles O7: a row's turn (out of turn it changes nothing, the model's choice of log 3), its shape (R286) and the
seal (R271) are tested in that order, and each test alone decides. -/
theorem catalogueRowsWaitOrRefuse : Obligations.CatalogueRowsWaitOrRefuse := by
  unfold Obligations.CatalogueRowsWaitOrRefuse
  refine ⟨fun mb op core s h => ?_, fun mb op core i s hr ho hm hi hb => ?_,
    fun mb op core i res u s hr ho hm hi hb hn hc hj => ?_, fun i chip p s hv _ h16 hp hi => ?_⟩
  · exact runCmd_of_out_of_turn _ h
  · exact runOp_of_badShape core hr ho hm hi hb
  · rw [runOp_of_goodShape core hr ho hm hi hb, rescueGate_of_no_rescue hn, hc, finish_commit_of_sealed hj]
  · have hn : s.nPorts = 16 := by simp [State.nPorts, hv]
    refine targetOk_port_eq_false hi ?_
    rw [tIndex_portTarget chip (by omega), hn]
    exact h16

end Sys2Proof
end

section
/-!
SUPPORT AND PROOFS for attach, moisture and surge rows. What a wake leaves of the ports' power sides, what a grant
request leaves of a port, and what a moisture reading comes to where both pins are out of the open band of R351.
-/

namespace Sys2Proof.Machine

/-! ### A wake leaves the power sides of the ports -/

/-- Every port keeps its power side. -/
def PwSame (s t : State) : Prop := ∀ q, (t.port q).pw = (s.port q).pw

theorem PwSame.refl (s : State) : PwSame s s := fun _ => rfl

theorem port_of_ports {s t : State} (h : t.ports = s.ports) (q : Nat) : t.port q = s.port q := by
  unfold State.port
  rw [h]

theorem pwSame_of_ports {s t : State} (h : t.ports = s.ports) : PwSame s t :=
  fun q => congrArg PortSt.pw (port_of_ports h q)

theorem PwSame.trans {s t u : State} (h : PwSame s t) (k : PwSame t u) : PwSame s u :=
  fun q => (k q).trans (h q)

theorem pwSame_ite {p : Prop} [Decidable p] {s t u : State} (h : PwSame s t) (k : PwSame s u) :
    PwSame s (if p then t else u) := by
  split <;> assumption

theorem foldl_pwSame {α : Type} (g : State → α → State) (h : ∀ s x, PwSame s (g s x)) (l : List α) (s : State) :
    PwSame s (l.foldl g s) := by
  induction l generalizing s with
  | nil => exact PwSame.refl s
  | cons x t ih => exact (h s x).trans (ih (g s x))

theorem RecordSide.pwSame {s t : State} (h : RecordSide s t) : PwSame s t := by
  obtain ⟨_, _, _, _, _, _, rfl⟩ := h
  exact PwSame.refl s

theorem modUsb_pwSame (p : Nat) (f : PortUsb → PortUsb) (s : State) : PwSame s (s.modUsb p f) := by
  intro q
  rw [port_modUsb]
  split
  · next h => rw [h]
  · rfl

theorem startResume_pwSame (p : Nat) (s : State) : PwSame s (startResume p s) :=
  pwSame_ite (PwSame.refl s) (modUsb_pwSame _ _ s)

theorem unprepareDom_pwSame (d : Nat) (s : State) : PwSame s (unprepareDom d s) := by
  unfold unprepareDom
  refine pwSame_ite (foldl_pwSame _ (fun s i => ?_) _ s) (PwSame.refl s)
  have h (f : PortUsb → PortUsb) (p : Nat) : PwSame s (s.modUsb p f) := modUsb_pwSame p f s
  refine pwSame_ite ?_ (PwSame.refl s)
  exact pwSame_ite ((h _ _).trans (startResume_pwSame _ _)) (h _ _)

theorem padHold_pwSame (d : Nat) (on : Bool) (s : State) : PwSame s (padHold d on s) := by
  unfold padHold
  dsimp only
  split
  · exact PwSame.refl s
  · split
    · exact pwSame_of_ports (by simp only [raiseEvent_fields])
    · exact pwSame_of_ports rfl

theorem vcoreAsk_pwSame (mv : Nat) (s : State) : PwSame s (vcoreAsk mv s) := by
  unfold vcoreAsk
  split
  · exact pwSame_ite (fun _ => rfl) (fun _ => rfl)
  · exact pwSame_ite (PwSame.refl s) (fun _ => rfl)

theorem abandonEntry_pwSame (d src : Nat) (s : State) : PwSame s (abandonEntry d src s) :=
  pwSame_ite (PwSame.refl s)
    (((abandonAt_recordSide d src s).pwSame.trans (padHold_pwSame _ _ _)).trans (unprepareDom_pwSame _ _))

theorem beginWake_pwSame (d src t : Nat) (s : State) : PwSame s (beginWake d src t s) :=
  have h : PwSame s (wakeFrom d src t s) := (setDom_recordSide _ _ _).pwSame
  pwSame_ite (h.trans (vcoreAsk_pwSame _ _)) h

theorem domWake_pwSame (d src : Nat) (s : State) : PwSame s (domWake d src s) := by
  have k (u : State) (x : Domain) : PwSame u (u.setDom d x) := (setDom_recordSide u d x).pwSame
  unfold domWake
  refine pwSame_ite (PwSame.refl s) ?_
  extract_lets _ u x
  have hu : PwSame s u := pwSame_ite (k s _) (PwSame.refl s)
  refine hu.trans ?_
  split
  · exact pwSame_ite (abandonEntry_pwSame _ _ _) (k _ _)
  · exact pwSame_ite (PwSame.refl _) (beginWake_pwSame _ _ _ _)

/-- A CC attach wakes domains, and no port's power changes by that (R461). -/
theorem attachWake_pwSame (p : Nat) (s : State) : PwSame s (attachWake p s) :=
  foldl_pwSame _ (fun s d => domWake_pwSame d 4 s) _ s

/-! ### A request for a grant -/

@[simp] theorem attachHeld_port (p reason : Nat) (s : State) (q : Nat) : (attachHeld p reason s).port q = s.port q := by
  simp [attachHeld]

/-- To ask for a grant touches the power side alone. -/
@[simp] theorem askGrant_port (p : Nat) (s : State) :
    ((askGrant p s).port p).usb = (s.port p).usb ∧ ((askGrant p s).port p).pd = (s.port p).pd := by
  unfold askGrant
  split
  · exact ⟨rfl, rfl⟩
  · have h := port_modPw_same s p fun w => { w with waiting := some s.clover.nextReq }
    exact ⟨(congrArg PortSt.usb h :), (congrArg PortSt.pd h :)⟩

@[simp] theorem requestGrant_port (p : Nat) (s : State) :
    ((requestGrant p s).port p).usb = (s.port p).usb ∧ ((requestGrant p s).port p).pd = (s.port p).pd := by
  unfold requestGrant
  dsimp only
  split <;> simp

/-- How a port leaves `WET` (R353): dry as of now, to `OFF`, and it asks for its grant where it may have power. -/
def leaveWet (p : Nat) (s : State) : State :=
  let t := setPortState p 0 0 (s.modPw p fun y => { y with dryAt := some s.tick })
  if t.mayPower p then requestGrant p t else t

@[simp] theorem leaveWet_port (p : Nat) (s : State) :
    ((leaveWet p s).port p).usb.st = 0 ∧ ((leaveWet p s).port p).pd = (s.port p).pd := by
  unfold leaveWet
  dsimp only
  split <;> simp

/-! ### Moisture readings (R351) -/

theorem pinWet_of_low {thr kohm : Nat} (h : 5 * kohm ≤ 4 * thr) (s : State) : pinWet thr kohm s = (true, s) := by
  simp [pinWet, h]

theorem pinWet_of_high {thr kohm : Nat} (ht : 1 ≤ thr) (h : 5 * thr ≤ 4 * kohm) (s : State) :
    pinWet thr kohm s = (false, s) := by
  have hl : ¬ 5 * kohm ≤ 4 * thr := by omega
  simp [pinWet, h, hl]

/-- A reading of two pins whose verdicts `a` and `b` the thresholds settle: no free value is drawn. -/
theorem moisture_of_pins {p k1 k2 : Nat} {a b : Bool} {s : State}
    (h1 : ∀ u, pinWet (s.port p).pd.threshold k1 u = (a, u))
    (h2 : ∀ u, pinWet (s.port p).pd.threshold k2 u = (b, u)) :
    moisture p k1 k2 s = (b2n a + 2 * b2n b, (s.elapse (ticksMs 2)).modPd p fun d =>
      { d with wetNow := b2n a + 2 * b2n b != 0, readAt := (s.elapse (ticksMs 2)).tick }) := by
  simp only [moisture, h1, h2]

/-- A reading leaves its verdict with the port. -/
theorem moisture_wetNow {p k1 k2 w : Nat} {s u : State} (h : moisture p k1 k2 s = (w, u)) :
    (u.port p).pd.wetNow = (w != 0) := by
  simp only [moisture, Prod.mk.injEq] at h
  obtain ⟨rfl, rfl⟩ := h
  rw [port_modPd_same]

end Sys2Proof.Machine

namespace Sys2Proof

open Sys2Proof.Machine

/-! ### The rows -/

/-- R20, R147: a debounced attach of a sink on a free port. The port's latch and cool-down are read after the attach
has woken its domains, which leaves them (`attachWake_pwSame`). -/
theorem exec_ccAttach_sink_of_free {p : Port} {s : State} (hcc : (s.port p.val).usb.ccAtt = false)
    (hp : p.val < s.nPorts) (hl : (s.port p.val).pw.latch = 0) (hc : (s.port p.val).pw.coolUntil = none) :
    exec (.ccAttach p .sink) s = .next (resumeCheck p.val
      ((attachWake p.val (s.modUsb p.val fun u => { u with ccAtt := true })).modPd p.val fun d => { d with
        flipped := false, dry := 0, wetRun := 0 })) := by
  have hw : ((attachWake p.val (s.modUsb p.val fun u => { u with ccAtt := true })).port p.val).pw =
      (s.port p.val).pw := ((modUsb_pwSame _ _ s).trans (attachWake_pwSame _ _)) p.val
  have hn : ¬ s.nPorts ≤ p.val := by omega
  have hk : (AttachKind.sink == AttachKind.sinkFlipped) = false := rfl
  change execCcAttach p .sink s = _
  simp [execCcAttach, hcc, hn, hk, hw, hl, hc]

theorem exec_ccDetach_of_attached {p : Port} {s : State} (hcc : (s.port p.val).usb.ccAtt = true) :
    exec (.ccDetach p) s = .next
      ((portInput p.val (powerOff p.val 0 1 1 false (s.modUsb p.val fun u => { u with ccAtt := false }))).modPd
        p.val fun d => { d with
          hrst := 0, partner := false, rejects := 0, reoffers := 0, fallbackReason := 0, cycling := false
          check := false, dry := 0, wetRun := 0, wetNow := false }) := by
  change execCcDetach p s = _
  simp [execCcDetach, hcc]

/-- R352: the reading before power, wet on `SBU1` alone. -/
theorem exec_moistureReading_wet {p : Port} {k1 k2 : Nat} {s : State} (hcheck : (s.port p.val).pd.check = true)
    (hsafe : s.warden.safe = false) (ht : 1 ≤ (s.port p.val).pd.threshold)
    (h1 : 5 * k1 ≤ 4 * (s.port p.val).pd.threshold) (h2 : 5 * (s.port p.val).pd.threshold ≤ 4 * k2) :
    exec (.moistureReading p k1 k2) s = .next
      (let t := (s.elapse (ticksMs 2)).modPd p.val fun d =>
        { d with wetNow := true, readAt := (s.elapse (ticksMs 2)).tick }
       attachHeld p.val 3 (raiseEvent p.val 0x24 [1, byte 1, 0, 0] (setPortState p.val 1 0
         (t.modPd p.val fun d => { d with check := false, dry := 0 })))) := by
  change execMoistureReading p k1 k2 s = _
  simp [execMoistureReading, hcheck, hsafe, moisture_of_pins (pinWet_of_low h1) (pinWet_of_high ht h2), b2n]

/-- R353: the third dry reading running of a port in `WET` is told, and the port leaves; `u` is the state the reading
leaves. -/
theorem execMoistureInterval_third_dry {p : Port} {k1 k2 : Nat} {s u : State} (hst : (s.port p.val).usb.st = 1)
    (hdry : (s.port p.val).pd.dry = 2)
    (hm : moisture p k1 k2 (s.waitUntil ((s.port p.val).pd.readAt + ticksS (s.port p.val).pd.interval)) = (0, u)) :
    execMoistureInterval p k1 k2 s = .next (leaveWet p
      (raiseEvent p 0x24 [0, 0, 3, 0] (u.modPd p fun d => { d with dry := 3 }))) := by
  simp only [execMoistureInterval, hst, hdry, hm]
  rfl

/-- The port then stands in `OFF` and has read dry. The time up to the reading leaves the threshold. -/
theorem exec_moistureInterval_third_dry {p : Port} {k1 k2 : Nat} {s : State} (hst : (s.port p.val).usb.st = 1)
    (hdry : (s.port p.val).pd.dry = 2) (ht : 1 ≤ (s.port p.val).pd.threshold)
    (h1 : 5 * (s.port p.val).pd.threshold ≤ 4 * k1) (h2 : 5 * (s.port p.val).pd.threshold ≤ 4 * k2) :
    ∃ t, exec (.moistureInterval p k1 k2) s = .next t ∧ (t.port p.val).usb.st = 0 ∧
      (t.port p.val).pd.wetNow = false := by
  have hpin {k : Nat} (hk : 5 * (s.port p.val).pd.threshold ≤ 4 * k) (w : Nat) (u : State) :
      pinWet (((s.waitUntil w).port p.val).pd.threshold) k u = (false, u) := by
    rw [(waitUntil_port w s p.val).2]
    exact pinWet_of_high ht hk u
  obtain ⟨u, hm⟩ : ∃ u, moisture p k1 k2
      (s.waitUntil ((s.port p.val).pd.readAt + ticksS (s.port p.val).pd.interval)) = (0, u) :=
    ⟨_, moisture_of_pins (hpin h1 _) (hpin h2 _)⟩
  refine ⟨_, execMoistureInterval_third_dry hst hdry hm, (leaveWet_port _ _).1, ?_⟩
  rw [(leaveWet_port _ _).2]
  simp [moisture_wetNow hm]

/-- R166, R167: a signature that no other came shortly before, on a port outside an atomic message sequence. -/
theorem exec_surgeSignature_first {p : Port} {data cc vo : Bool} {s : State} (hp : p.val < s.nPorts)
    (hany : (data || cc) = true) (hfirst : (s.port p.val).usb.surgeAt = none)
    (hatomic : (s.port p.val).pd.atomic = false) :
    exec (.surgeSignature p data cc vo) s = .next
      (let t := loopStop p.val 2 (wireDrop p.val s)
       let t := t.modUsb p.val fun u => { u with surgeAt := some t.tick }
       let t := (t.setFlag (portBase p.val) 11).incFld (portBase p.val + 12) 7 0
       let t := t.modUsb p.val fun u => { u with totSurges := satInc u.totSurges 255 }
       faultPulse p.val (strikeTest p.val true (raiseEvent p.val 2
         [byte (b2n data + 2 * b2n cc + 4 * b2n (vo && 6 ≤ (s.port p.val).usb.st))] t))) := by
  have hn : ¬ s.nPorts ≤ p.val := by omega
  change execSurgeSignature p data cc vo s = _
  simp only [execSurgeSignature, hany, hfirst, hatomic]
  simp [hn]

/-- Settles O31, row by row: free attach, detach, the wet reading of R352, the third dry reading of R353 and the surge
signature of R166. -/
theorem attachRowsComplete : Obligations.AttachRowsComplete := by
  unfold Obligations.AttachRowsComplete
  refine ⟨fun p s hcc hp hl hc => ?attach, fun p s hcc => ?detach, fun p k1 k2 s hcheck hsafe ht h1 h2 => ?wet,
    fun p k1 k2 s hst hdry ht h1 h2 => ?dry, fun p data cc vo s hp hany hfirst hatomic => ?surge⟩
  case attach => exact exec_ccAttach_sink_of_free hcc hp hl hc
  case detach => exact exec_ccDetach_of_attached hcc
  case wet => exact exec_moistureReading_wet hcheck hsafe ht h1 h2
  case dry => exact exec_moistureInterval_third_dry hst hdry ht h1 h2
  case surge => exact exec_surgeSignature_first hp hany hfirst hatomic

end Sys2Proof
end

section
/-!
PROOFS for the restarts of the management pair and of a group engine.
-/

namespace Sys2Proof

open Sys2Proof.Machine

/-- R23, R273: a restart under way ends. -/
theorem exec_managementRestart_of_down {c : Fin 3} {t : Nat} {s : State} (hup : s.boot.up = true)
    (hsafe : s.warden.safe = false) (hmode : s.warden.mode = false) (hdown : s.mgmtDown = some t)
    (htrial : s.boot.trial = false) : exec (.managementRestart c) s = .next (mgmtRestarted s) := by
  change execManagementRestart c s = _
  simp [execManagementRestart, hup, hsafe, hmode, hdown, htrial]

theorem exec_managementRestartTimeout_of_down {t : Nat} {s : State} (hdown : s.mgmtDown = some t) :
    exec .managementRestartTimeout s = .next (startMgmt 2 (faultPulse 106 (s.waitUntil (t + ticksMs 20)))) := by
  change execManagementRestartTimeout s = _
  simp [execManagementRestartTimeout, hdown]

/-- R100: an escalation for requests in `CCI_ABORT` alone. With no command in MB7 the time runs from the requests, and
the mask is theirs. -/
theorem exec_abortEscalation_of_requests {s : State} (hmode : s.warden.mode = false) (hsafe : s.warden.safe = false)
    (hup : s.boot.up = true) (hdown : s.mgmtDown = none)
    (hreq : maskOf ((bitList 8 s.cci.abortReq).filter fun n => !s.abortWaits n) ≠ 0)
    (hmb : (s.mb 7).state ≠ .posted) :
    exec .abortEscalation s = .next
      (let t := s.waitUntil (s.cci.abortSince + ticksMs 1)
       let u := t.setFld 0x10C 15 8 (t.fld 0x10C 15 8 |||
         maskOf ((bitList 8 s.cci.abortReq).filter fun n => !s.abortWaits n))
       if u.mgmtDown.isSome then { u with mgmtWhy := 3 } else mgmtFault 3 u) := by
  have hcmd : ((s.mb 7).state == .posted) = false := beq_false_of_ne hmb
  change execAbortEscalation s = _
  simp [execAbortEscalation, hmode, hsafe, hup, hdown, hreq, hcmd]

/-- R24, R274: a group restart under way ends. -/
theorem exec_groupRestart_of_restarting {g : Fin 6} {s : State} (hg : g.val < s.nGroups)
    (hsafe : s.warden.safe = false) (hup : s.boot.up = true) (hdom : (s.dom (3 + g.val)).st = 0)
    (he : (s.group g.val).engine = 1) : exec (.groupRestart g) s = .next (groupRestarted g.val s) := by
  have hn : ¬ s.nGroups ≤ g.val := by omega
  change execGroupRestart g s = _
  simp [execGroupRestart, hn, hsafe, hup, hdom, he]

theorem exec_groupRestartTimeout_of_restarting {g : Fin 6} {s : State} (he : (s.group g.val).engine = 1) :
    exec (.groupRestartTimeout g) s = .next
      (let t := s.waitUntil ((s.group g.val).restartAt + ticksMs 15)
       faultHold (48 + g.val) (faultPulse 107 (groupEvent g.val 8 [3]
         (t.setGroup g.val { t.group g.val with engine := 2 })))) := by
  change execGroupRestartTimeout g s = _
  simp [execGroupRestartTimeout, he]

/-- Settles O41, row by row. The escalation's test for a restart already under way is the model's choice (log 24). -/
theorem restartRowsComplete : Obligations.RestartRowsComplete := by
  unfold Obligations.RestartRowsComplete
  refine ⟨fun c t s hup hsafe hmode hdown htrial => ?restart, fun t s hdown => ?timeout,
    fun s hmode hsafe hup hdown hreq hmb => ?escalation, fun g s hg hsafe hup hdom he => ?group,
    fun g s he => ?groupTimeout⟩
  case restart => exact exec_managementRestart_of_down hup hsafe hmode hdown htrial
  case timeout => exact exec_managementRestartTimeout_of_down hdown
  case escalation => exact exec_abortEscalation_of_requests hmode hsafe hup hdown hreq hmb
  case group => exact exec_groupRestart_of_restarting hg hsafe hup hdom he
  case groupTimeout => exact exec_groupRestartTimeout_of_restarting he

end Sys2Proof
end

section
/-!
SUPPORT. One word of the register space: which registers a word written reaches, what a window of a mailbox reads as
after a write, and what a read of one register changes.
-/

namespace Sys2Proof.Machine

/-! ### Bytes of a word -/

theorem rdLe_le (n v : Nat) : rdLe (le n v) = v % 256 ^ n := by
  induction n generalizing v with
  | zero => simp [le, rdLe, Nat.mod_one]
  | succ n ih =>
    have hb : (byte v).toNat = v % 256 := BitVec.toNat_ofNat _ _
    rw [le, rdLe, ih, hb, Nat.pow_succ', Nat.mod_mul]

theorem and_all32 {v : Nat} (h : v < 2 ^ 32) : v &&& 4294967295 = v :=
  Nat.and_two_pow_sub_one_of_lt_two_pow h

/-! ### Windows of the mailboxes (R63) -/

/-- A byte of a window after bytes were put into it. -/
theorem getD_putWin (l : List Byte) (t : Tbl Byte) (off i : Nat) :
    Tbl.getD 0 (putWin t off l) i =
      if off ≤ i ∧ i < off + l.length then l.getD (i - off) 0 else Tbl.getD 0 t i := by
  induction l generalizing t off with
  | nil => rw [putWin, if_neg (by simp)]
  | cons b l ih =>
    rw [putWin, ih, Tbl.getD_setD]
    by_cases hi : i = off
    · subst hi
      simp
    · by_cases hin : off + 1 ≤ i ∧ i < off + 1 + l.length
      · obtain ⟨k, rfl⟩ : ∃ k, i = off + 1 + k := ⟨i - (off + 1), by omega⟩
        have h1 : off + 1 + k - off = k + 1 := by omega
        have h2 : off ≤ off + 1 + k ∧ off + 1 + k < off + (b :: l).length := by simp; omega
        rw [if_pos hin, if_pos h2, h1, Nat.add_sub_cancel_left, List.getD_cons_succ]
      · have h2 : ¬(off ≤ i ∧ i < off + (b :: l).length) := by simp; omega
        rw [if_neg hin, if_neg hi, if_neg h2]

/-- The bytes put into a window stand there. -/
theorem bytes_putWin (m : Mailbox) (off : Nat) (l : List Byte) :
    Mailbox.bytes { m with win := putWin m.win off l } off l.length = l := by
  refine List.ext_getElem (by simp [Mailbox.bytes]) fun i h1 h2 => ?_
  have h := getD_putWin l m.win off (off + i)
  rw [if_pos ⟨by omega, by omega⟩, Nat.add_sub_cancel_left, ← List.getElem_eq_getD] at h
  simp only [Mailbox.bytes, List.getElem_map, List.getElem_range]
  exact h

theorem bytes_putWin_le4 (m : Mailbox) (off v : Nat) :
    Mailbox.bytes { m with win := putWin m.win off (le 4 v) } off 4 = le 4 v := bytes_putWin m off (le 4 v)

/-- The offset of word `o` of the window of mailbox `n`. -/
def winOff (n : Fin 8) (o : Fin 64) : Nat := 0x400 + 0x100 * n.val + 4 * o.val

theorem winOff_bounds (n : Fin 8) (o : Fin 64) : 0x400 ≤ winOff n o ∧ winOff n o < 0xC00 := by
  unfold winOff; omega

theorem winOff_mod (n : Fin 8) (o : Fin 64) : winOff n o % 0x100 = 4 * o.val := by unfold winOff; omega

theorem winOff_div (n : Fin 8) (o : Fin 64) : (winOff n o - 0x400) / 0x100 = n.val := by unfold winOff; omega

theorem toNat_winOff (n : Fin 8) (o : Fin 64) :
    (BitVec.ofNat 16 (0x400 + 0x100 * n.val + 4 * o.val)).toNat = winOff n o := by
  rw [BitVec.toNat_ofNat, winOff]; omega

/-- A word of the window of a mailbox that is not POSTED is written (R63). -/
theorem writeWin_winOff {n : Fin 8} {s : State} (o : Fin 64) (val : Nat) (h : (s.mb n.val).state ≠ .posted) :
    writeWin (winOff n o) val s =
      s.setMb n.val { s.mb n.val with win := putWin (s.mb n.val).win (4 * o.val) (le 4 val) } := by
  have hne : ((s.mb n.val).state == .posted) = false := beq_false_of_ne h
  simp only [writeWin, winOff_div, winOff_mod, hne, Bool.false_eq_true, if_false]

/-! ### Registers on the hub's own side -/

/-- The hub has this register on either part, and it lies on no port die (R38, R140, R172, R338, R478). -/
def ownReg (off : Nat) : Prop := off < 0x1000 ∨ 0x3C00 ≤ off ∧ off < 0x6100

theorem dieport_of_own {off : Nat} (h : ownReg off) : dieport off = none := by
  unfold ownReg at h
  unfold dieport
  rw [if_neg, if_neg, if_neg] <;> simp <;> omega

theorem absentReg_of_own {off : Nat} (h : ownReg off) (s : State) : s.absentReg off = false := by
  have hd : ¬ 0x6100 ≤ off := by unfold ownReg at h; omega
  simp [State.absentReg, dieport_of_own h, hd]

theorem dieOff_of_own {off : Nat} (h : ownReg off) (s : State) : s.dieOff off = false := by
  simp [State.dieOff, dieport_of_own h]

theorem postedDom_of_own {off : Nat} (h : ownReg off) (hk : off < 0xD00 ∨ 0xE00 ≤ off) : postedDom off = none := by
  unfold postedDom
  rw [if_neg (by simp; omega), dieport_of_own h]
  rfl

/-! ### The gates of R50 and R503 -/

theorem gateRefusal_of_low {off : Nat} (h : off < 0x1000) (ht : off < 0xE00 ∨ 0xF00 ≤ off) (s : State) :
    gateRefusal off s = none := by
  unfold gateRefusal
  rw [if_neg (by simp; omega), if_neg (by simp; omega)]

theorem gateRefusal_of_window {off : Nat} {s : State} (h1 : 0x1000 ≤ off) (h2 : off < 0x7000)
    (ho : s.windowOpen (off / 0x1000 - 1) = true) : gateRefusal off s = none := by
  simp [gateRefusal, h1, h2, ho]

theorem gateRefusal_of_tmux {off : Nat} {s : State} (h1 : 0xE00 ≤ off) (h2 : off < 0xF00)
    (he : s.cci.expert.contains 0x0E = true) (hd : s.boot.otpTmuxOff = false) : gateRefusal off s = none := by
  unfold gateRefusal
  rw [if_neg (by simp; omega), if_neg (by rw [he, hd]; simp)]

/-! ### What one word written comes to -/

/-- The host writes, and the word at this offset is one of the hub's own registers, open to it, and no data unit. -/
structure Reaches (off : Nat) (s : State) : Prop where
  writes : s.hostWrites = true
  aligned : off % 4 = 0
  own : ownReg off
  gate : gateRefusal off s = none
  noData : off < 0x1C0 ∨ 0x200 ≤ off

variable {off val : Nat} {s : State}

theorem Reaches.lt (h : Reaches off s) : off < 0x7000 := by have := h.own; unfold ownReg at this; omega

theorem Reaches.of_low (hw : s.hostWrites = true) (ha : off % 4 = 0) (hl : off < 0x1000)
    (hd : off < 0x1C0 ∨ 0x200 ≤ off) (ht : off < 0xE00 ∨ 0xF00 ≤ off) : Reaches off s :=
  ⟨hw, ha, .inl hl, gateRefusal_of_low hl ht s, hd⟩

theorem Reaches.of_window (hw : s.hostWrites = true) (ha : off % 4 = 0) (h1 : 0x3C00 ≤ off) (h2 : off < 0x6100)
    (ho : s.windowOpen (off / 0x1000 - 1) = true) : Reaches off s :=
  ⟨hw, ha, .inr ⟨h1, h2⟩, gateRefusal_of_window (by omega) (by omega) ho, .inr (by omega)⟩

/-- A write of one register word, where it is no data unit (R81), is that word's operation. -/
theorem writeFrame_one (ha : off % 4 = 0) (ho : off < 0x8000) (hd : off < 0x1C0 ∨ 0x200 ≤ off)
    (hw : s.hostWrites = true) :
    writeFrame off (le 4 val) s = writeWord ((s.hrs.posted.map (·.dom)).eraseDups) off (val % 4294967296) s := by
  have h := hostWrite_one off val s hw ha ho (by omega)
  have hal : aligned off = true := by simp [aligned, ha]
  rw [hostWrite, hw, hal, Bool.and_self, if_pos rfl] at h
  cases h1 : writeFrame off (le 4 val) s <;> cases h2 : writeWord _ off (val % 4294967296) s <;>
    simp_all [wrote]

/-- Where the host cannot write, or no register stands, nothing is written (R30, R449). -/
theorem hostWrite_of_not_writes (h : s.hostWrites = true → off % 4 ≠ 0) : hostWrite off val s = .next s := by
  have hn : ¬((s.hostWrites && aligned off) = true) := by simpa [aligned] using h
  rw [hostWrite, if_neg hn]

theorem hostWrite_of_reaches (h : Reaches off s) (hv : val < 2 ^ 32) :
    hostWrite off val s = wrote (writeWord ((s.hrs.posted.map (·.dom)).eraseDups) off val s) := by
  have hd := h.noData
  have hl := h.lt
  rw [hostWrite_one off val s h.writes h.aligned (by omega) (by omega)]
  rw [show val % 4294967296 = val from Nat.mod_eq_of_lt hv]

theorem writeWord_of_reserved (h : Reaches off s) (hr : val &&& rsvMask s.variant off ≠ 0) (busy : List Nat) :
    writeWord busy off val s = none := by
  have hl := h.lt
  rw [writeWord, if_neg (by omega), h.gate]
  simp [absentReg_of_own h.own, dieOff_of_own h.own, hr]

/-- A word with 0 in every reserved live bit is posted, or takes its effect at once. -/
theorem writeWord_of_legal (h : Reaches off s) (hr : val &&& rsvMask s.variant off = 0) (busy : List Nat) :
    writeWord busy off val s = some (match postedDom off with
      | some d => acceptPosted d off val busy s
      | none => applyWrite off val 4294967295 s) := by
  have hl := h.lt
  rw [writeWord, if_neg (by omega), h.gate]
  simp only [absentReg_of_own h.own, dieOff_of_own h.own, hr, Bool.false_eq_true, if_false, bne_self_eq_false]
  cases postedDom off <;> rfl

/-- R43: the model stops. -/
theorem hostWrite_of_reserved (h : Reaches off s) (hv : val < 2 ^ 32) (hr : val &&& rsvMask s.variant off ≠ 0) :
    hostWrite off val s = .fault .reservedLiveWrite := by
  rw [hostWrite_of_reaches h hv, writeWord_of_reserved h hr, wrote]

/-- A write that is not posted takes its effect at once. -/
theorem hostWrite_of_legal (h : Reaches off s) (hk : off < 0xD00 ∨ 0xE00 ≤ off) (hv : val < 2 ^ 32)
    (hr : val &&& rsvMask s.variant off = 0) : hostWrite off val s = .next (applyWrite off val 4294967295 s) := by
  rw [hostWrite_of_reaches h hv, writeWord_of_legal h hr, postedDom_of_own h.own hk, wrote]

/-- Offsets from 0x7000 on hold no register (R33). -/
theorem hostWrite_above (ha : off % 4 = 0) (h1 : 0x7000 ≤ off) (h2 : off < 0x8000) (s : State) :
    hostWrite off val s = .next s := by
  cases hw : s.hostWrites with
  | false => exact hostWrite_of_not_writes (by simp [hw])
  | true => rw [hostWrite_one off val s hw ha h2 (by omega), writeWord, if_pos h1, wrote]

/-! ### Reads of one register -/

/-- A read of a `*_LO` register latches a partner at the value given (R140, R476). -/
def latchPartner (value : Nat → Nat) (t : State) (h : Nat) : State :=
  { t with hrs.latched := Tbl.setD none t.hrs.latched h (some (BitVec.ofNat 32 (value h))) }

theorem readReg_eq (off : Nat) (s : State) : readReg off s =
    (match Tbl.getD none s.hrs.latched off with
      | some w => w.toNat
      | none => s.regValue off,
     let t := (partners off).foldl (latchPartner s.regValue)
       { s with hrs.latched := Tbl.setD none s.hrs.latched off none }
     let m := rcMask t.variant off
     if m == 0 || t.absentReg off || t.dieOff off then t else clearBits off m t) := rfl

theorem foldl_latchPartner_frame (value : Nat → Nat) (l : List Nat) (t : State) :
    l.foldl (latchPartner value) t = { t with hrs.latched := (l.foldl (latchPartner value) t).hrs.latched } := by
  induction l generalizing t with
  | nil => rfl
  | cons h l ih => rw [List.foldl_cons, ih]; rfl

theorem getD_latchPartner (value : Nat → Nat) (t : State) (h j : Nat) :
    Tbl.getD none (latchPartner value t h).hrs.latched j =
      if j = h then some (BitVec.ofNat 32 (value h)) else Tbl.getD none t.hrs.latched j := by
  rw [latchPartner, Tbl.getD_setD]

theorem getD_foldl_latchPartner (value : Nat → Nat) {h : Nat} (l : List Nat) (t : State)
    (hm : h ∈ l ∨ Tbl.getD none t.hrs.latched h = some (BitVec.ofNat 32 (value h))) :
    Tbl.getD none (l.foldl (latchPartner value) t).hrs.latched h = some (BitVec.ofNat 32 (value h)) := by
  induction l generalizing t with
  | nil => exact hm.resolve_left (by simp)
  | cons k l ih =>
    refine ih _ ?_
    rw [getD_latchPartner]
    by_cases hk : h = k
    · simp [hk]
    · rw [if_neg hk]
      exact hm.imp_left fun hl => (List.mem_cons.1 hl).resolve_left hk

theorem clearBits_frame (off m : Nat) (s : State) : clearBits off m s = { s with hrs := (clearBits off m s).hrs } := by
  unfold clearBits
  split <;> rfl

theorem readReg_value {off : Nat} {s : State} (h : Tbl.getD none s.hrs.latched off = none) :
    (readReg off s).1 = s.regValue off := by
  rw [readReg_eq, h]

/-- R34: a read of a register changes the registers' own state at most. -/
theorem readReg_frame (off : Nat) (s : State) : (readReg off s).2 = { s with hrs := (readReg off s).2.hrs } := by
  rw [readReg_eq]
  dsimp only
  split
  · rw [foldl_latchPartner_frame]
  · rw [clearBits_frame, foldl_latchPartner_frame]

theorem readReg_partners {off h : Nat} (hm : h ∈ partners off) (s : State) :
    Tbl.getD none (readReg off s).2.hrs.latched h = some (BitVec.ofNat 32 (s.regValue h)) := by
  rw [readReg_eq]
  dsimp only
  split
  · exact getD_foldl_latchPartner _ _ _ (.inl hm)
  · rw [clearBits_latched]
    exact getD_foldl_latchPartner _ _ _ (.inl hm)

theorem reg_clearBits {off : Nat} (h : off ≠ 0x14) (m : Nat) (s : State) :
    (clearBits off m s).reg off = s.reg off - (s.reg off &&& m) := by
  have hlt := reg_lt s off
  rw [clearBits, if_neg (by simpa using h), reg_setReg_same, Nat.mod_eq_of_lt (by omega)]

/-- R34: the RC bits of a register are 0 after a read. -/
theorem readReg_rc {off n : Nat} {s : State} (h14 : off ≠ 0x14) (habs : s.absentReg off = false)
    (hdie : s.dieOff off = false) (hb : bit (rcMask s.variant off) n = true) :
    bit ((readReg off s).2.reg off) n = false := by
  have hm : rcMask s.variant off ≠ 0 := fun h0 => by simp [h0, bit] at hb
  rw [readReg_eq]
  dsimp only
  rw [foldl_latchPartner_frame, if_neg, reg_clearBits h14]
  · exact bit_clear _ _ _ hb
  · simp only [Bool.or_eq_true, beq_iff_eq, not_or, Bool.not_eq_true]
    exact ⟨⟨hm, habs⟩, hdie⟩

/-- The three rows that read one register at an offset the host names are one operation. -/
theorem exec_rcFieldRead_of_on {off : BitVec 16} {s : State} (h : s.hostOn = true) (ha : off.toNat % 4 = 0) :
    exec (.rcFieldRead off) s = .next (readFrame off.toNat 1 s) := by
  change execRcFieldRead off s = _
  simp [execRcFieldRead, h, aligned, ha]

theorem exec_loRegisterRead_of_on {off : BitVec 16} {s : State} (h : s.hostOn = true) (ha : off.toNat % 4 = 0) :
    exec (.loRegisterRead off) s = .next (readFrame off.toNat 1 s) := by
  change execLoRegisterRead off s = _
  simp [execLoRegisterRead, h, aligned, ha]

end Sys2Proof.Machine
end

section
/-!
SUPPORT. Registers the rows of chapter 2 name: their reserved live bits, what a write of the lock registers, the windows
and `TMUX_SELn` comes to, and what a window reads as.
-/

namespace Sys2Proof.Machine

variable {off val : Nat} {s : State}

/-! ### The reserved live bits of some registers (R43) -/

theorem rsvMask_win (v : Variant) (h1 : 0x400 ≤ off) (h2 : off < 0xC00) : rsvMask v off = 0 := by
  have hf : fields v off = [fRW 31 0] := by
    unfold fields
    rw [if_neg (by omega), if_neg (by omega), if_neg (by omega), if_neg (by omega), if_pos h2]
  rw [rsvMask, hf]
  rfl

/-- 0x0F00 to 0x0FFF is reserved live throughout (R33). -/
theorem rsvMask_reserved (v : Variant) (h1 : 0xF00 ≤ off) (h2 : off < 0x1000) : rsvMask v off = 0xFFFFFFFF := by
  have hf : fields v off = [] := by
    unfold fields
    rw [if_neg (by omega), if_neg (by omega), if_neg (by omega), if_neg (by omega), if_neg (by omega),
      if_neg (by omega), if_neg (by omega), if_neg (by omega), if_pos h2]
  rw [rsvMask, hf]
  rfl

theorem rsvMask_lock0 (v : Variant) : rsvMask v 0x300 = 0xFFFFFC00 := by cases v <;> rfl
theorem rsvMask_portLo (v : Variant) : rsvMask v 0x304 = 0 := by cases v <;> rfl
theorem rsvMask_portHi (v : Variant) : rsvMask v 0x308 = 0xFFFF0000 := by cases v <;> rfl
theorem rsvMask_campClear (v : Variant) : rsvMask v 0xC18 = 0xFFFFFFFE := by cases v <;> rfl
theorem rsvMask_campForce (v : Variant) : rsvMask v 0xC1C = 0xFFFFFFFC := by cases v <;> rfl

theorem fields_ltn (v : Variant) : fields v 0xD10 = [fRO 15 0, fW1S 16 16] := rfl
theorem rsvMask_ltn (v : Variant) : rsvMask v 0xD10 = 0xFFFE0000 := by rw [rsvMask, fields_ltn]; rfl

/-! ### The writes of these registers -/

theorem applyWrite_locks (h1 : 0x300 ≤ off) (h2 : off < 0x30C) (hv : val < 2 ^ 32) (s : State) :
    applyWrite off val 4294967295 s = setLocks off val s := by
  unfold applyWrite
  simp only [beq_iff_eq, Bool.and_eq_true, decide_eq_true_eq, and_all32 hv]
  rw [if_neg (by omega), if_neg (by omega), if_neg (by omega), if_pos ⟨h1, h2⟩]

theorem applyWrite_win (h1 : 0x400 ≤ off) (h2 : off < 0xC00) (mask : Nat) (s : State) :
    applyWrite off val mask s = writeWin off val s := by
  unfold applyWrite
  simp only [beq_iff_eq, Bool.and_eq_true, decide_eq_true_eq]
  rw [if_neg (by omega), if_neg (by omega), if_neg (by omega), if_neg (by omega), if_pos ⟨h1, h2⟩]

theorem applyWrite_tmuxSel (h1 : 0xE10 ≤ off) (h2 : off < 0xE30) (mask : Nat) (s : State) :
    applyWrite off val mask s = writePlain off val mask true s := by
  unfold applyWrite
  simp only [beq_iff_eq, Bool.and_eq_true, decide_eq_true_eq]
  rw [if_neg (by omega), if_neg (by omega), if_neg (by omega), if_neg (by omega), if_neg (by omega), if_neg (by omega),
    if_neg (by omega), if_neg (by omega), if_neg (by omega), if_neg (by omega), if_neg (by omega), if_neg (by omega)]

/-- A word of the window of a mailbox that is not POSTED takes what is written (R63). -/
theorem writeWord_winOff {n : Fin 8} (o : Fin 64) (hw : s.hostWrites = true) (hp : (s.mb n.val).state ≠ .posted)
    (busy : List Nat) : writeWord busy (winOff n o) val s =
      some (s.setMb n.val { s.mb n.val with win := putWin (s.mb n.val).win (4 * o.val) (le 4 val) }) := by
  obtain ⟨h1, h2⟩ := winOff_bounds n o
  have hr : Reaches (winOff n o) s :=
    .of_low hw (by unfold winOff; omega) (by omega) (.inr (by omega)) (.inl (by omega))
  rw [writeWord_of_legal hr (by rw [rsvMask_win _ h1 h2, Nat.and_zero]), postedDom_of_own hr.own (.inl (by omega))]
  simp only [applyWrite_win h1 h2, writeWin_winOff o val hp]

/-- The word of a window shows what stands in it (R34). -/
theorem regValue_winOff (n : Fin 8) (o : Fin 64) (s : State) :
    s.regValue (winOff n o) = rdLe ((s.mb n.val).bytes (4 * o.val) 4) := by
  obtain ⟨h1, h2⟩ := winOff_bounds n o
  have hown : ownReg (winOff n o) := .inl (by omega)
  have h3 : ¬ 0x7000 ≤ winOff n o := by omega
  simp [State.regValue, absentReg_of_own hown, dieOff_of_own hown, h1, h2, h3, State.winWord, winOff_mod, winOff_div]

/-! ### `TMUX_SELn` (R504) -/

theorem fields_tmuxSel (v : Variant) (h1 : 0xE10 ≤ off) (h2 : off < 0xE30) : fields v off = [fRW 2 0, fRW 31 16] := by
  unfold fields fieldsTmux
  rw [if_neg (by omega), if_neg (by omega), if_neg (by omega), if_neg (by omega), if_neg (by omega), if_neg (by omega),
    if_neg (by omega), if_pos (by omega), if_neg (by omega), if_neg (by omega), if_pos (by simp [h1, h2])]

theorem rsvMask_tmuxSel (v : Variant) (h1 : 0xE10 ≤ off) (h2 : off < 0xE30) : rsvMask v off = 0xFFF8 := by
  rw [rsvMask, fields_tmuxSel v h1 h2]
  rfl

theorem valueBad_tmuxSel (h1 : 0xE10 ≤ off) (h2 : off < 0xE30) (s : State) (v : Nat) :
    s.valueBad off v =
      (decide (5 < bits v 2 0) || bits v 31 16 == 65535 || !s.tmuxCode (bits v 2 0) (bits v 31 16)) := by
  unfold State.valueBad
  simp only [beq_iff_eq, Bool.and_eq_true, decide_eq_true_eq]
  rw [if_neg (by omega), if_neg (by omega), if_neg (by omega), if_neg (by omega), if_pos ⟨h1, h2⟩]

/-- A register of RW fields alone, none of them under a lock or CFG, takes its new value (R34). -/
theorem judgeFields_of_free {old new : Nat} {locks : Bool}
    (h : ∀ f ∈ fields s.variant off, f.lk = false ∧ f.cfg = false) :
    judgeFields off old new locks s = (new, false, false) := by
  unfold judgeFields
  dsimp only
  generalize fields s.variant off = l at h
  induction l with
  | nil => rfl
  | cons f l ih =>
    obtain ⟨hl, hc⟩ := h f (by simp)
    simp only [List.foldl_cons, hl, hc, Bool.false_and, Bool.false_eq_true, if_false, ite_self]
    exact ih fun f hf => h f (by simp [hf])

/-- The bits of `TMUX_SELn`: `GROUP` and `CODE` (R506). -/
def tmuxSelMask : Nat := 0xFFFF0007

theorem bits_blend_tmuxSel (old new : Nat) :
    bits (blend old new tmuxSelMask) 2 0 = bits new 2 0 ∧ bits (blend old new tmuxSelMask) 31 16 = bits new 31 16 :=
  ⟨bits_blend _ _ _ _ _ (by decide), bits_blend _ _ _ _ _ (by decide)⟩

theorem blend_blend (old new m : Nat) : blend old (blend old new m) m = blend old new m := by
  refine Nat.eq_of_testBit_eq fun k => ?_
  simp only [testBit_blend]
  split <;> rfl

theorem setReg_setReg (s : State) (off v w : Nat) : (s.setReg off v).setReg off w = s.setReg off w :=
  congrArg (fun r => ({ s with hrs.regs := r } : State)) (Tbl.setD_setD none s.hrs.regs off _ _)

/-- A bit field of a stored register reads what was stored. -/
theorem fld_setReg (s : State) (off v : Nat) {hi lo : Nat} (h : hi < 32) :
    (s.setReg off v).fld off hi lo = bits v hi lo := by
  rw [State.fld, reg_setReg_same]
  refine Nat.eq_of_testBit_eq fun k => ?_
  rw [testBit_bits, testBit_bits, Nat.testBit_mod_two_pow]
  by_cases hk : k < hi + 1 - lo
  · simp [show lo + k < 32 by omega]
  · simp [hk]

theorem hasEnable_tmuxSel (v : Variant) (h1 : 0xE10 ≤ off) (h2 : off < 0xE30) : hasEnable v off = false := by
  have hc : ctrlOf off = 0xE00 := by
    unfold ctrlOf
    rw [if_neg (by omega), if_neg (by omega), if_neg (by omega), if_neg (by omega), if_neg (by omega),
      if_pos (by omega)]
  have hne : (0xE00 == off) = false := by simp; omega
  simp [hasEnable, hc, hne]

theorem clampReg_tmuxSel (h1 : 0xE10 ≤ off) (h2 : off < 0xE30) (v : Nat) : clampReg off v = v := by
  unfold clampReg
  simp only [beq_iff_eq, Bool.and_eq_true]
  rw [if_neg (by omega), if_neg (by omega), if_neg (by omega)]

theorem afterStore_tmuxSel (h1 : 0xE10 ≤ off) (h2 : off < 0xE30) (t : State) : afterStore off t = t := by
  unfold afterStore
  simp only [beq_iff_eq, Bool.or_eq_true]
  rw [if_neg (by omega), if_neg (by omega), if_neg (by omega), if_neg (by omega)]

/-- A selection that `TMUX_SELn` takes is stored as written (R504). -/
theorem writePlain_tmuxSel (h1 : 0xE10 ≤ off) (h2 : off < 0xE30) (hsel : bits val 2 0 ≤ 5)
    (hcode : bits val 31 16 ≠ 65535) (hok : s.tmuxCode (bits val 2 0) (bits val 31 16) = true) :
    writePlain off val 4294967295 true s = s.setReg off (blend (s.reg off) val tmuxSelMask) := by
  have hf := fields_tmuxSel s.variant h1 h2
  have hrw : rwMask s.variant off = tmuxSelMask := by rw [rwMask, hf]; rfl
  have hall : tmuxSelMask &&& 4294967295 = tmuxSelMask := rfl
  have hreg : s.reg off % 4294967296 = s.reg off := Nat.mod_eq_of_lt (reg_lt s off)
  have hw1c : w1cMask s.variant off = 0 := by rw [w1cMask, hf]; rfl
  have hfree (old new : Nat) : judgeFields off old new true s = (new, false, false) :=
    judgeFields_of_free (by rw [hf]; decide)
  have hbad : s.valueBad off (blend (s.reg off) val tmuxSelMask) = false := by
    obtain ⟨hs, hc⟩ := bits_blend_tmuxSel (s.reg off) val
    rw [valueBad_tmuxSel h1 h2, hs, hc, hok]
    simp [hsel, hcode]
  simp [writePlain, hrw, hall, hreg, hw1c, hasEnable_tmuxSel _ h1 h2, hfree, clampReg_tmuxSel h1 h2,
    afterStore_tmuxSel h1 h2, hbad, setReg_setReg, blend_blend]

end Sys2Proof.Machine
end

section
/-!
PROOFS for the rows of the register space (chapter 2): the step, the reset state, the reserved fields and regions, the
windows, and the register writes and reads.
-/

namespace Sys2Proof

open Sys2Proof.Machine

/-! ### The step and the reset state -/

theorem step_of_pending {c : Instr} {l : List Instr} {s : State} (h : s.pending = c :: l) :
    step s = exec c { s with pending := l } := by
  unfold step
  rw [h]

/-- Settles O1. -/
theorem stepRunsFrontCommand : Obligations.StepRunsFrontCommand := by
  unfold Obligations.StepRunsFrontCommand
  exact fun c l s h => step_of_pending h

/-- Settles O3: the tables of the reset state are empty, so every key reads as its default. -/
theorem resetState : Obligations.ResetState := by
  unfold Obligations.ResetState
  exact ⟨rfl, rfl, rfl, rfl, fun _ => rfl, fun _ => ⟨rfl, rfl⟩, rfl, rfl, rfl, fun _ => rfl, rfl, rfl⟩

/-! ### Reserved fields and regions -/

/-- Settles O12. A reserved live field reads 0, so any 1 is another value: the model's choice (log 14). -/
theorem reservedLiveWriteStops : Obligations.ReservedLiveWriteStops := by
  unfold Obligations.ReservedLiveWriteStops
  refine ⟨fun off val s hw ha hl hd ht hr => ?low, fun off val s hw ha h1 h2 ho hr => ?window⟩
  case low => exact hostWrite_of_reserved (.of_low hw ha hl hd ht) val.isLt hr
  case window => exact hostWrite_of_reserved (.of_window hw ha (by omega) (by omega) ho) val.isLt hr

theorem regValue_above {off : Nat} (h : 0x7000 ≤ off) (s : State) : s.regValue off = 0 := by
  simp [State.regValue, h]

/-- R47: an alias write of a reserved live bit is ignored. -/
theorem writeBit_of_reserved {off : Nat} {s : State}
    (h : bit (rsvMask s.variant (mirrorBit off).1) (mirrorBit off).2 = true) (val : Nat) : writeBit off val s = s := by
  simp [writeBit, h]

theorem exec_bitAliasWrite_of_writes {off : BitVec 16} {s : State} (hw : s.hostWrites = true) (ha : off.toNat % 4 = 0)
    (h : 0x8000 ≤ off.toNat) (val : Word) :
    exec (.bitAliasWrite off val) s = .next (writeBit off.toNat val.toNat s) := by
  change execBitAliasWrite off val s = _
  rw [execBitAliasWrite, if_pos h, hostWrite_bit _ _ _ hw ha h, val_mod]

theorem exec_bitAliasWrite_of_reserved {off : BitVec 16} {s : State} (ha : off.toNat % 4 = 0)
    (hb : bit (rsvMask s.variant (mirrorBit off.toNat).1) (mirrorBit off.toNat).2 = true) (val : Word) :
    exec (.bitAliasWrite off val) s = .next s := by
  by_cases h : s.hostWrites = true ∧ 0x8000 ≤ off.toNat
  · rw [exec_bitAliasWrite_of_writes h.1 ha h.2, writeBit_of_reserved hb]
  · change execBitAliasWrite off val s = _
    unfold execBitAliasWrite
    split
    · next h8 => exact hostWrite_of_not_writes fun hw => absurd ⟨hw, h8⟩ h
    · rfl

/-- What a read of one register answers, where no partner's read has latched it. -/
theorem readFrame_value {off : Nat} {s : State} (ho : off < 0x8000) (h : Tbl.getD none s.hrs.latched off = none) :
    (readFrame off 1 s).rdata = le 4 (s.regValue off) := by
  rw [readFrame_one off s ho, readReg_value h]

/-- Settles O13. -/
theorem reservedRegions : Obligations.ReservedRegions := by
  unfold Obligations.ReservedRegions
  refine ⟨fun off s hon ha h1 h2 hl => ?read, fun off val s ha h1 h2 => ?write, fun v off h1 h2 => ?live,
    fun off val s ha hb => ?bitRegion⟩
  case read =>
    refine ⟨_, exec_rcFieldRead_of_on hon ha, ?_⟩
    rw [readFrame_value h2 hl, regValue_above h1]
    rfl
  case write => exact hostWrite_above ha h1 h2 s
  case live => exact rsvMask_reserved v h1 h2
  case bitRegion => exact exec_bitAliasWrite_of_reserved ha hb val

/-! ### The windows of the mailboxes -/

theorem exec_registerWrite_winOff {n : Fin 8} {val : Word} {s : State} (o : Fin 64) (hw : s.hostWrites = true)
    (hp : (s.mb n.val).state ≠ .posted) :
    exec (.registerWrite (BitVec.ofNat 16 (0x400 + 0x100 * n.val + 4 * o.val)) val) s = .next
      (s.setMb n.val { s.mb n.val with win := putWin (s.mb n.val).win (4 * o.val) (le 4 val.toNat) }) := by
  obtain ⟨h1, h2⟩ := winOff_bounds n o
  change hostWrite (BitVec.ofNat 16 (0x400 + 0x100 * n.val + 4 * o.val)).toNat val.toNat s = _
  rw [toNat_winOff, hostWrite_one _ _ _ hw (by unfold winOff; omega) (by omega) (by omega), val_mod,
    writeWord_winOff o hw hp, wrote]

/-- Settles O17: a word of a window is written and read back, for DONE mailboxes too (the model's choice, log 11); a
read of a register is the frame of `readReg`. -/
theorem windowsReadBack : Obligations.WindowsReadBack := by
  unfold Obligations.WindowsReadBack
  refine ⟨fun n o val s hw hp => ?window, fun off s t ho hx => ?read⟩
  case window =>
    obtain ⟨h1, h2⟩ := winOff_bounds n o
    refine ⟨_, exec_registerWrite_winOff o hw hp, ?_, fun m hm => ?_⟩
    · change State.regValue _ (winOff n o) = _
      rw [regValue_winOff, mb_setMb_same, bytes_putWin_le4, rdLe_le]
      exact val_mod val
    · rw [mb_setMb, if_neg hm]
  case read =>
    change execRcFieldRead off s = _ at hx
    unfold execRcFieldRead at hx
    split at hx <;> cases hx
    · rw [readFrame_one _ _ ho, readReg_frame]
    · rfl

/-! ### Writes of the register space -/

/-- A word with 0 in every reserved live bit never stops the model (R43), whatever register it is written to. -/
theorem exists_writeWord_of_legal {off val : Nat} {s : State} (hr : val &&& rsvMask s.variant off = 0)
    (busy : List Nat) : ∃ t, writeWord busy off val s = some t := by
  have hl : ¬((val &&& rsvMask s.variant off != 0) = true) := by simp [hr]
  unfold writeWord
  rw [if_neg hl]
  by_cases h7 : 0x7000 ≤ off
  · exact ⟨_, if_pos h7⟩
  rw [if_neg h7]
  cases gateRefusal off s with
  | some t => exact ⟨t, rfl⟩
  | none =>
    dsimp only
    split
    · exact ⟨_, rfl⟩
    · split
      · exact ⟨_, rfl⟩
      · cases postedDom off <;> exact ⟨_, rfl⟩

theorem exists_hostWrite_of_legal {off val : Nat} {s : State} (ho : off < 0x8000) (hv : val < 2 ^ 32)
    (hr : val &&& rsvMask s.variant off = 0) : ∃ t, hostWrite off val s = .next t := by
  by_cases h : s.hostWrites = true ∧ off % 4 = 0
  · obtain ⟨hw, ha⟩ := h
    by_cases hd : 0x1C0 ≤ off ∧ off < 0x200
    · exact ⟨_, hostWrite_data off val s hw ha hd.1 hd.2⟩
    · obtain ⟨t, ht⟩ := exists_writeWord_of_legal hr ((s.hrs.posted.map (·.dom)).eraseDups)
      refine ⟨t, ?_⟩
      rw [hostWrite_one off val s hw ha ho hd, show val % 4294967296 = val from Nat.mod_eq_of_lt hv, ht, wrote]
  · exact ⟨s, hostWrite_of_not_writes fun hw ha => h ⟨hw, ha⟩⟩

/-- A write of a lock register is `setLocks` (R41). -/
theorem exec_lockBitSet_of_legal {off : BitVec 16} {val : Word} {s : State} (hw : s.hostWrites = true)
    (ha : off.toNat % 4 = 0) (h1 : 0x300 ≤ off.toNat) (h2 : off.toNat < 0x30C)
    (hr : val.toNat &&& rsvMask s.variant off.toNat = 0) :
    exec (.lockBitSet off val) s = .next (setLocks off.toNat val.toNat s) := by
  have h : Reaches off.toNat s := .of_low hw ha (by omega) (.inr (by omega)) (.inl (by omega))
  change hostWrite off.toNat val.toNat s = _
  rw [hostWrite_of_legal h (.inl (by omega)) val.isLt hr, applyWrite_locks h1 h2 val.isLt]

theorem ofNat_toNat_mod {val : Word} {m : Nat} (h : val.toNat < m) : BitVec.ofNat 32 (val.toNat % m) = val := by
  rw [Nat.mod_eq_of_lt h, BitVec.ofNat_toNat, BitVec.setWidth_eq]

theorem exec_lockBitSet_lock0 {val : Word} {s : State} (hw : s.hostWrites = true) (hv : val.toNat < 1024) :
    exec (.lockBitSet 0x300 val) s = .next { s with hrs.lock0 := s.hrs.lock0 ||| val } := by
  have hr : val.toNat &&& rsvMask s.variant 0x300 = 0 := by rw [rsvMask_lock0]; exact and_hi _ 10 hv _ (by decide)
  rw [exec_lockBitSet_of_legal hw (by decide) (by decide) (by decide) hr]
  change Host.Outcome.next { s with hrs.lock0 := s.hrs.lock0 ||| BitVec.ofNat 32 (val.toNat % 1024) } = _
  rw [ofNat_toNat_mod hv]

theorem exec_lockBitSet_portLo {val : Word} {s : State} (hw : s.hostWrites = true) :
    exec (.lockBitSet 0x304 val) s = .next { s with hrs.portLo := s.hrs.portLo ||| val } := by
  have hr : val.toNat &&& rsvMask s.variant 0x304 = 0 := by rw [rsvMask_portLo, Nat.and_zero]
  rw [exec_lockBitSet_of_legal hw (by decide) (by decide) (by decide) hr]
  change Host.Outcome.next { s with hrs.portLo := s.hrs.portLo ||| BitVec.ofNat 32 (val.toNat % 4294967296) } = _
  rw [ofNat_toNat_mod val.isLt]

theorem exec_lockBitSet_portHi {val : Word} {s : State} (hw : s.hostWrites = true) (hs : s.variant = .svh48)
    (hv : val.toNat < 65536) :
    exec (.lockBitSet 0x308 val) s = .next { s with hrs.portHi := s.hrs.portHi ||| val } := by
  have hr : val.toNat &&& rsvMask s.variant 0x308 = 0 := by rw [rsvMask_portHi]; exact and_hi _ 16 hv _ (by decide)
  rw [exec_lockBitSet_of_legal hw (by decide) (by decide) (by decide) hr]
  change Host.Outcome.next (if s.variant = .svh48 then
    { s with hrs.portHi := s.hrs.portHi ||| BitVec.ofNat 32 (val.toNat % 65536) } else s) = _
  rw [if_pos hs, ofNat_toNat_mod hv]

/-- A posted write for an idle domain, to a register without lock fields, waits there as it came (R38, R41). -/
theorem acceptPosted_of_unlocked {d off val : Nat} {busy : List Nat} {s : State} (hb : d ∉ busy)
    (hlk : ∀ f ∈ fields s.variant off, f.lk = false) : acceptPosted d off val busy s = postWrite d off val s := by
  have hf (p : Field → Bool) : (fields s.variant off).filter (fun f => f.acc == .rw && (f.lk && p f)) = [] :=
    List.filter_eq_nil_iff.2 fun f h => by simp [hlk f h]
  simp [acceptPosted, hb, hf, blend, Bool.and_assoc]

/-- R476: `LTN_CLR` is posted to the keeper. -/
theorem exec_ltnClr_of_idle {s : State} (hw : s.hostWrites = true) (hk : ∀ p ∈ s.hrs.posted, p.dom ≠ 0) :
    exec .ltnClr s = .next { s with hrs.posted := s.hrs.posted ++ [{ dom := 0, off := 0xD10, val := 0x10000 }] } := by
  have h : Reaches 0xD10 s := .of_low hw rfl (by decide) (.inr (by decide)) (.inl (by decide))
  have hr : 0x10000 &&& rsvMask s.variant 0xD10 = 0 := by rw [rsvMask_ltn]; rfl
  have hbusy : 0 ∉ (s.hrs.posted.map (·.dom)).eraseDups := by simpa using hk
  change hostWrite 0xD10 0x10000 s = _
  rw [hostWrite_of_reaches h (by decide), writeWord_of_legal h hr, wrote]
  exact congrArg Host.Outcome.next (acceptPosted_of_unlocked hbusy (by rw [fields_ltn]; decide))

theorem exec_postedWriteComplete_of_head {d : Fin 3} {p : Posted} {l : List Posted} {s : State}
    (hp : s.hrs.posted = p :: l) (hd : p.dom = d.val) :
    exec (.postedWriteComplete d) s = .next
      (if d.val = 0 then writeKeeper p.off p.val.toNat { s with hrs.posted := l }
       else writePlain p.off p.val.toNat 4294967295 false { s with hrs.posted := l }) := by
  change execPostedWriteComplete d s = _
  simp [execPostedWriteComplete, hp, hd]

theorem exec_padHoldRelease_of_open {val : Word} {s : State} (hw : s.hostWrites = true) (ho : s.windowOpen 5 = true)
    (hr : val.toNat &&& rsvMask s.variant 0x6010 = 0) :
    exec (.padHoldRelease val) s = .next (releasePads val.toNat s) := by
  have h : Reaches 0x6010 s := .of_window hw rfl (by decide) (by decide) ho
  change hostWrite 0x6010 val.toNat s = _
  rw [hostWrite_of_legal h (.inr (by decide)) val.isLt hr]
  rfl

theorem exec_campClear_of_writes {s : State} (hw : s.hostWrites = true) :
    exec .campClear s = .next
      (if (s.src (s.fld 0xC04 6 0)).st = 3 then s.setFlag 0xC00 10 else clearSrc (s.fld 0xC04 6 0) s) := by
  have h : Reaches 0xC18 s := .of_low hw rfl (by decide) (.inr (by decide)) (.inl (by decide))
  have hr : 1 &&& rsvMask s.variant 0xC18 = 0 := by rw [rsvMask_campClear]; rfl
  change hostWrite 0xC18 1 s = _
  rw [hostWrite_of_legal h (.inl (by decide)) (by decide) hr]
  change Host.Outcome.next (writeClear s) = _
  simp only [writeClear, beq_iff_eq]
  rfl

theorem exec_campForce_of_writes {pat : BitVec 2} {s : State} (hw : s.hostWrites = true) :
    exec (.campForce pat) s = .next
      (if s.cci.expert.contains 0x0A && !(s.safetyValid && srcFixed (s.fld 0xC04 6 0)) then
         forceSrc (s.fld 0xC04 6 0) pat.toNat s
       else s.setFlag 0xC00 10) := by
  have h : Reaches 0xC1C s := .of_low hw rfl (by decide) (.inr (by decide)) (.inl (by decide))
  have hlt : pat.toNat < 2 ^ 2 := pat.isLt
  have hr : pat.toNat &&& rsvMask s.variant 0xC1C = 0 := by
    rw [rsvMask_campForce]; exact and_hi _ 2 hlt _ (by decide)
  change hostWrite 0xC1C pat.toNat s = _
  rw [hostWrite_of_legal h (.inl (by decide)) (by omega) hr]
  change Host.Outcome.next (writeForce (pat.toNat % 4) s) = _
  rw [show pat.toNat % 4 = pat.toNat from Nat.mod_eq_of_lt hlt, writeForce]
  cases s.cci.expert.contains 0x0A <;> cases s.safetyValid && srcFixed (s.fld 0xC04 6 0) <;> rfl

theorem bits_selection {sel code : Nat} (hs : sel ≤ 5) (hc : code < 65535) :
    bits (sel + 65536 * code) 2 0 = sel ∧ bits (sel + 65536 * code) 31 16 = code := by
  unfold bits
  omega

/-- Between `GROUP` and `CODE` a selection has no bit. -/
theorem selection_and_gap {sel : Nat} (hs : sel ≤ 5) (code : Nat) : (sel + 65536 * code) &&& 0xFFF8 = 0 := by
  have hm : (sel + 65536 * code) &&& 0xFFFF = sel := by
    rw [show 0xFFFF = 2 ^ 16 - 1 from rfl, Nat.and_two_pow_sub_one_eq_mod]
    omega
  calc (sel + 65536 * code) &&& 0xFFF8
      = (sel + 65536 * code) &&& 0xFFFF &&& 0xFFF8 := (Nat.and_assoc _ 0xFFFF 0xFFF8).symm
    _ = sel &&& 0xFFF8 := by rw [hm]
    _ = 0 := and_hi _ 3 (by omega) _ (by decide)

/-- R504: an allowed selection is stored. -/
theorem exec_tmuxSelWrite_of_open {n : Fin 8} {sel code : Nat} {s : State} (hw : s.hostWrites = true)
    (he : s.cci.expert.contains 0x0E = true) (hd : s.boot.otpTmuxOff = false) (hs : sel ≤ 5) (hc : code < 65535)
    (hok : s.tmuxCode sel code = true) : ∃ t,
    exec (.tmuxSelWrite (BitVec.ofNat 16 (0xE10 + 4 * n.val)) (BitVec.ofNat 32 (sel + 65536 * code))) s = .next t ∧
    t.fld (0xE10 + 4 * n.val) 2 0 = sel ∧ t.fld (0xE10 + 4 * n.val) 31 16 = code := by
  obtain ⟨hbs, hbc⟩ := bits_selection hs hc
  have h1 : 0xE10 ≤ 0xE10 + 4 * n.val := by omega
  have h2 : 0xE10 + 4 * n.val < 0xE30 := by omega
  have hoff : (BitVec.ofNat 16 (0xE10 + 4 * n.val)).toNat = 0xE10 + 4 * n.val := by rw [BitVec.toNat_ofNat]; omega
  have hval : (BitVec.ofNat 32 (sel + 65536 * code)).toNat = sel + 65536 * code := by rw [BitVec.toNat_ofNat]; omega
  have h : Reaches (0xE10 + 4 * n.val) s :=
    ⟨hw, by omega, .inl (by omega), gateRefusal_of_tmux (by omega) (by omega) he hd, .inr (by omega)⟩
  have hr : (sel + 65536 * code) &&& rsvMask s.variant (0xE10 + 4 * n.val) = 0 := by
    rw [rsvMask_tmuxSel _ h1 h2]
    exact selection_and_gap hs code
  refine ⟨s.setReg (0xE10 + 4 * n.val) (blend (s.reg (0xE10 + 4 * n.val)) (sel + 65536 * code) tmuxSelMask), ?_, ?_⟩
  · change hostWrite (BitVec.ofNat 16 (0xE10 + 4 * n.val)).toNat (BitVec.ofNat 32 (sel + 65536 * code)).toNat s = _
    rw [hoff, hval, hostWrite_of_legal h (.inr (by omega)) (by omega) hr, applyWrite_tmuxSel h1 h2,
      writePlain_tmuxSel h1 h2 (by rw [hbs]; exact hs) (by rw [hbc]; omega) (by rw [hbs, hbc]; exact hok)]
  · obtain ⟨hb1, hb2⟩ := bits_blend_tmuxSel (s.reg (0xE10 + 4 * n.val)) (sel + 65536 * code)
    rw [fld_setReg _ _ _ (by decide), fld_setReg _ _ _ (by decide), hb1, hb2]
    exact ⟨hbs, hbc⟩

/-- Settles O55, row by row. -/
theorem registerWriteRowsComplete : Obligations.RegisterWriteRowsComplete := by
  unfold Obligations.RegisterWriteRowsComplete
  refine ⟨fun off val s _ _ hl hr => ?legal, fun off val s _ ha h1 h2 => ?above, fun val s hw hv => ?lock0,
    fun val s hw => ?portLo, fun val s hw hs hv => ?portHi, fun off val s hw ha h => ?bitRegion,
    fun s hw hk => ?ltn, fun d p l s hp hd => ?posted, fun val s hw ho hr => ?pads, fun s hw => ?clear,
    fun pat s hw => ?force, fun n sel code s hw he hd hs hc hok => ?tmux⟩
  case legal => exact exists_hostWrite_of_legal (by omega) val.isLt hr
  case above => exact hostWrite_above ha h1 h2 s
  case lock0 => exact exec_lockBitSet_lock0 hw hv
  case portLo => exact exec_lockBitSet_portLo hw
  case portHi => exact exec_lockBitSet_portHi hw hs hv
  case bitRegion => exact exec_bitAliasWrite_of_writes hw ha h val
  case ltn => exact exec_ltnClr_of_idle hw hk
  case posted => exact exec_postedWriteComplete_of_head hp hd
  case pads => exact exec_padHoldRelease_of_open hw ho hr
  case clear => exact exec_campClear_of_writes hw
  case force => exact exec_campForce_of_writes hw
  case tmux => exact exec_tmuxSelWrite_of_open hw he hd hs hc hok

/-! ### Reads of the register space -/

/-- R45: a bit is read; where it is of no RC field nothing else changes. -/
theorem exec_bitAliasRead_of_on {off : BitVec 16} {s : State} (h : s.hostOn = true) (ha : off.toNat % 4 = 0)
    (ho : 0x8000 ≤ off.toNat) (hm : noMirror (mirrorBit off.toNat).1 = false) : ∃ t,
    exec (.bitAliasRead off) s = .next t ∧
    t.rdata = le 4 (b2n (bit (s.regValue (mirrorBit off.toNat).1) (mirrorBit off.toNat).2)) := by
  refine ⟨readFrame off.toNat 1 s, ?_, ?_⟩
  · change execBitAliasRead off s = _
    simp [execBitAliasRead, h, aligned, ha, ho]
  · rw [readFrame_bit _ s ho]
    simp [readBit, hm]

/-- Settles O56: what a read answers, what it clears and what it latches are those of `readReg`. -/
theorem registerReadRowsComplete : Obligations.RegisterReadRowsComplete := by
  unfold Obligations.RegisterReadRowsComplete
  refine ⟨fun off s hon ha ho hl => ?rc, fun off s hon ha ho hl => ?lo, fun off s hon ha ho hm => ?bitRegion⟩
  case rc =>
    refine ⟨_, exec_rcFieldRead_of_on hon ha, readFrame_value ho hl, fun h14 habs hdie n hb => ?_⟩
    rw [readFrame_one _ s ho]
    exact readReg_rc h14 habs hdie hb
  case lo =>
    refine ⟨_, exec_loRegisterRead_of_on hon ha, readFrame_value ho hl, fun h hm => ?_⟩
    rw [readFrame_one _ s ho]
    exact readReg_partners hm s
  case bitRegion => exact exec_bitAliasRead_of_on hon ha ho hm

/-! ### The USB path (R55, R56) -/

theorem exec_regRead_of_usb {off : BitVec 16} {len : Nat} {s : State} (hon : s.hostOn = true) (hu : s.usbHost = true) :
    exec (.regRead off len) s = .next
      (if rangeBad off.toNat len then pipeAnswer true { s with rdata := [] }
       else pipeAnswer false (readFrame off.toNat (len / 4) s)) := by
  change execRegRead off len s = _
  rw [execRegRead, hon, hu]
  cases rangeBad off.toNat len <;> rfl

theorem exec_regWrite_of_rangeBad {off : BitVec 16} {len : Nat} {data : List Byte} {s : State} (hon : s.hostOn = true)
    (hu : s.usbHost = true) (hb : rangeBad off.toNat len = true) :
    exec (.regWrite off len data) s = .next (pipeAnswer true s) := by
  change execRegWrite off len data s = _
  simp [execRegWrite, hon, hu, hb]

theorem hostOn_of_hostWrites {s : State} (h : s.hostWrites = true) : s.hostOn = true := by
  simp only [State.hostWrites, Bool.and_eq_true] at h
  exact h.1

theorem exec_regWrite_of_writeFrame {off : BitVec 16} {len : Nat} {data : List Byte} {s t : State}
    (hw : s.hostWrites = true) (hu : s.usbHost = true) (hb : rangeBad off.toNat len = false) (hlen : data.length = len)
    (ht : writeFrame off.toNat data s = some t) : exec (.regWrite off len data) s = .next (pipeAnswer false t) := by
  change execRegWrite off len data s = _
  simp [execRegWrite, hostOn_of_hostWrites hw, hw, hu, hb, hlen, ht, wrote]

theorem exec_regWrite_winOff {n : Fin 8} {v : Word} {s : State} (o : Fin 64) (hw : s.hostWrites = true)
    (hu : s.usbHost = true) (hp : (s.mb n.val).state ≠ .posted) :
    exec (.regWrite (BitVec.ofNat 16 (0x400 + 0x100 * n.val + 4 * o.val)) 4 (le 4 v.toNat)) s = .next (pipeAnswer false
      (s.setMb n.val { s.mb n.val with win := putWin (s.mb n.val).win (4 * o.val) (le 4 v.toNat) })) := by
  obtain ⟨h1, h2⟩ := winOff_bounds n o
  have ha : winOff n o % 4 = 0 := by unfold winOff; omega
  refine exec_regWrite_of_writeFrame hw hu ?range rfl ?frame
  case range =>
    have hm := winOff_mod n o
    rw [toNat_winOff]
    simp [rangeBad, ha, hm]
    omega
  case frame =>
    rw [toNat_winOff, writeFrame_one ha (by omega) (.inr (by omega)) hw, val_mod, writeWord_winOff o hw hp]

/-! ### The SPI path (R57 to R62) -/

theorem spiDriven_of_ready {h data : List Byte} {st : Nat} (hst : st ≤ 32) :
    spiDriven h data st = zeros st ++ [0xA5] ++ data ++ [byte (crc8 (h ++ data))] := by
  rw [spiDriven, if_neg (by omega)]

theorem length_spiDriven_of_ready {h data : List Byte} {st : Nat} (hst : st ≤ 32) :
    (spiDriven h data st).length = st + 2 + data.length := by
  rw [spiDriven_of_ready hst]
  simp [zeros]
  omega

/-- A read frame in range takes effect only where all of it was clocked out and the data came in time (R59). -/
theorem exec_spiReadFrame_of_range {h : List Byte} {st n : Nat} {s : State} (hon : s.spiOn = true) (hl : h.length = 4)
    (hop : u8 h 0 = 3) (hr : rangeBad (spiOff h) (4 * spiCount h) = false) :
    exec (.spiReadFrame h st n) s = .next
      (let t := readFrame (spiOff h) (spiCount h) (spiStatus 0 s)
       if n < (spiDriven h t.rdata st).length ∨ 32 < st then
         spiStatus 8 { s with rdata := (spiDriven h t.rdata st).take n }
       else { t with rdata := spiDriven h t.rdata st }) := by
  change execSpiReadFrame h st n s = _
  simp only [execSpiReadFrame, hon, hl, hop, hr]
  simp only [Bool.not_true, bne_self_eq_false, Bool.or_self, Bool.false_eq_true, if_false, Bool.or_eq_true,
    decide_eq_true_eq]
  split <;> rfl

/-- A write frame that is complete and in range is judged by its CRC alone (R60). -/
theorem writeFault_of_complete {b : List Byte} (hlen : 5 + 4 * spiCount b ≤ b.length)
    (hr : rangeBad (spiOff b) (4 * spiCount b) = false) :
    writeFault b = 2 * b2n (crc8 (b.take (4 + 4 * spiCount b)) != u8 b (4 + 4 * spiCount b)) := by
  simp only [writeFault, hr]
  rw [if_neg (by omega)]
  simp [b2n]

theorem exec_spiWriteFrame_of_fault {b : List Byte} {s : State} (hon : s.spiOn = true) (hlen : 4 ≤ b.length)
    (hop : u8 b 0 = 2) (hf : writeFault b ≠ 0) : exec (.spiWriteFrame b) s = .next (spiStatus (writeFault b) s) := by
  change execSpiWriteFrame b s = _
  have hl : ¬ b.length < 4 := by omega
  simp [execSpiWriteFrame, hon, hl, hop, hf]

theorem exec_spiWriteFrame_of_writeFrame {b : List Byte} {s t : State} (hon : s.spiOn = true) (hw : s.hostWrites = true)
    (hlen : 4 ≤ b.length) (hop : u8 b 0 = 2) (hf : writeFault b = 0)
    (ht : writeFrame (spiOff b) (slice b 4 (4 * spiCount b)) s = some t) :
    exec (.spiWriteFrame b) s = .next (spiStatus 1 t) := by
  change execSpiWriteFrame b s = _
  have hl : ¬ b.length < 4 := by omega
  simp [execSpiWriteFrame, hon, hw, hl, hop, hf, ht, wrote]

theorem exec_spiStatusFrame_of_on {s : State} (hon : s.spiOn = true) : exec .spiStatusFrame s = .next
    { s with rdata := [byte s.hrs.spiStatus, byte (crc8 [5, byte s.hrs.spiStatus])] } := by
  change execSpiStatusFrame s = _
  rw [execSpiStatusFrame, if_pos hon]

theorem exec_spiFrameRefused_of_short {b : List Byte} {s : State} (hon : s.spiOn = true) (hlen : b.length < 4)
    (hop : u8 b 0 ≠ 5) : exec (.spiFrameRefused b) s = .next (spiStatus 16 s) := by
  have hn : refusedStatus b = 16 := by simp [refusedStatus, hlen, hop]
  change execSpiFrameRefused b s = _
  simp [execSpiFrameRefused, hn, hon]

/-- Settles O57, row by row. Trailing bytes, request lengths and more than 16 words are the model's choices (log 55). -/
theorem registerPathRowsComplete : Obligations.RegisterPathRowsComplete := by
  unfold Obligations.RegisterPathRowsComplete
  refine ⟨fun off len s hon hu => ?read, fun off len data s hon hu hb => ?stall,
    fun off len data t s hw hu hb hlen ht => ?write, fun n o v s hw hu hp => ?window,
    fun h st n t s hon hl hop hr hst ht hn => ?spiRead, fun h st n t s hon hl hop hr ht hn => ?spiShort,
    fun b t s hon hw hlen hop hr hc ht => ?spiWrite, fun b s hon hlen hop hr hc => ?spiCrc,
    fun s hon => ?spiStatus, fun b s hon hlen hop => ?spiRefused⟩
  case read => exact exec_regRead_of_usb hon hu
  case stall => exact exec_regWrite_of_rangeBad hon hu hb
  case write => exact exec_regWrite_of_writeFrame hw hu hb hlen ht
  case window => exact exec_regWrite_winOff o hw hu hp
  case spiRead =>
    rw [exec_spiReadFrame_of_range hon hl hop hr, ht]
    simp only [length_spiDriven_of_ready hst, ← spiDriven_of_ready hst]
    rw [if_neg (by omega)]
  case spiShort =>
    have hcut : n < (spiDriven h t.rdata st).length ∨ 32 < st := by
      by_cases hst : st ≤ 32
      · rw [length_spiDriven_of_ready hst]
        exact hn
      · exact .inr (by omega)
    rw [exec_spiReadFrame_of_range hon hl hop hr, ht]
    exact congrArg _ (if_pos hcut)
  case spiWrite =>
    refine exec_spiWriteFrame_of_writeFrame hon hw (by omega) hop ?_ ht
    rw [writeFault_of_complete hlen hr, hc, bne_self_eq_false]
    rfl
  case spiCrc =>
    have hf : writeFault b = 2 := by rw [writeFault_of_complete hlen hr, bne_iff_ne.2 hc]; rfl
    rw [exec_spiWriteFrame_of_fault hon (by omega) hop (by omega), hf]
  case spiStatus => exact exec_spiStatusFrame_of_on hon
  case spiRefused => exact exec_spiFrameRefused_of_short hon hlen hop

end Sys2Proof
end

section
/-!
SUPPORT AND PROOFS for what a command answers. Every meaning ends in a next state on each of its branches, but for a
write of register words, which stops where it alters a reserved live field (R43).
-/

namespace Sys2Proof.Machine

/-- The outcome is a next state: no fault, no refusal. -/
def Answers (o : Out) : Prop := ∃ t, o = .next t

theorem Answers.next {t : State} : Answers (.next t) := ⟨t, rfl⟩

theorem Answers.ite {p : Prop} [Decidable p] {a b : Out} (ha : Answers a) (hb : Answers b) :
    Answers (if p then a else b) := by
  split <;> assumption

/-! ### Commands that write no register word of the host's choice -/

/-- A catalogue row answers: its decision is carried out, or it is not in turn. -/
theorem runOp_answers (mb op : Nat) (core : Req → State → CmdRes) (s : State) : Answers (runOp mb op core s) :=
  .ite .next .next

theorem execWardenLeave_answers (mb : Fin 8) (s : State) : Answers (execWardenLeave mb s) := by
  obtain ⟨t, ht⟩ := runOp_answers mb 0x0A13 coreWardenLeave s
  unfold execWardenLeave
  rw [ht]
  exact .next

theorem execDomForget_answers (mb : Fin 8) (s : State) : Answers (execDomForget mb s) := by
  obtain ⟨t, ht⟩ := runOp_answers mb 0x0B03 coreDomForget s
  unfold execDomForget
  rw [ht]
  exact .next

/-! The other rows that tell their branches by a match; each proof follows the branches of its meaning. -/

theorem execMailboxResponse_answers (mb : Fin 8) (s : State) : Answers (execMailboxResponse mb s) := by
  unfold execMailboxResponse
  dsimp only
  split
  · exact .ite .next .next
  · exact .next

theorem execSetPortFeaturePortReset_answers (h : HubPort) (s : State) :
    Answers (execSetPortFeaturePortReset h s) := by
  refine .ite .next ?_
  split
  · exact .ite .next .next
  · exact .next

theorem execClearPortFeaturePortPower_answers (h : HubPort) (s : State) :
    Answers (execClearPortFeaturePortPower h s) := by
  unfold execClearPortFeaturePortPower
  split
  · exact .ite .next .next
  · exact .next

theorem execSetPortFeaturePortPower_answers (h : HubPort) (s : State) :
    Answers (execSetPortFeaturePortPower h s) := by
  unfold execSetPortFeaturePortPower
  split
  · exact .ite .next .next
  · exact .next

theorem execSetPortFeaturePortSuspend_answers (h : HubPort) (s : State) :
    Answers (execSetPortFeaturePortSuspend h s) := by
  refine .ite .next ?_
  split
  · exact .ite .next .next
  · exact .next

theorem execClearPortFeaturePortSuspend_answers (h : HubPort) (s : State) :
    Answers (execClearPortFeaturePortSuspend h s) := by
  refine .ite .next ?_
  split
  · exact .ite .next .next
  · exact .next

theorem execClearPortFeaturePortEnable_answers (h : HubPort) (s : State) :
    Answers (execClearPortFeaturePortEnable h s) := by
  unfold execClearPortFeaturePortEnable
  split
  · exact .ite .next .next
  · exact .next

theorem execSetPortFeaturePortIndicator_answers (h : HubPort) (sel : Fin 4) (s : State) :
    Answers (execSetPortFeaturePortIndicator h sel s) := by
  unfold execSetPortFeaturePortIndicator
  split <;> exact .next

theorem execSetPortFeaturePortTest_answers (h : HubPort) (sel : Fin 6) (s : State) :
    Answers (execSetPortFeaturePortTest h sel s) := by
  unfold execSetPortFeaturePortTest
  split <;> exact .next

theorem execCcAttach_answers (p : Port) (kind : AttachKind) (s : State) : Answers (execCcAttach p kind s) := by
  refine .ite .next ?_
  refine .ite (.ite .next .next) ?_
  refine .ite .next ?_
  refine .ite .next ?_
  split <;> exact .next

theorem execConnectDebounceEnd_answers (p : Port) (s : State) : Answers (execConnectDebounceEnd p s) := by
  unfold execConnectDebounceEnd
  split
  · exact .next
  · exact .ite .next .next

theorem execResetEnd_answers (p : Port) (chirp : Chirp) (s : State) : Answers (execResetEnd p chirp s) := by
  unfold execResetEnd
  dsimp only
  split <;> exact .next

theorem execUsbDisconnect_answers (p : Port) (lost : DisconnectAt) (s : State) :
    Answers (execUsbDisconnect p lost s) := by
  unfold execUsbDisconnect
  dsimp only
  split
  · exact .ite .next .next
  · exact .ite .next (.ite .next .next)

theorem execSurgeRecovery_answers (p : Port) (s : State) : Answers (execSurgeRecovery p s) := by
  unfold execSurgeRecovery
  dsimp only
  split
  · exact .next
  · exact .ite (.ite .next (.ite (.ite .next .next) .next)) (.ite (.ite .next .next) .next)

theorem execBabbleReset_answers (p : Port) (s : State) : Answers (execBabbleReset p s) := by
  unfold execBabbleReset
  dsimp only
  split
  · exact .next
  · exact .ite .next .next

theorem execStaggerSlotOpen_answers (p : Port) (voMv : Nat) (s : State) : Answers (execStaggerSlotOpen p voMv s) := by
  unfold execStaggerSlotOpen
  dsimp only
  split
  · exact .next
  · exact .ite .next (.ite (.ite .next .next) (.ite .next (.ite .next .next)))

theorem execItTrip_answers (p : Port) (mA : Nat) (s : State) : Answers (execItTrip p mA s) := by
  refine .ite .next ?_
  split <;> exact .next

theorem execCooldownExpiry_answers (p : Port) (s : State) : Answers (execCooldownExpiry p s) := by
  unfold execCooldownExpiry
  split
  · exact .next
  · exact .ite .next (.ite .next (.ite .next .next))

theorem execLadderReset_answers (p : Port) (s : State) : Answers (execLadderReset p s) := by
  unfold execLadderReset
  split <;> exact .next

theorem execBudgetGrant_answers (p : Port) (s : State) : Answers (execBudgetGrant p s) := by
  unfold execBudgetGrant
  split
  · exact .next
  · exact .next
  · split <;> exact .next

theorem execSourceCapabilitiesSend_answers (p : Port) (answered : Bool) (s : State) :
    Answers (execSourceCapabilitiesSend p answered s) := by
  unfold execSourceCapabilitiesSend
  split <;> exact .next

theorem execRequest_answers (p : Port) (rdo : Word) (pd2 : Bool) (s : State) : Answers (execRequest p rdo pd2 s) := by
  refine .ite .next ?_
  refine .ite .next ?_
  refine .ite (.ite .next .next) ?_
  refine .ite .next ?_
  refine .ite .next ?_
  split
  · exact .ite .next .next
  · exact .next

theorem execPdResponseTimeout_answers (p : Port) (s : State) : Answers (execPdResponseTimeout p s) := by
  unfold execPdResponseTimeout
  dsimp only
  split
  · exact .ite .next .next
  · exact .next
  · exact .next
  · exact .next
  · exact .next
  · exact .next
  · exact .next
  · exact .next

theorem execPrSwap_answers (p : Port) (partnerStarts : Bool) (answer : PdAnswer) (s : State) :
    Answers (execPrSwap p partnerStarts answer s) := by
  refine .ite .next ?_
  refine .ite ?_ (.ite .next (.ite .next (.ite .next (.ite (.ite .next .next) (.ite .next .next)))))
  refine .ite .next ?_
  split <;> exact .next

theorem execDiscoverIdentity_answers (p : Port) (ufp : Bool) (svid : Nat) (modes : List Nat) (s : State) :
    Answers (execDiscoverIdentity p ufp svid modes s) := by
  refine .ite .next ?_
  split
  · exact .next
  · exact .ite .next .next

theorem execEnterModeAck_answers (p : Port) (ans : ModeAnswer) (s : State) : Answers (execEnterModeAck p ans s) := by
  refine .ite ?_ ?_
  · split <;> exact .next
  · refine .ite .next ?_
    split
    · exact .next
    · exact .next
    · exact .ite .next .next

theorem execReferenceEvent_answers (k : Fin 4) (chg : PinChange) (s : State) :
    Answers (execReferenceEvent k chg s) := by
  unfold execReferenceEvent
  dsimp only
  split <;> exact .next

theorem execCycleWrap_answers (k : Fin 4) (s : State) : Answers (execCycleWrap k s) := by
  unfold execCycleWrap
  split <;> exact .next

theorem execPhaseOutputTarget_answers (n : Fin 16) (s : State) : Answers (execPhaseOutputTarget n s) := by
  refine .ite .next ?_
  split
  · split <;> exact .next
  · refine .ite ?_ .next
    split <;> exact .next

theorem execPsyncTarget_answers (p : Port) (s : State) : Answers (execPsyncTarget p s) := by
  refine .ite ?_ .next
  split <;> exact .next

theorem execTargetDue_answers (slot : Fin 4096) (s : State) : Answers (execTargetDue slot s) := by
  refine .ite .next ?_
  split <;> exact .next

theorem execTokenIssue_answers (p : Port) (s : State) : Answers (execTokenIssue p s) := by
  refine .ite .next ?_
  dsimp only
  split
  · exact .next
  · split <;> exact .next

theorem execLateMiss_answers (slot : Fin 4096) (s : State) : Answers (execLateMiss slot s) := by
  unfold execLateMiss
  split <;> exact .next

theorem execBestEffortReplaced_answers (slot : Fin 4096) (s : State) : Answers (execBestEffortReplaced slot s) := by
  refine .ite .next ?_
  split <;> exact .next

theorem execTransactionEnd_answers (p : Port) (outcome : TxnOutcome) (s : State) :
    Answers (execTransactionEnd p outcome s) := by
  unfold execTransactionEnd
  split <;> exact .next

theorem execRecordCommit_answers (slot : Fin 4096) (s : State) : Answers (execRecordCommit slot s) := by
  unfold execRecordCommit
  dsimp only
  split
  · exact .ite .next .next
  · split
    · exact .next
    · exact .ite .next .next

theorem execApplyPoint_answers (s : State) : Answers (execApplyPoint s) := by
  unfold execApplyPoint
  split <;> exact .next

theorem execTransactionIdleTimeout_answers (s : State) : Answers (execTransactionIdleTimeout s) := by
  unfold execTransactionIdleTimeout
  split
  · exact .next
  · exact .ite .next .next

theorem joinChild_answers (p : Port) (child : ChildDesc) (s : State) : Answers (joinChild p child s) := by
  refine .ite .next (.ite .next ?_)
  split <;> exact .ite .next .next

theorem execChildJoin_answers (join : Join) (s : State) : Answers (execChildJoin join s) := by
  unfold execChildJoin
  split
  · exact joinChild_answers ..
  · exact .ite .next .next

theorem execManagementRestartTimeout_answers (s : State) : Answers (execManagementRestartTimeout s) := by
  unfold execManagementRestartTimeout
  split <;> exact .next

theorem execCtrlTmoExpiry_answers (slot : Fin 4096) (s : State) : Answers (execCtrlTmoExpiry slot s) := by
  unfold execCtrlTmoExpiry
  split
  · exact .next
  · exact .ite .next .next

theorem execCanArbitrationStart_answers (c : Fin 2) (s : State) : Answers (execCanArbitrationStart c s) := by
  refine .ite .next ?_
  split <;> exact .next

theorem execCanTxEnd_answers (c : Fin 2) (result : CanResult) (s : State) : Answers (execCanTxEnd c result s) := by
  unfold execCanTxEnd
  split
  · exact .next
  · exact .ite .next .next

theorem execCanArmedDue_answers (c : Fin 2) (buf : Fin 32) (s : State) : Answers (execCanArmedDue c buf s) := by
  refine .ite .next ?_
  split <;> exact .next

theorem execCanErrorStateChange_answers (c : Fin 2) (err : CanError) (s : State) :
    Answers (execCanErrorStateChange c err s) := by
  refine .ite .next ?_
  split <;> exact .next

theorem execScriptFrame_answers (buf : Fin 8) (s : State) : Answers (execScriptFrame buf s) := by
  unfold execScriptFrame
  split
  · exact .next
  · exact .ite .next (.ite .next .next)

theorem execStaleRecompute_answers (page : PageRef) (s : State) : Answers (execStaleRecompute page s) := by
  unfold execStaleRecompute
  split
  · exact .ite .next .next
  · exact .next

theorem execRestrengthStep_answers (errors offset : Nat) (s : State) :
    Answers (execRestrengthStep errors offset s) := by
  refine .ite .next ?_
  split
  · exact .next
  · exact .ite .next .next

theorem execDomainEntry_answers (d : Fin 33) (s : State) : Answers (execDomainEntry d s) := by
  unfold execDomainEntry
  dsimp only
  split
  · exact .next
  · exact .ite .next (.ite .next (.ite .next .next))

theorem execWakeComplete_answers (d : Fin 33) (s : State) : Answers (execWakeComplete d s) := by
  unfold execWakeComplete
  dsimp only
  split
  · exact .next
  · exact .ite .next .next

theorem execVcoreAck_answers (s : State) : Answers (execVcoreAck s) := by
  unfold execVcoreAck
  split <;> exact .next

theorem execVcoreAckTimeout_answers (statusWord : BitVec 16) (s : State) :
    Answers (execVcoreAckTimeout statusWord s) := by
  unfold execVcoreAckTimeout
  split <;> exact .next

theorem execPostedWriteComplete_answers (dom : Fin 3) (s : State) : Answers (execPostedWriteComplete dom s) := by
  unfold execPostedWriteComplete
  split <;> exact .next

theorem execChipReset_answers (s : State) : Answers (execChipReset s) := by
  unfold execChipReset
  split
  · exact .next
  · exact .ite .next (.ite .next .next)

theorem execBootSequence_answers (linearVout : Bool) (s : State) : Answers (execBootSequence linearVout s) := by
  refine .ite .next ?_
  refine .ite .next ?_
  refine .ite .next ?_
  split <;> exact .next

theorem execActivationDue_answers (s : State) : Answers (execActivationDue s) := by
  unfold execActivationDue
  split
  · refine .ite .next ?_
    split <;> exact .next
  · exact .next

theorem execRescueStart_answers (s : State) : Answers (execRescueStart s) := by
  unfold execRescueStart
  split
  · exact .ite .next .next
  · exact .next

theorem execFrsFeedReturn_answers (feedPresent : Bool) (s : State) : Answers (execFrsFeedReturn feedPresent s) := by
  unfold execFrsFeedReturn
  split
  · exact .next
  · exact .ite .next (.ite (.ite .next .next) .next)

theorem execLoopDone_answers (packets errors : Nat) (s : State) : Answers (execLoopDone packets errors s) := by
  unfold execLoopDone
  split
  · exact .next
  · exact .ite .next .next

theorem execPdMessageReceived_answers (p : Port) (msg : PdMessage) (s : State) :
    Answers (execPdMessageReceived p msg s) := by
  refine .ite .next ?_
  split
  · exact .ite .next .next
  · exact .ite .next .next
  · exact .ite .next .next
  · exact .ite .next (.ite .next .next)
  · exact .ite .next .next
  · exact .ite .next .next
  · exact .next
  · exact .next
  · exact .next
  · exact .next
  · exact .next

theorem execDomainLinkFrame_answers (chip : Fin 64) (frame : DomainFrame) (s : State) :
    Answers (execDomainLinkFrame chip frame s) := by
  refine .ite .next ?_
  split
  · exact .ite .next .next
  · exact .next
  · exact .ite .next .next

/-! Rows that write one register word of the hub's choice, or one bit. -/

/-- An alias write of a reserved live bit is ignored (R47), so no alias write stops. -/
theorem execBitAliasWrite_answers (off : BitVec 16) (val : Word) (s : State) : Answers (execBitAliasWrite off val s) := by
  unfold execBitAliasWrite
  split
  · next h8 =>
    by_cases h : s.hostWrites = true ∧ off.toNat % 4 = 0
    · rw [hostWrite_bit _ _ _ h.1 h.2 h8]
      exact .next
    · rw [hostWrite_of_not_writes fun hw ha => h ⟨hw, ha⟩]
      exact .next
  · exact .next

theorem execLtnClr_answers (s : State) : Answers (execLtnClr s) :=
  exists_hostWrite_of_legal (by decide) (by decide) (by rw [rsvMask_ltn]; rfl)

theorem execCampClear_answers (s : State) : Answers (execCampClear s) :=
  exists_hostWrite_of_legal (by decide) (by decide) (by rw [rsvMask_campClear]; rfl)

theorem execCampForce_answers (pat : BitVec 2) (s : State) : Answers (execCampForce pat s) := by
  have hlt : pat.toNat < 2 ^ 2 := pat.isLt
  exact exists_hostWrite_of_legal (by decide) (by omega) (by rw [rsvMask_campForce]; exact and_hi _ 2 hlt _ (by decide))

/-- The commands that write register words the host chooses. -/
def writesWords : Instr → Bool
  | .registerWrite .. | .lockBitSet .. | .tmuxSelWrite .. | .padHoldRelease .. | .regWrite .. | .spiWriteFrame .. => true
  | _ => false

/-- Every other command answers, in every state. The arms are grouped by the branches of their meanings. -/
theorem exec_answers (s : State) : ∀ c : Instr, writesWords c = false → Answers (exec c s)
  | .sysHello .. | .sysResync .. | .sysInfo .. | .sysExpert .. | .sysReset .. | .angConfig .. | .angEnable ..
  | .angStatus .. | .timeSet .. | .timeAdjust .. | .timeDisc .. | .phaseSet .. | .phasePsync .. | .phaseCapture ..
  | .phaseLink .. | .portMode .. | .portReset .. | .portSuspend .. | .portResume .. | .portStatus .. | .portCfg ..
  | .devList .. | .devInfo .. | .devPolicy .. | .chanOpen .. | .chanClose .. | .chanPause .. | .chanResume ..
  | .chanStopGroup .. | .chanStartGroup .. | .chanCtrl .. | .chanWrite .. | .chanInfo .. | .chanLatest ..
  | .chanHistory .. | .chanAck .. | .chanRewind .. | .schedBegin .. | .schedAdd .. | .schedChange .. | .schedCommit ..
  | .schedCancel .. | .schedReport .. | .pwrOn .. | .pwrOff .. | .pwrClear .. | .pwrCurve .. | .pwrRails ..
  | .pwrPriority .. | .pwrStagger .. | .pwrStatus .. | .pdStatus .. | .pdCaps .. | .pdHardreset .. | .pdSwap ..
  | .pdFrs .. | .pdMoist .. | .pdAltmode .. | .canConfig .. | .canEnable .. | .canFilter .. | .canTx ..
  | .canTxabort .. | .canRecover .. | .canAutobaud .. | .canStatus .. | .integStatus .. | .integRegion ..
  | .integRestrength .. | .integScrub .. | .integLog .. | .integRotate .. | .integInject .. | .faultStatus ..
  | .faultConfig .. | .faultClear .. | .faultForce .. | .wardenArm .. | .wardenEnter .. | .wardenStatus ..
  | .domList .. | .domEvent .. | .domPstate .. | .domPcfg .. | .domStatus .. | .domKeeper .. | .fwInfo ..
  | .fwBegin .. | .fwWrite .. | .fwVerify .. | .fwActivate .. | .fwCancel .. | .profRead .. | .profWrite ..
  | .linkStatus .. | .linkBudget .. | .linkDetach .. | .testTmux .. | .testBist .. | .testLoop ..
  | .testResult .. => fun _ => runOp_answers ..
  | .doorbellRing .. | .cciDoneWrite .. | .abortReqWrite .. | .dataUnit .. | .eventRead .. | .streamRead ..
  | .bitAliasRead .. | .rcFieldRead .. | .loRegisterRead .. | .spiStatusFrame | .spiFrameRefused ..
  | .commandPipeTransfer .. | .ep1InTransferEnd .. | .ep3InEventPacket .. | .dtimeoutExpiry .. | .abortEscalation
  | .upstreamReset .. | .upstreamAttach .. | .globalSuspend .. | .ccDetach .. | .remoteWake .. | .resumeEnd ..
  | .resumeRecoveryEnd .. | .powerGood .. | .pgLost .. | .stuckOn .. | .feedOv .. | .railOutOfBand ..
  | .railPowerRemoval .. | .railRestore .. | .shedRestore | .hardResetWaitEnd .. | .fallbackReoffer .. | .hrstReset ..
  | .frSwap .. | .partnerExitMode .. | .rescueVbus .. | .referenceLoss .. | .anchorPeriodic ..
  | .wallDisciplineEdge .. | .wallHoldover | .linkTransmit | .enumeration .. | .childLost .. | .journalLevel | .unseal
  | .groupRestartTimeout .. | .busOff .. | .busOffRecoveryEnd .. | .canDisableComplete .. | .wireFault ..
  | .wardenHeartbeatMissing | .wardenCleanup | .scriptStepStart | .scriptStepEnd | .safeHoldExpiry
  | .injectionFired .. | .domainWake .. | .wallPairWrite | .norWallWrite | .palarmDue | .vbakLoss | .pinReset ..
  | .clock | .imageConfirm | .bootFailure | .eraseEnd .. | .rescuePortDetach | .upstreamResume | .subWindowEnd ..
  | .railInBand .. | .vbakRestored | .supplyLoss => fun _ => .ite .next .next
  | .regRead .. | .moistureReading .. | .connectSensed .. | .surgeSignature .. | .inrushFail .. | .fetWarn .. | .shed
  | .holdLimExpiry .. | .sof .. | .checkpoint | .managementRestart .. | .autobaudDwellEnd .. | .causeGone ..
  | .aliveEdge .. | .waitRxMatch .. | .parityError .. | .staleOvf .. | .wakeInput .. | .hubSetConfiguration ..
  | .partnerSourceCapabilities .. => fun _ => .ite .next (.ite .next .next)
  | .alternateSettingChange .. | .gmgStuck .. | .feedReverseOff .. | .feedPresenceChange .. | .linkMark ..
  | .linkFrame .. | .cowslipFlush .. | .seal | .selfCheckFail | .retirementListWrite | .pmAlert .. | .retLow
  | .powerOnReset .. | .tapClock .. | .wallSlewEnd => fun _ => .next
  | .spiReadFrame .. | .babble .. | .fastTrip .. | .psRdy .. | .rescueRegulationCheck .. | .indexEdge .. | .reverse ..
  | .captureEdge .. | .enumerationStepFail .. | .canFrameReceived .. | .rsEnded | .rotationCopyDone | .pageRetired ..
  | .idleTimerExpiry .. => fun _ => .ite .next (.ite .next (.ite .next .next))
  | .softReset .. | .hardReset .. | .typeCOnlyFallback .. | .faultEvent .. => fun _ =>
    .ite .next (.ite .next (.ite .next (.ite .next .next)))
  | .sysAbort .. => fun _ => .ite .next (runOp_answers ..)
  | .moistureInterval .. => fun _ => .ite (.ite .next .next) (.ite (.ite .next .next) .next)
  | .groupRestart .. => fun _ => .ite .next (.ite .next (.ite (.ite .next .next) .next))
  | .bankRetired .. => fun _ => .ite .next (.ite .next (.ite .next (.ite .next (.ite .next .next))))
  | .scrubVisit .. => fun _ => .ite .next (.ite .next (.ite .next (.ite .next (.ite .next (.ite .next .next)))))
  | .bistDone .. => fun _ =>
    .ite .next (.ite (.ite .next (.ite .next .next)) (.ite (.ite .next (.ite .next (.ite .next .next))) .next))
  | .mailboxResponse mb => fun _ => execMailboxResponse_answers mb s
  | .setPortFeaturePortReset h => fun _ => execSetPortFeaturePortReset_answers h s
  | .clearPortFeaturePortPower h => fun _ => execClearPortFeaturePortPower_answers h s
  | .setPortFeaturePortPower h => fun _ => execSetPortFeaturePortPower_answers h s
  | .setPortFeaturePortSuspend h => fun _ => execSetPortFeaturePortSuspend_answers h s
  | .clearPortFeaturePortSuspend h => fun _ => execClearPortFeaturePortSuspend_answers h s
  | .clearPortFeaturePortEnable h => fun _ => execClearPortFeaturePortEnable_answers h s
  | .setPortFeaturePortIndicator h sel => fun _ => execSetPortFeaturePortIndicator_answers h sel s
  | .setPortFeaturePortTest h sel => fun _ => execSetPortFeaturePortTest_answers h sel s
  | .ccAttach p kind => fun _ => execCcAttach_answers p kind s
  | .connectDebounceEnd p => fun _ => execConnectDebounceEnd_answers p s
  | .resetEnd p chirp => fun _ => execResetEnd_answers p chirp s
  | .usbDisconnect p lost => fun _ => execUsbDisconnect_answers p lost s
  | .surgeRecovery p => fun _ => execSurgeRecovery_answers p s
  | .babbleReset p => fun _ => execBabbleReset_answers p s
  | .staggerSlotOpen p voMv => fun _ => execStaggerSlotOpen_answers p voMv s
  | .itTrip p mA => fun _ => execItTrip_answers p mA s
  | .cooldownExpiry p => fun _ => execCooldownExpiry_answers p s
  | .ladderReset p => fun _ => execLadderReset_answers p s
  | .budgetGrant p => fun _ => execBudgetGrant_answers p s
  | .sourceCapabilitiesSend p answered => fun _ => execSourceCapabilitiesSend_answers p answered s
  | .request p rdo pd2 => fun _ => execRequest_answers p rdo pd2 s
  | .pdResponseTimeout p => fun _ => execPdResponseTimeout_answers p s
  | .prSwap p partnerStarts answer => fun _ => execPrSwap_answers p partnerStarts answer s
  | .discoverIdentity p ufp svid modes => fun _ => execDiscoverIdentity_answers p ufp svid modes s
  | .enterModeAck p ans => fun _ => execEnterModeAck_answers p ans s
  | .referenceEvent k chg => fun _ => execReferenceEvent_answers k chg s
  | .cycleWrap k => fun _ => execCycleWrap_answers k s
  | .phaseOutputTarget n => fun _ => execPhaseOutputTarget_answers n s
  | .psyncTarget p => fun _ => execPsyncTarget_answers p s
  | .targetDue slot => fun _ => execTargetDue_answers slot s
  | .tokenIssue p => fun _ => execTokenIssue_answers p s
  | .lateMiss slot => fun _ => execLateMiss_answers slot s
  | .bestEffortReplaced slot => fun _ => execBestEffortReplaced_answers slot s
  | .transactionEnd p outcome => fun _ => execTransactionEnd_answers p outcome s
  | .recordCommit slot => fun _ => execRecordCommit_answers slot s
  | .applyPoint => fun _ => execApplyPoint_answers s
  | .transactionIdleTimeout => fun _ => execTransactionIdleTimeout_answers s
  | .childJoin join => fun _ => execChildJoin_answers join s
  | .managementRestartTimeout => fun _ => execManagementRestartTimeout_answers s
  | .ctrlTmoExpiry slot => fun _ => execCtrlTmoExpiry_answers slot s
  | .canArbitrationStart c => fun _ => execCanArbitrationStart_answers c s
  | .canTxEnd c result => fun _ => execCanTxEnd_answers c result s
  | .canArmedDue c buf => fun _ => execCanArmedDue_answers c buf s
  | .canErrorStateChange c err => fun _ => execCanErrorStateChange_answers c err s
  | .scriptFrame buf => fun _ => execScriptFrame_answers buf s
  | .staleRecompute page => fun _ => execStaleRecompute_answers page s
  | .restrengthStep errors offset => fun _ => execRestrengthStep_answers errors offset s
  | .domainEntry d => fun _ => execDomainEntry_answers d s
  | .wakeComplete d => fun _ => execWakeComplete_answers d s
  | .vcoreAck => fun _ => execVcoreAck_answers s
  | .vcoreAckTimeout statusWord => fun _ => execVcoreAckTimeout_answers statusWord s
  | .postedWriteComplete dom => fun _ => execPostedWriteComplete_answers dom s
  | .chipReset => fun _ => execChipReset_answers s
  | .bootSequence linearVout => fun _ => execBootSequence_answers linearVout s
  | .activationDue => fun _ => execActivationDue_answers s
  | .rescueStart => fun _ => execRescueStart_answers s
  | .frsFeedReturn feedPresent => fun _ => execFrsFeedReturn_answers feedPresent s
  | .loopDone packets errors => fun _ => execLoopDone_answers packets errors s
  | .pdMessageReceived p msg => fun _ => execPdMessageReceived_answers p msg s
  | .domainLinkFrame chip frame => fun _ => execDomainLinkFrame_answers chip frame s
  | .wardenLeave mb => fun _ => execWardenLeave_answers mb s
  | .domForget mb => fun _ => execDomForget_answers mb s
  | .bitAliasWrite off val => fun _ => execBitAliasWrite_answers off val s
  | .ltnClr => fun _ => execLtnClr_answers s
  | .campClear => fun _ => execCampClear_answers s
  | .campForce pat => fun _ => execCampForce_answers pat s
  | .registerWrite .. | .lockBitSet .. | .tmuxSelWrite .. | .padHoldRelease .. | .regWrite ..
  | .spiWriteFrame .. => nofun

/-! ### Writes of register words -/

/-- A write answers, or stops at a reserved live field while the host writes. -/
def WriteOutcome (o : Out) (s : State) : Prop := Answers o ∨ o = .fault .reservedLiveWrite ∧ s.hostWrites = true

theorem wrote_outcome {s : State} (hw : s.hostWrites = true) : ∀ o : Option State, WriteOutcome (wrote o) s
  | some _ => .inl .next
  | none => .inr ⟨rfl, hw⟩

theorem hostWrite_outcome (off val : Nat) (s : State) : WriteOutcome (hostWrite off val s) s := by
  unfold hostWrite
  split
  · next h => exact wrote_outcome (Bool.and_eq_true _ _ ▸ h).1 _
  · exact .inl .next

theorem execRegWrite_outcome (off : BitVec 16) (len : Nat) (data : List Byte) (s : State) :
    WriteOutcome (execRegWrite off len data s) s := by
  unfold execRegWrite
  split
  · exact .inl .next
  split
  · exact .inl .next
  split
  · exact .inl .next
  · next h => exact wrote_outcome (by simp_all) _

theorem execSpiWriteFrame_outcome (bytes : List Byte) (s : State) :
    WriteOutcome (execSpiWriteFrame bytes s) s := by
  unfold execSpiWriteFrame
  split
  · exact .inl .next
  split
  · exact .inl .next
  split
  · exact .inl .next
  · next h => exact wrote_outcome (by simpa using h) _

theorem exec_outcome (s : State) : ∀ c : Instr, writesWords c = true → WriteOutcome (exec c s) s
  | .registerWrite off val, _ | .lockBitSet off val, _ | .tmuxSelWrite off val, _ =>
    hostWrite_outcome off.toNat val.toNat s
  | .padHoldRelease val, _ => hostWrite_outcome 0x6010 val.toNat s
  | .regWrite off len data, _ => execRegWrite_outcome off len data s
  | .spiWriteFrame bytes, _ => execSpiWriteFrame_outcome bytes s

end Sys2Proof.Machine

namespace Sys2Proof

open Sys2Proof.Machine

/-- Settles O6: a command writes no register word of the host's choice and answers (`exec_answers`), or is one of the
six that do (`exec_outcome`). -/
theorem onlyReservedWritesStop : Obligations.OnlyReservedWritesStop := by
  unfold Obligations.OnlyReservedWritesStop
  intro c s
  cases hc : writesWords c with
  | false => exact .inl (exec_answers s c hc)
  | true =>
    refine (exec_outcome s c hc).imp_right fun ⟨hf, hw⟩ => ⟨hf, hw, ?_⟩
    unfold writesWords at hc
    split at hc <;> trivial

/-! ### Lock bits -/

theorem and_eq_self_of_getLsbD {w : Nat} {x y : BitVec w} (h : ∀ i, x.getLsbD i = true → y.getLsbD i = true) :
    x &&& y = x := by
  refine BitVec.eq_of_getLsbD_eq fun i _ => ?_
  rw [BitVec.getLsbD_and]
  cases hx : x.getLsbD i with
  | false => rfl
  | true => rw [h i hx]; rfl

/-- A step whose command is no start keeps each lock bit that is set (R40, R51). -/
theorem step_grow {s t : State} (hc : ∀ c ∈ s.pending.head?, c.startsHub = false) (h : step s = .next t) :
    (∀ i, s.hrs.lock0.getLsbD i = true → t.hrs.lock0.getLsbD i = true) ∧
    (∀ i, s.hrs.portLo.getLsbD i = true → t.hrs.portLo.getLsbD i = true) ∧
    (∀ i, s.hrs.portHi.getLsbD i = true → t.hrs.portHi.getLsbD i = true) := by
  cases hp : s.pending with
  | nil =>
    rw [step, hp] at h
    cases h
    have g := (State.elapse_same 1 s (Same.refl s)).grow
    exact ⟨g.lock0, g.portLo, g.portHi⟩
  | cons c l =>
    rw [step_of_pending hp] at h
    have g := (exec_kept h).grow (hc c (by simp [hp]))
    exact ⟨g.lock0, g.portLo, g.portHi⟩

/-- Settles O5: no command but a start clears a lock bit (`exec_kept`), nor does a tick. -/
theorem lockBitsStay : Obligations.LockBitsStay := by
  unfold Obligations.LockBitsStay
  intro s t hc h
  have hstart : ∀ c ∈ s.pending.head?, c.startsHub = false := by
    intro c hm
    have := hc c hm
    unfold Instr.startsHub
    split at this <;> simp_all
  obtain ⟨h0, hlo, hhi⟩ := step_grow hstart h
  exact ⟨and_eq_self_of_getLsbD h0, and_eq_self_of_getLsbD hlo, and_eq_self_of_getLsbD hhi⟩

end Sys2Proof
end

section
/-!
SUPPORT AND PROOF for the CRC-8 of the SPI frames (R58). Numbers stand for polynomials over the two-element field, bit
k for x^k: `^^^` adds them, and a factor 2 ^ k shifts by k places.
-/

namespace Sys2Proof.Machine

/-! ### Sums and shifts of polynomials -/

theorem xor_mul_two_pow (a b i : Nat) : (a ^^^ b) * 2 ^ i = a * 2 ^ i ^^^ b * 2 ^ i := by
  simp only [← Nat.shiftLeft_eq, Nat.shiftLeft_xor_distrib]

/-- Below the lowest place of the first summand, a sum has no carry. -/
theorem mul_two_pow_add_eq_xor {b i : Nat} (a : Nat) (h : b < 2 ^ i) : a * 2 ^ i + b = a * 2 ^ i ^^^ b := by
  refine Nat.eq_of_testBit_eq fun j => ?_
  rw [Nat.mul_comm, Nat.testBit_two_pow_mul_add _ h, Nat.testBit_xor, Nat.testBit_two_pow_mul]
  split
  case isTrue hj => simp [Nat.not_le.mpr hj]
  case isFalse hj =>
    have hb : b.testBit j = false :=
      Nat.testBit_lt_two_pow (h.trans_le (Nat.pow_le_pow_right Nat.two_pos (Nat.not_lt.mp hj)))
    simp [Nat.not_lt.mp hj, hb]

/-- The sum of the polynomial x^8 + x^2 + x + 1 shifted by each of the places listed. -/
def polySum (ks : List Nat) : Nat := ks.foldl (fun a k => a ^^^ 0x107 * 2 ^ k) 0

theorem foldl_polySum (ks : List Nat) (a : Nat) :
    ks.foldl (fun a k => a ^^^ 0x107 * 2 ^ k) a = a ^^^ polySum ks := by
  induction ks generalizing a with
  | nil => simp [polySum]
  | cons k ks ih => rw [polySum, List.foldl_cons, List.foldl_cons, ih, ih (0 ^^^ _), Nat.zero_xor, Nat.xor_assoc]

theorem polySum_cons (k : Nat) (ks : List Nat) : polySum (k :: ks) = 0x107 * 2 ^ k ^^^ polySum ks := by
  rw [polySum, List.foldl_cons, foldl_polySum, Nat.zero_xor]

theorem polySum_append (ks ls : List Nat) : polySum (ks ++ ls) = polySum ks ^^^ polySum ls := by
  rw [polySum, List.foldl_append, foldl_polySum, ← polySum]

theorem polySum_map_add (i : Nat) (ks : List Nat) : polySum (ks.map (· + i)) = polySum ks * 2 ^ i := by
  induction ks with
  | nil => simp [polySum]
  | cons k ks ih => rw [List.map_cons, polySum_cons, polySum_cons, ih, xor_mul_two_pow, Nat.pow_add, Nat.mul_assoc]

/-! ### Equal remainders -/

/-- The two polynomials leave the same remainder by x^8 + x^2 + x + 1: they differ by shifted copies of it. -/
def SameRem (a b : Nat) : Prop := ∃ ks, a ^^^ b = polySum ks

theorem SameRem.refl (a : Nat) : SameRem a a := ⟨[], Nat.xor_self a⟩

theorem SameRem.trans {a b c : Nat} (hab : SameRem a b) (hbc : SameRem b c) : SameRem a c := by
  obtain ⟨ks, hk⟩ := hab
  obtain ⟨ls, hl⟩ := hbc
  exact ⟨ks ++ ls, by rw [polySum_append, ← hk, ← hl, Nat.xor_assoc, Nat.xor_xor_cancel_left]⟩

theorem SameRem.add {a b : Nat} (h : SameRem a b) (c : Nat) : SameRem (a ^^^ c) (b ^^^ c) := by
  obtain ⟨ks, hk⟩ := h
  exact ⟨ks, by rw [← hk, Nat.xor_assoc, Nat.xor_comm b c, Nat.xor_xor_cancel_left]⟩

theorem SameRem.shift {a b : Nat} (h : SameRem a b) (i : Nat) : SameRem (a * 2 ^ i) (b * 2 ^ i) := by
  obtain ⟨ks, hk⟩ := h
  exact ⟨ks.map (· + i), by rw [polySum_map_add, ← hk, xor_mul_two_pow]⟩

/-! ### The CRC -/

/-- One bit of the CRC shifts by one place and, where x^8 comes up, takes the polynomial away. -/
theorem crc8Bit_sameRem {c : Nat} (h : c < 256) : SameRem (c * 2) (crc8Bit c) ∧ crc8Bit c < 256 := by
  unfold crc8Bit
  split
  case isTrue => exact ⟨.refl _, by omega⟩
  case isFalse =>
    have hl : c * 2 % 256 < 2 ^ 8 := Nat.mod_lt _ (by decide)
    have hc : c * 2 = 1 * 2 ^ 8 ^^^ c * 2 % 256 := by
      rw [← mul_two_pow_add_eq_xor 1 hl]
      omega
    refine ⟨⟨[0], ?_⟩, Nat.xor_lt_two_pow hl (by decide)⟩
    calc c * 2 ^^^ (c * 2 % 256 ^^^ 7) = 1 * 2 ^ 8 ^^^ c * 2 % 256 ^^^ (c * 2 % 256 ^^^ 7) := by rw [← hc]
      _ = polySum [0] := by rw [Nat.xor_assoc, Nat.xor_xor_cancel_left]; rfl

theorem crc8Bit_iterate_sameRem (i : Nat) {c : Nat} (h : c < 256) :
    SameRem (c * 2 ^ i) (crc8Bit^[i] c) ∧ crc8Bit^[i] c < 256 := by
  induction i generalizing c with
  | zero => exact ⟨by simpa using SameRem.refl c, h⟩
  | succ i ih =>
    obtain ⟨hrem, hlt⟩ := crc8Bit_sameRem h
    obtain ⟨hrest, hend⟩ := ih hlt
    rw [Function.iterate_succ_apply, Nat.pow_succ', ← Nat.mul_assoc]
    exact ⟨(hrem.shift i).trans hrest, hend⟩

/-- The CRC's step for a byte: the eight bits of what is left and the byte. -/
def crc8Byte (c : Nat) (b : Byte) : Nat := crc8Bit^[8] (c ^^^ b.toNat)

theorem crc8_eq (l : List Byte) : crc8 l = l.foldl crc8Byte 0 := by
  unfold crc8 crc8Byte
  simp only [Function.iterate_succ_apply, Function.iterate_zero_apply]

theorem crc8Byte_sameRem {n c : Nat} (b : Byte) (hc : c < 256) (h : SameRem (n * 256) c) :
    SameRem ((n * 256 + b.toNat) * 256) (crc8Byte c b) ∧ crc8Byte c b < 256 := by
  have hx : n * 256 + b.toNat = n * 256 ^^^ b.toNat := mul_two_pow_add_eq_xor (i := 8) n b.isLt
  obtain ⟨hrem, hlt⟩ := crc8Bit_iterate_sameRem 8 (Nat.xor_lt_two_pow (n := 8) hc b.isLt)
  rw [hx]
  exact ⟨((h.add b.toNat).shift 8).trans hrem, hlt⟩

theorem foldl_crc8Byte_sameRem (l : List Byte) {n c : Nat} (hc : c < 256) (h : SameRem (n * 256) c) :
    SameRem (l.foldl (fun n b => n * 256 + b.toNat) n * 256) (l.foldl crc8Byte c) ∧ l.foldl crc8Byte c < 256 := by
  induction l generalizing n c with
  | nil => exact ⟨h, hc⟩
  | cons b l ih =>
    obtain ⟨hrem, hlt⟩ := crc8Byte_sameRem b hc h
    rw [List.foldl_cons, List.foldl_cons]
    exact ih hlt hrem

end Sys2Proof.Machine

namespace Sys2Proof

open Sys2Proof.Machine

/-- Settles O14: byte for byte, the CRC and the message read so far, eight places up, leave the same remainder. -/
theorem crcIsTheRemainder : Obligations.CrcIsTheRemainder := by
  unfold Obligations.CrcIsTheRemainder
  intro l
  obtain ⟨hrem, hlt⟩ := foldl_crc8Byte_sameRem l (n := 0) (c := 0) (by decide) (.refl 0)
  rw [crc8_eq]
  exact ⟨hlt, hrem⟩

end Sys2Proof
end

section
/-!
SUPPORT AND PROOF for events: what raising one comes to where the queue is disabled, has room or is full (R89, R90),
and how the bytes of a record read back.
-/

namespace Sys2Proof.Machine

/-! ### Bytes -/

theorem toNat_byte (n : Nat) : (byte n).toNat = n % 256 := BitVec.toNat_ofNat _ _

theorem fit_of_length {n : Nat} {l : List Byte} (h : l.length = n) : fit n l = l := by
  subst h
  exact List.take_left

/-- A record of 8 detail bytes, byte for byte (R89). -/
theorem Event.bytes_eq {e : Event} (h : e.detail.length = 8) :
    e.bytes = byte e.source :: byte e.code :: byte e.eseq :: byte (e.eseq / 256) :: byte e.time32 ::
      byte (e.time32 / 256) :: byte (e.time32 / 256 / 256) :: byte (e.time32 / 256 / 256 / 256) :: e.detail := by
  rw [Event.bytes, fit_of_length h]
  rfl

/-! ### The three outcomes of raising an event -/

/-- An event of a suspended hub function wakes the upstream host: it is unmasked and not yet pending (R164). -/
def State.eventWakes (s : State) (ev : Nat) : Bool :=
  s.hub.casideRwake && (s.hub.suspended || s.hub.casideSuspended) &&
    !s.flag (0x200 + ev / 32 * 4) (ev % 32) && !s.flag (0x210 + ev / 32 * 4) (ev % 32)

/-- What every event does, queued or not: it is counted, and its pending bit set (R89, R90). -/
def noteEvent (ev : Nat) (s : State) : State :=
  ({ s with cci.eseq := (s.cci.eseq + 1) % 65536, cci.wakeUp := s.cci.wakeUp || s.eventWakes ev } : State).setFlag
    (0x200 + ev / 32 * 4) (ev % 32)

/-- The record of an event raised now. -/
def State.eventRec (s : State) (ev code : Nat) (d : List Byte) : Event :=
  { source := ev, code := code, eseq := s.cci.eseq, time32 := s.time32, detail := fit 8 d }

theorem raiseEvent_eq (ev code : Nat) (d : List Byte) (s : State) : raiseEvent ev code d s =
    if (noteEvent ev s).flag 0x220 0 then
      if s.cci.evq.length < 256 then
        State.evqLevel { noteEvent ev s with cci.evq := s.cci.evq ++ [s.eventRec ev code d] }
      else ((noteEvent ev s).setFlag 0x220 11).incFld 0x228 31 16
    else noteEvent ev s := rfl

/-- The registers outside the pending bits keep their values. -/
theorem noteEvent_reg {ev : Nat} (h : ev < 128) (s : State) {o : Nat} (ho : 0x210 ≤ o) :
    (noteEvent ev s).reg o = s.reg o :=
  reg_setFld_ne _ _ _ _ (by omega)

theorem noteEvent_flag {ev : Nat} (h : ev < 128) (s : State) {o : Nat} (ho : 0x210 ≤ o) (i : Nat) :
    (noteEvent ev s).flag o i = s.flag o i := by
  rw [State.flag, noteEvent_reg h s ho, State.flag]

theorem noteEvent_pending (ev : Nat) (s : State) :
    (noteEvent ev s).flag (0x200 + ev / 32 * 4) (ev % 32) = true :=
  flag_setFlag _ _ (by omega)

/-- The queue has room: the record joins it. -/
theorem raiseEvent_of_room {ev : Nat} {s : State} (code : Nat) (d : List Byte) (h : ev < 128)
    (hon : s.flag 0x220 0 = true) (hroom : s.cci.evq.length < 256) : raiseEvent ev code d s =
      State.evqLevel { noteEvent ev s with cci.evq := s.cci.evq ++ [s.eventRec ev code d] } := by
  rw [raiseEvent_eq, noteEvent_flag h s (by omega), if_pos hon, if_pos hroom]

/-- The queue is full: the record is dropped and counted. -/
theorem raiseEvent_of_full {ev : Nat} {s : State} (code : Nat) (d : List Byte) (h : ev < 128)
    (hon : s.flag 0x220 0 = true) (hfull : 256 ≤ s.cci.evq.length) :
    raiseEvent ev code d s = ((noteEvent ev s).setFlag 0x220 11).incFld 0x228 31 16 := by
  rw [raiseEvent_eq, noteEvent_flag h s (by omega), if_pos hon, if_neg (by omega)]

/-- The queue is disabled. -/
theorem raiseEvent_of_disabled {ev : Nat} {s : State} (code : Nat) (d : List Byte) (h : ev < 128)
    (hoff : s.flag 0x220 0 = false) : raiseEvent ev code d s = noteEvent ev s := by
  rw [raiseEvent_eq, noteEvent_flag h s (by omega), if_neg (by simp [hoff])]

/-! ### What an event leaves of the command interface -/

/-- An event is counted, leaves the result cache and `CSEQ_HI`, and adds to the queue one record at most, in room. -/
theorem raiseEvent_cci (ev code : Nat) (d : List Byte) (s : State) :
    (raiseEvent ev code d s).cci.eseq = (s.cci.eseq + 1) % 65536 ∧
    (raiseEvent ev code d s).cci.cache = s.cci.cache ∧ (raiseEvent ev code d s).cci.cseqHi = s.cci.cseqHi ∧
    ((raiseEvent ev code d s).cci.evq = s.cci.evq ∨ s.cci.evq.length < 256 ∧
      (raiseEvent ev code d s).cci.evq = s.cci.evq ++ [s.eventRec ev code d]) := by
  rw [raiseEvent_eq]
  split
  · split
    · next hroom => exact ⟨rfl, rfl, rfl, .inr ⟨hroom, rfl⟩⟩
    · exact ⟨rfl, rfl, rfl, .inl rfl⟩
  · exact ⟨rfl, rfl, rfl, .inl rfl⟩

theorem raiseEvent_evq_length {ev code : Nat} {d : List Byte} {s : State} (h : s.cci.evq.length ≤ 256) :
    (raiseEvent ev code d s).cci.evq.length ≤ 256 := by
  obtain ⟨_, _, _, hq | ⟨hroom, hq⟩⟩ := raiseEvent_cci ev code d s
  · rw [hq]
    exact h
  · simp only [hq, List.length_append, List.length_singleton]
    omega

/-- Nothing after the count touches the pending bits. -/
theorem raiseEvent_pending {ev : Nat} (code : Nat) (d : List Byte) (s : State) (h : ev < 128) :
    (raiseEvent ev code d s).flag (0x200 + ev / 32 * 4) (ev % 32) = true := by
  have hp := noteEvent_pending ev s
  have h1 : 0x200 + ev / 32 * 4 ≠ 0x228 := by omega
  have h2 : 0x200 + ev / 32 * 4 ≠ 0x220 := by omega
  rw [raiseEvent_eq]
  split
  · split
    · exact hp
    · rw [State.incFld, flag_setFld_ne _ _ _ _ _ h1, State.setFlag, flag_setFld_ne _ _ _ _ _ h2]
      exact hp
  · exact hp

/-- A dropped record sets the overflow bit of `CCI_QCTL` and counts in `CCI_EVCNT`, to its top (R90). -/
theorem raiseEvent_dropped {ev : Nat} {s : State} (code : Nat) (d : List Byte) (h : ev < 128)
    (hon : s.flag 0x220 0 = true) (hfull : 256 ≤ s.cci.evq.length) :
    (raiseEvent ev code d s).cci.evq = s.cci.evq ∧ (raiseEvent ev code d s).flag 0x220 11 = true ∧
    (raiseEvent ev code d s).fld 0x228 31 16 = min (s.fld 0x228 31 16 + 1) 65535 := by
  have hold : ((noteEvent ev s).setFlag 0x220 11).fld 0x228 31 16 = s.fld 0x228 31 16 := by
    rw [State.setFlag, fld_setFld_ne _ _ _ _ _ _ (by decide), State.fld, noteEvent_reg h s (by omega), State.fld]
  have hlt : s.fld 0x228 31 16 < 65536 := bits_lt _ 31 16
  rw [raiseEvent_of_full code d h hon hfull]
  refine ⟨rfl, ?_, ?_⟩
  · rw [State.incFld, flag_setFld_ne _ _ _ _ _ (by decide)]
    exact flag_setFlag _ _ (by decide)
  · rw [State.incFld, fld_setFld _ _ _ (by decide) (by decide), hold]
    unfold satInc
    split <;> omega

end Sys2Proof.Machine

namespace Sys2Proof

open Sys2Proof.Machine

/-- Settles O9 from the three outcomes of an event. That `ESEQ` counts while the queue is disabled too is the model's
reading (log 15). -/
theorem eventRecordsAndSequence : Obligations.EventRecordsAndSequence := by
  unfold Obligations.EventRecordsAndSequence
  refine ⟨fun ev code d s => (raiseEvent_cci ev code d s).1, fun _ _ _ _ h => raiseEvent_evq_length h,
    fun ev code d s hon hev hroom => ?room, fun e hs hc hq ht hd => ?bytes,
    fun _ code d s hev => raiseEvent_pending code d s hev,
    fun _ code d _ hev hon hfull => raiseEvent_dropped code d hev hon hfull,
    fun ev code d s hev hoff => ?disabled, fun ev code d s => ?frame⟩
  case room => rw [raiseEvent_of_room code d hev hon hroom]; rfl
  case bytes =>
    rw [Event.bytes_eq hd]
    refine ⟨by simp [hd], ?_, ?_, ?_, ?_, List.take_of_length_le hd.le⟩ <;>
      simp only [u32, u16, u8, List.getD_cons_zero, List.getD_cons_succ, toNat_byte] <;> omega
  case disabled => rw [raiseEvent_of_disabled code d hev hoff]; rfl
  case frame =>
    obtain ⟨h, c, e⟩ := raiseEvent_hostSide ev code d s
    rw [e]

end Sys2Proof
end

section
/-!
SUPPORT AND PROOF for answers and commits: a commit enters the result cache and the log (R75, R254), reports by events
the credits of its data units (R84), and answers its mailbox; none of these reaches another mailbox.
-/

namespace Sys2Proof.Machine

/-! ### What happens beside one mailbox -/

/-- From `s` to `t` registers and the command interface change at most, of it no mailbox but `mb`, and neither the
result cache nor `CSEQ_HI`. -/
structure MbSide (mb : Nat) (s t : State) : Prop where
  frame : t = { s with hrs := t.hrs, cci := t.cci }
  cache : t.cci.cache = s.cci.cache
  cseqHi : t.cci.cseqHi = s.cci.cseqHi
  others : ∀ k, k ≠ mb → t.mb k = s.mb k

theorem MbSide.refl (mb : Nat) (s : State) : MbSide mb s s := ⟨rfl, rfl, rfl, fun _ _ => rfl⟩

theorem MbSide.trans {mb : Nat} {s t u : State} (h : MbSide mb s t) (k : MbSide mb t u) : MbSide mb s u where
  frame := by rw [k.frame, h.frame]
  cache := k.cache.trans h.cache
  cseqHi := k.cseqHi.trans h.cseqHi
  others n hn := (k.others n hn).trans (h.others n hn)

theorem setMb_mbSide (mb : Nat) (m : Mailbox) (s : State) : MbSide mb s (s.setMb mb m) :=
  ⟨rfl, rfl, rfl, fun k hk => by rw [mb_setMb, if_neg hk]⟩

theorem answer_mbSide (mb : Nat) (r : Resp) (s : State) : MbSide mb s (answer mb r s) := setMb_mbSide mb _ s

theorem raiseEvent_mbSide (mb ev code : Nat) (d : List Byte) (s : State) : MbSide mb s (raiseEvent ev code d s) := by
  obtain ⟨_, hcache, hhi, _⟩ := raiseEvent_cci ev code d s
  refine ⟨?_, hcache, hhi, fun k _ => raiseEvent_mb ev code d s k⟩
  obtain ⟨h, c, e⟩ := raiseEvent_hostSide ev code d s
  rw [e]

theorem foldl_mbSide {α : Type} {mb : Nat} (g : State → α → State) (h : ∀ s x, MbSide mb s (g s x)) (l : List α)
    (s : State) : MbSide mb s (l.foldl g s) := by
  induction l generalizing s with
  | nil => exact .refl mb s
  | cons x l ih => exact (h s x).trans (ih (g s x))

theorem creditEvents_mbSide (mb n : Nat) (s : State) : MbSide mb s (creditEvents n s) :=
  foldl_mbSide _ (fun _ _ => raiseEvent_mbSide mb _ _ _ _) _ s

/-- The credits of a command are reported beside its mailbox, which keeps count of them (R84). -/
theorem commitCredits_mbSide (mb : Nat) (s : State) : MbSide mb s (commitCredits mb s) := by
  unfold commitCredits
  dsimp only
  split
  · exact .refl mb s
  · exact (setMb_mbSide mb _ s).trans (creditEvents_mbSide mb _ _)

/-! ### The result cache -/

theorem evict_cache (c : Cci) : (evict c).cache = if 64 < c.cache.length then c.cache.tail else c.cache := by
  unfold evict
  split
  · next e t hc => split <;> simp_all
  · next hc => simp [hc]

@[simp] theorem evict_fields (c : Cci) : (evict c).cseqHi = c.cseqHi ∧ (evict c).mbs = c.mbs := by
  unfold evict
  split
  · split <;> exact ⟨rfl, rfl⟩
  · exact ⟨rfl, rfl⟩

theorem setCseqHi_cache (c : Cci) (n : Nat) : ({ c with cseqHi := n } : Cci).cache = c.cache := rfl

theorem logCommit_cci (mb cseq : Nat) (r : Option Resp) (s : State) : (logCommit mb cseq r s).cci =
    let c := evict { s.cci with cache := s.cci.cache ++ [{ cseq := cseq, mb := mb, resp := r }] }
    { c with cseqHi := if newer32 cseq c.cseqHi then cseq else c.cseqHi } := rfl

/-- By way of `setCseqHi_cache`: no unfolding may meet the modulus of `newer32`. -/
theorem logCommit_cache (mb cseq : Nat) (r : Option Resp) (s : State) : (logCommit mb cseq r s).cci.cache =
    (evict { s.cci with cache := s.cci.cache ++ [{ cseq := cseq, mb := mb, resp := r }] }).cache :=
  (congrArg Cci.cache (logCommit_cci mb cseq r s)).trans (setCseqHi_cache _ _)

/-- The entry of a commit is in the cache: an eviction takes an older one. -/
theorem mem_cache_logCommit (mb cseq : Nat) (r : Option Resp) (s : State) :
    { cseq := cseq, mb := mb, resp := r } ∈ (logCommit mb cseq r s).cci.cache := by
  rw [logCommit_cache, evict_cache]
  dsimp only
  split
  · next hlen =>
    have hne : s.cci.cache ≠ [] := fun h => by simp [h] at hlen
    rw [List.tail_append_of_ne_nil hne]
    simp
  · simp

/-- The cache holds no more than 64 entries (R75). -/
theorem length_cache_logCommit {mb cseq : Nat} {r : Option Resp} {s : State} (h : s.cci.cache.length ≤ 64) :
    (logCommit mb cseq r s).cci.cache.length ≤ 64 := by
  rw [logCommit_cache, evict_cache]
  dsimp only
  split
  · simp only [List.length_tail, List.length_append, List.length_singleton]
    omega
  · omega

theorem logCommit_cseqHi (mb cseq : Nat) (r : Option Resp) (s : State) : (logCommit mb cseq r s).cci.cseqHi =
    if newer32 cseq s.cci.cseqHi then cseq else s.cci.cseqHi := by
  simp [logCommit]

@[simp] theorem logCommit_mb (mb cseq : Nat) (r : Option Resp) (s : State) (k : Nat) :
    (logCommit mb cseq r s).mb k = s.mb k := by
  simp [logCommit, State.mb]

theorem logCommit_frame (mb cseq : Nat) (r : Option Resp) (s : State) : logCommit mb cseq r s =
    { s with cci := (logCommit mb cseq r s).cci, journal.logged := s.journal.logged + 1 } := rfl

/-! ### Refusals and commits -/

theorem finish_refuse_others {mb k : Nat} (st : Status) (res : List Byte) (s : State) (h : k ≠ mb) :
    (finish mb (.refuse st res) s).mb k = s.mb k :=
  (answer_mbSide mb _ s).others k h

theorem finish_commit_of_open {s : State} (h : s.journal.sealed = false) (mb : Nat) (res : List Byte) (u : State) :
    finish mb (.commit res u) s =
      let r : Resp := { committed := true, results := res, time32 := s.time32 }
      answer mb r (commitCredits mb (logCommit mb (s.mb mb).cseq (some r) u)) := by
  simp [finish, State.canCommit, h]

/-- A commit answers its mailbox, and beside that only logs its command. -/
theorem finish_commit_mbSide {s : State} (h : s.journal.sealed = false) (mb : Nat) (res : List Byte) (u : State) :
    MbSide mb (logCommit mb (s.mb mb).cseq (some { committed := true, results := res, time32 := s.time32 }) u)
      (finish mb (.commit res u) s) := by
  rw [finish_commit_of_open h]
  exact (commitCredits_mbSide mb _).trans (answer_mbSide mb _ _)

end Sys2Proof.Machine

namespace Sys2Proof

open Sys2Proof.Machine

/-- Settles O8: a commit is its log entry, and beside it only its mailbox changes (`finish_commit_mbSide`). -/
theorem answersAndCommits : Obligations.AnswersAndCommits := by
  unfold Obligations.AnswersAndCommits
  refine ⟨fun mb st res s => ⟨rfl, fun k hk => finish_refuse_others st res s hk⟩, ?_⟩
  rintro mb res u s t hopen rfl
  have side := finish_commit_mbSide hopen mb res u
  refine ⟨?phase, fun k hk => ?others, ?entry, fun hlen => ?bound, ?cseqHi, ?frame⟩
  case phase => simp [finish_commit_of_open hopen, answer]
  case others => rw [side.others k hk, logCommit_mb]
  case entry =>
    rw [side.cache]
    exact ⟨_, mem_cache_logCommit mb _ _ u, rfl, rfl⟩
  case bound =>
    rw [side.cache]
    exact length_cache_logCommit hlen
  case cseqHi => rw [side.cseqHi, logCommit_cseqHi]
  case frame =>
    have hframe := side.frame
    rw [logCommit_frame] at hframe
    exact hframe

end Sys2Proof
end

section
/-!
PROOFS for the `sys.*` commands: the bytes of their results, and each row by its rule (`Ready.run`).
-/

namespace Sys2Proof.Machine

theorem length_le (n v : Nat) : (le n v).length = n := by
  induction n generalizing v with
  | zero => rfl
  | succ n ih => rw [le, List.length_cons, ih]

/-- The bytes of a result before those sought, and those after. -/
theorem slice_append_append {off n : Nat} {a b c : List Byte} (ha : a.length = off) (hb : b.length = n) :
    slice (a ++ b ++ c) off n = b := by
  subst ha hb
  rw [slice, List.append_assoc, List.drop_left, List.take_left]

theorem slice_append {n : Nat} {a b : List Byte} (ha : a.length = n) : slice (a ++ b) 0 n = a :=
  slice_append_append (a := []) rfl ha

theorem length_sessionBytes (s : State) : s.sessionBytes.length = 13 := by
  simp [State.sessionBytes, length_le]

/-- The credits of a session just opened. -/
theorem avail_of_empty {s : State} (h : s.cci.inq = []) : s.avail = s.cci.credits := by
  simp [State.avail, h]

/-- R103, R280: the first `sys.hello` of a session. -/
theorem coreSysHello_of_closed {r : Req} {s : State} (h : s.cci.session = false) :
    coreSysHello r s = .session
      (le 4 s.keeper.epoch ++ le 4 (r.cseq - 1) ++ le 4 (r.cseq - 1) ++ [byte 64, 1, 0, 0] ++
        le 4 s.rstcause ++ fit 16 s.cci.closing)
      { s with cci.session := true, cci.cseqHi := r.cseq - 1, cci.evictHi := r.cseq - 1, cci.credits := 64,
               cci.inq := [] } := by
  simp only [coreSysHello, h, Bool.not_false, if_true, State.sessionBytes, avail_of_empty, List.append_assoc]
  rfl

theorem coreSysHello_of_open {r : Req} {s : State} (h : s.cci.session = true) :
    coreSysHello r s = .session
      (le 4 s.keeper.epoch ++ le 4 s.cci.cseqHi ++ le 4 s.cci.evictHi ++ [byte s.avail, 0, 0, 0] ++
        le 4 s.rstcause ++ fit 16 s.cci.closing) s := by
  simp only [coreSysHello, h, Bool.not_true, Bool.false_eq_true, if_false, State.sessionBytes, List.append_assoc]
  rfl

/-- R104: what `sys.resync` answers, up to the mailbox states. -/
theorem coreSysResync_eq (r : Req) (s : State) : ∃ rest,
    coreSysResync r s = .session (s.sessionBytes ++ [0, 0, 0] ++ le 4 s.restarts ++ rest)
      { s with cci.resyncPend := false, hrs.mgmtRestarts := 0, hrs.grpRestarts := 0 } := ⟨_, rfl⟩

/-- R287: the identity `sys.info` begins with. -/
theorem coreSysInfo_eq (r : Req) (s : State) : ∃ rest,
    coreSysInfo r s = .query ((le 2 0x3A5E ++ le 2 s.product) ++
      ([0xB1, 3, byte s.boot.fwMinor] ++ ([byte s.nPorts, byte s.nGroups] ++ rest))) := ⟨_, rfl⟩

theorem coreSysAbort_of_last {r : Req} {s : State} (h : r.mb = 7) : coreSysAbort r s =
    .session (abortMask (u8 r.params 0 % 128) s).1 (abortMask (u8 r.params 0 % 128) s).2 := by
  simp [coreSysAbort, h]

theorem coreSysAbort_of_other {r : Req} {s : State} (h : r.mb ≠ 7) :
    coreSysAbort r s = .refuse .notPermitted [] := by
  simp [coreSysAbort, h]

theorem coreSysExpert_of_group {r : Req} {s : State} (h1 : 1 ≤ u8 r.params 0) (h2 : u8 r.params 0 ≤ 0x0E)
    (ho : u8 r.params 1 ≤ 1) :
    coreSysExpert r s = .commit [] (setExpert (u8 r.params 0) (u8 r.params 1 == 1) s) := by
  have hg : ¬ (u8 r.params 0 = 0 ∨ 0x0E < u8 r.params 0) := by omega
  have hb : ¬ 1 < u8 r.params 1 := by omega
  simp only [coreSysExpert, beq_iff_eq, Bool.or_eq_true, decide_eq_true_eq, hg, hb, or_self, if_false]

theorem coreSysReset_of_key {r : Req} {s : State} (h : u16 r.params 0 = 0x5A5A) :
    coreSysReset r s = .commit [] s := by
  simp [coreSysReset, h]

end Sys2Proof.Machine

namespace Sys2Proof

open Sys2Proof.Machine

/-- The `sys.abort` ready in MB7 is the one that waits there (R99). -/
theorem Ready.abortAsked {r : Req} {s : State} (h : Ready 7 0x0004 r s) : s.abortAsked = u8 r.params 0 % 128 := by
  have hrun := h.runnable
  simp only [Mailbox.runnable, Bool.and_eq_true, beq_iff_eq] at hrun
  simp [State.abortAsked, hrun.1.1, hrun.1.2, h.code, h.req]

theorem exec_sysAbort_of_free {r : Req} {s : State} (h : Ready 7 0x0004 r s)
    (hheld : s.abortHeld (u8 r.params 0 % 128) = false) :
    exec (.sysAbort 7) s = .next (finish 7 (.session (abortMask (u8 r.params 0 % 128) s).1
      (abortMask (u8 r.params 0 % 128) s).2) s) := by
  rw [← coreSysAbort_of_last h.mb_eq, ← h.run coreSysAbort]
  change execSysAbort 7 s = _
  simp [execSysAbort, h.abortAsked, hheld]

/-- R99: only MB7 takes a `sys.abort`. -/
theorem exec_sysAbort_of_other {mb : Fin 8} {r : Req} {s : State} (h : Ready mb.val 0x0004 r s) (hmb : mb ≠ 7) :
    exec (.sysAbort mb) s = .next (finish mb (.refuse .notPermitted []) s) := by
  have hne : mb.val ≠ 7 := fun e => hmb (Fin.ext e)
  rw [← coreSysAbort_of_other (s := s) (h.mb_eq.trans_ne hne), ← h.run coreSysAbort]
  change execSysAbort mb s = _
  simp [execSysAbort, hne]

theorem exec_sysResync_of_ready {mb : Fin 8} {r : Req} {s : State} (h : Ready mb.val 0x0002 r s) : ∃ res,
    exec (.sysResync mb) s = .next (finish mb (.session res
      { s with cci.resyncPend := false, hrs.mgmtRestarts := 0, hrs.grpRestarts := 0 }) s) ∧
    slice res 0 13 = le 4 s.keeper.epoch ++ le 4 s.cci.cseqHi ++ le 4 s.cci.evictHi ++ [byte s.avail] ∧
    slice res 16 4 = le 4 s.restarts := by
  obtain ⟨rest, hcore⟩ := coreSysResync_eq r s
  refine ⟨s.sessionBytes ++ [0, 0, 0] ++ le 4 s.restarts ++ rest, ?_, ?_, ?_⟩
  · rw [← hcore]
    exact h.run coreSysResync
  · rw [List.append_assoc, List.append_assoc]
    exact slice_append (length_sessionBytes s)
  · exact slice_append_append (by simp [length_sessionBytes]) (length_le 4 _)

theorem exec_sysInfo_of_ready {mb : Fin 8} {r : Req} {s : State} (h : Ready mb.val 0x0003 r s) : ∃ res,
    exec (.sysInfo mb) s = .next (finish mb (.query res) s) ∧
    slice res 0 4 = le 2 0x3A5E ++ le 2 s.product ∧ slice res 7 2 = [byte s.nPorts, byte s.nGroups] := by
  obtain ⟨rest, hcore⟩ := coreSysInfo_eq r s
  refine ⟨_, (h.run coreSysInfo).trans (by rw [hcore]), ?_, ?_⟩
  · exact slice_append (by simp [length_le])
  · rw [← List.append_assoc, ← List.append_assoc]
    exact slice_append_append (by simp [length_le]) rfl

/-- Settles O22: a ready row runs its rule, and the rules are above. -/
theorem sessionCommandsComplete : Obligations.SessionCommandsComplete := by
  unfold Obligations.SessionCommandsComplete
  refine ⟨fun mb r s h hclosed => ?hello, fun mb r s h hopen => ?helloAgain, fun _ _ _ h => exec_sysResync_of_ready h,
    fun _ _ _ h => exec_sysInfo_of_ready h, fun _ _ h hheld => exec_sysAbort_of_free h hheld,
    fun _ _ _ h hmb => exec_sysAbort_of_other h hmb, fun mb r s h h1 h2 ho => ?expert, fun mb r s h hkey => ?reset⟩
  case hello =>
    rw [← coreSysHello_of_closed hclosed]
    exact h.run coreSysHello
  case helloAgain =>
    rw [← coreSysHello_of_open hopen]
    exact h.run coreSysHello
  case expert =>
    rw [← coreSysExpert_of_group h1 h2 ho]
    exact h.run coreSysExpert
  case reset =>
    rw [← coreSysReset_of_key hkey]
    exact h.run coreSysReset

end Sys2Proof
end

section
/-!
PROOFS for the event queue and the record stream as the host reads them.
-/

namespace Sys2Proof.Machine

/-- The Caside function on USB runs: an upstream host is there and has suspended neither the hub nor the function. -/
structure CasideRuns (s : State) : Prop where
  host : s.usbHost = true
  hub : s.hub.suspended = false
  caside : s.hub.casideSuspended = false

end Sys2Proof.Machine

namespace Sys2Proof

open Sys2Proof.Machine

/-- R94: a read of all four words takes the event off the queue. -/
theorem exec_eventRead_of_on {w : Fin 5} {s : State} (hon : s.hostOn = true) :
    exec (.eventRead w) s = .next
      (if w.val = 4 then dropEvents 1 { s with rdata := s.evHead.take 16 }
       else { s with rdata := s.evHead.take (4 * w.val) }) := by
  change execEventRead w s = _
  by_cases hw : w.val = 4 <;> simp [execEventRead, hon, hw]

/-- R94: fewer than sixteen words only show what stands there. -/
theorem exec_streamRead_of_part {w : Fin 17} {s : State} (hon : s.hostOn = true) (hw : w.val < 16) :
    exec (.streamRead w) s = .next { s with rdata := (fit 64 (takeBytes 64 s.deliverable).1).take (4 * w.val) } := by
  have hne : w.val ≠ 16 := by omega
  change execStreamRead w s = _
  simp [execStreamRead, hon, hne]

theorem exec_streamRead_of_whole {s : State} (hon : s.hostOn = true) :
    exec (.streamRead 16) s = .next (delivered (takeBytes 64 s.deliverable).2.1
      ((takeBytes 64 s.deliverable).2.2 ++ s.cci.ring.drop s.deliverable.length)
      { s with rdata := (fit 64 (takeBytes 64 s.deliverable).1).take 64 }) := by
  change execStreamRead 16 s = _
  simp [execStreamRead, hon]

/-- R98: the records of a transfer are delivered by the `ACK` of its last packet. -/
theorem exec_ep1InTransferEnd_of_runs {ack : Bool} {s : State} (hon : s.hostOn = true) (h : CasideRuns s) :
    exec (.ep1InTransferEnd ack) s = .next
      (let l := transferOf 4096 s.deliverable
       let t := { s with rdata := (l.map (·.2)).flatten }
       if ack then delivered (l.map (·.1)) (s.cci.ring.drop l.length) t else t) := by
  change execEp1InTransferEnd ack s = _
  simp [execEp1InTransferEnd, hon, h.host, h.hub, h.caside]

/-- R275: the events of a packet stay until its `ACK`. -/
theorem exec_ep3InEventPacket_of_runs {n : Fin 5} {ack : Bool} {s : State} (hon : s.hostOn = true)
    (h : CasideRuns s) : exec (.ep3InEventPacket n ack) s = .next
      (if ack then dropEvents n.val { s with rdata := ((s.cci.evq.take n.val).map Event.bytes).flatten }
       else { s with rdata := ((s.cci.evq.take n.val).map Event.bytes).flatten }) := by
  change execEp3InEventPacket n ack s = _
  simp [execEp3InEventPacket, hon, h.host, h.hub, h.caside]

/-- Settles O54, row by row. -/
theorem queueReadRowsComplete : Obligations.QueueReadRowsComplete := by
  unfold Obligations.QueueReadRowsComplete
  refine ⟨fun w s hon => exec_eventRead_of_on hon, fun w s hon hw => exec_streamRead_of_part hon hw,
    fun s hon => exec_streamRead_of_whole hon, fun s hon hhost hhub hcaside => ?transfer,
    fun n ack s hon hhost hhub hcaside => exec_ep3InEventPacket_of_runs hon ⟨hhost, hhub, hcaside⟩⟩
  case transfer =>
    have hruns : CasideRuns s := ⟨hhost, hhub, hcaside⟩
    exact ⟨exec_ep1InTransferEnd_of_runs hon hruns, exec_ep1InTransferEnd_of_runs hon hruns⟩

end Sys2Proof
end

section
/-!
PROOFS for the command interface as the host drives it: doorbells, releases, aborts, data units, responses and the
command pipe.
-/

namespace Sys2Proof.Machine

/-- The mask of one mailbox lists it alone. -/
theorem bitList_one_mailbox (n : Fin 8) : bitList 8 (BitVec.ofNat 8 (2 ^ n.val)).toNat = [n.val] := by
  revert n
  decide

/-! ### Doorbells, releases, aborts -/

/-- R64: another doorbell on a mailbox that is not IDLE. -/
theorem accept_of_busy {n : Nat} {s : State} (h : (s.mb n).state ≠ .idle) : accept n s = s.setFlag 0x110 10 := by
  simp [accept, h]

theorem ring_one (n : Fin 8) (s : State) : ring (BitVec.ofNat 8 (2 ^ n.val)).toNat s = accept n.val s := by
  rw [ring, bitList_one_mailbox]
  rfl

theorem doneWrite_one (n : Fin 8) (s : State) : doneWrite (BitVec.ofNat 8 (2 ^ n.val)).toNat s =
    if (s.mb n.val).state = .done then s.setMb n.val { s.mb n.val with state := .idle } else s.setFlag 0x110 10 := by
  rw [doneWrite, bitList_one_mailbox]
  simp

/-- The wake of a domain that is ON restarts its idle timer at most (R461, R463). -/
theorem domWake_of_on {d src : Nat} {s : State} (hst : (s.dom d).st = 0) (hentry : (s.dom d).entry = none) :
    domWake d src s = s ∨ domWake d src s = s.setDom d { s.dom d with idleAt := s.tick } := by
  unfold domWake
  split
  · exact .inl rfl
  · by_cases hsrc : 8 ≤ src <;> simp [hsrc, hst, hentry]

theorem domWake_warden_of_on {d src : Nat} {s : State} (hst : (s.dom d).st = 0) (hentry : (s.dom d).entry = none) :
    (domWake d src s).warden = s.warden := by
  rcases domWake_of_on (src := src) hst hentry with h | h <;> simp [h]

/-- R99: a request for aborts is resolved at once in warden mode. -/
theorem abortWrite_of_warden {mask : Nat} {s : State} (hmask : mask ≠ 0) (hmode : s.warden.mode = true)
    (hst : (s.dom 2).st = 0) (hentry : (s.dom 2).entry = none) : abortWrite mask s =
      resolveAborts (domWake 2 8 { s with
        cci.abortReq := s.cci.abortReq ||| mask
        cci.abortSince := if s.cci.abortReq = 0 then s.tick else s.cci.abortSince }) := by
  have hw (c : Cci) : (domWake 2 8 { s with cci := c }).warden.mode = true := by
    rw [domWake_warden_of_on (s := { s with cci := c }) hst hentry]
    exact hmode
  simp [abortWrite, hmask, hw]

/-! ### Data units -/

theorem takeUnit_of_length {b : List Byte} {s : State} (h : b.length ≠ 64) :
    takeUnit b s = s.setFlag 0x110 14 := by
  simp [takeUnit, h]

/-- R84: no credit is left. -/
theorem takeUnit_of_no_credit {b : List Byte} {s : State} (hlen : b.length = 64) (havail : s.avail = 0) :
    takeUnit b s = (let t := s.setFlag 0x110 12
      raiseEvent 110 1 (le 2 (t.reg 0x110 + 2 * b2n t.dataOn)) t) := by
  simp [takeUnit, hlen, havail]

/-- R84: an orphan is counted and its credit returned. -/
theorem takeUnit_of_orphan {b : List Byte} {s : State} (hlen : b.length = 64) (havail : s.avail ≠ 0)
    (h : (s.mb (u32 b 0 % 8)).state ≠ .posted ∨ (s.mb (u32 b 0 % 8)).data = false ∨
      (s.mb (u32 b 0 % 8)).dead = true) : takeUnit b s = creditEvent 1 (s.setFlag 0x110 13) := by
  have horphan : (!s.flag 0x110 0 || (s.mb (u32 b 0 % 8)).state != .posted || !(s.mb (u32 b 0 % 8)).data ||
      (s.mb (u32 b 0 % 8)).dead) = true := by
    rcases h with h | h | h <;> simp [h]
  have hlen' : (b.length != 64) = false := by simp [hlen]
  simp only [takeUnit, horphan, hlen', if_true, beq_iff_eq, havail, if_false, Bool.false_eq_true]

/-- R82, R83: a unit in sequence costs a credit and joins the command's buffer; a length is cut to 60 bytes (log 43). -/
theorem takeUnit_of_sequence {b : List Byte} {n : Nat} {s : State} (hlen : b.length = 64) (havail : s.avail ≠ 0)
    (hpath : s.flag 0x110 0 = true) (hn : u32 b 0 % 8 = n) (hposted : (s.mb n).state = .posted)
    (hdata : (s.mb n).data = true) (hdead : (s.mb n).dead = false) (htakes : ((unitIn n s).mb n).takesUnits = true)
    (hlast : ((unitIn n s).mb n).lastSeen = false) (hindex : bits (u32 b 0) 31 16 = ((unitIn n s).mb n).nextUnit) :
    takeUnit b s = (unitIn n s).setMb n { (unitIn n s).mb n with
      buf := ((unitIn n s).mb n).buf ++ slice b 4 (min (bits (u32 b 0) 9 4) 60)
      nextUnit := ((unitIn n s).mb n).nextUnit + 1, lastSeen := bit (u32 b 0) 3 } := by
  simp [takeUnit, hlen, havail, hpath, hn, hposted, hdata, hdead, htakes, hlast, hindex]

/-- R97: a whole command in a transfer to an IDLE mailbox. -/
theorem pipeCommand_of_whole {b : List Byte} {s : State} (hlen : 20 ≤ b.length) (hmb : u8 b 0 ≤ 7)
    (hzero : allZero b 1 4 = true) (hplen : b.length = 20 + u16 b 16) (hidle : (s.mb (u8 b 0)).state = .idle) :
    pipeCommand b s = accept (u8 b 0) (s.setMb (u8 b 0)
      { s.mb (u8 b 0) with win := putWin (s.mb (u8 b 0)).win 0 (slice b 4 256) }) := by
  have h1 : ¬ b.length < 20 := by omega
  have h2 : ¬ 7 < u8 b 0 := by omega
  have h3 : (b.length != 20 + u16 b 16) = false := by simp [hplen]
  have h4 : ((s.mb (u8 b 0)).state != .idle) = false := by simp [hidle]
  simp only [pipeCommand, h1, h2, h3, h4, hzero, decide_false, Bool.not_true, Bool.or_self, Bool.false_eq_true,
    if_false]

theorem pipeCommand_of_short {b : List Byte} {s : State} (h : b.length < 20) :
    pipeCommand b s = s.setFlag 0x110 10 := by
  simp [pipeCommand, h]

end Sys2Proof.Machine

namespace Sys2Proof

open Sys2Proof.Machine

/-! ### The rows, where the hub takes writes -/

theorem exec_doorbellRing_one {n : Fin 8} {s : State} (hw : s.hostWrites = true) :
    exec (.doorbellRing (BitVec.ofNat 8 (2 ^ n.val))) s = .next (accept n.val s) := by
  rw [← ring_one]
  exact if_pos hw

theorem exec_cciDoneWrite_one {n : Fin 8} {s : State} (hw : s.hostWrites = true) :
    exec (.cciDoneWrite (BitVec.ofNat 8 (2 ^ n.val))) s = .next
      (if (s.mb n.val).state = .done then s.setMb n.val { s.mb n.val with state := .idle }
       else s.setFlag 0x110 10) := by
  rw [← doneWrite_one]
  exact if_pos hw

theorem exec_abortReqWrite_of_writes {mask : Byte} {s : State} (hw : s.hostWrites = true) :
    exec (.abortReqWrite mask) s = .next (abortWrite mask.toNat s) := if_pos hw

theorem exec_dataUnit_of_writes {b : List Byte} {s : State} (hw : s.hostWrites = true) :
    exec (.dataUnit b) s = .next (takeUnit b s) := if_pos hw

/-- R83: the time of the doorbell and `DTIMEOUT` has run out before `LAST`. -/
theorem exec_dtimeoutExpiry_of_open {mb : Fin 8} {s : State} (htakes : (s.mb mb.val).takesUnits = true)
    (hlast : (s.mb mb.val).lastSeen = false) (hsafe : s.warden.safe = false) :
    exec (.dtimeoutExpiry mb) s = .next
      (let u := s.waitUntil ((s.mb mb.val).since + ticksMs (s.fld 0x118 11 0))
       answer mb.val (refusal .timeout [] u) (u.setMb mb.val { u.mb mb.val with buf := [], dead := true })) := by
  change execDtimeoutExpiry mb s = _
  simp [execDtimeoutExpiry, htakes, hlast, hsafe]

/-- R65: the response of an answered command, where its cores run. -/
theorem exec_mailboxResponse_of_answered {mb : Fin 8} {r : Resp} {s : State} (hposted : (s.mb mb.val).state = .posted)
    (hanswered : (s.mb mb.val).phase = .answered r) (hon : s.hostOn = true) (hsafe : s.warden.safe = false)
    (hruns : s.warden.mode = true ∨ s.mgmtDown = none) :
    exec (.mailboxResponse mb) s = .next (respond mb.val r s) := by
  have hcores : (s.warden.mode || s.mgmtDown.isNone) = true := by simpa using hruns
  change execMailboxResponse mb s = _
  simp [execMailboxResponse, hposted, hanswered, hon, hsafe, hcores]

theorem exec_commandPipeTransfer_of_runs {b : List Byte} {s : State} (hw : s.hostWrites = true) (h : CasideRuns s) :
    exec (.commandPipeTransfer b) s = .next (pipeCommand b s) := by
  change execCommandPipeTransfer b s = _
  simp [execCommandPipeTransfer, hw, h.host, h.hub, h.caside]

/-- Settles O53, row by row. That a unit's length is cut to 60 bytes is the model's choice (log 43). -/
theorem mailboxRowsComplete : Obligations.MailboxRowsComplete := by
  unfold Obligations.MailboxRowsComplete
  refine ⟨fun n s hw _ => exec_doorbellRing_one hw, fun n s hw hbusy => ?violation,
    fun n s hw => exec_cciDoneWrite_one hw, fun s hw => exec_abortReqWrite_of_writes hw,
    fun mask s hw hmask _ hmode hst hentry => ?abort, fun b s hw hlen => ?length, fun b s hw hlen havail => ?credit,
    fun b s hw hlen havail h => ?orphan, ?sequence,
    fun mb s htakes hlast hsafe => ⟨_, rfl, exec_dtimeoutExpiry_of_open htakes hlast hsafe⟩,
    fun mb r s hposted hanswered hon hsafe hruns =>
      exec_mailboxResponse_of_answered hposted hanswered hon hsafe hruns,
    fun b s hw hhost hhub hcaside hlen hmb hzero hplen hidle => ?pipe, fun b s hw hhost hhub hcaside hlen => ?short⟩
  case violation => rw [exec_doorbellRing_one hw, accept_of_busy hbusy]
  case abort =>
    have hne : mask.toNat ≠ 0 := fun h => hmask (BitVec.eq_of_toNat_eq h)
    rw [exec_abortReqWrite_of_writes hw, abortWrite_of_warden hne hmode hst hentry]
  case length => rw [exec_dataUnit_of_writes hw, takeUnit_of_length hlen]
  case credit => rw [exec_dataUnit_of_writes hw, takeUnit_of_no_credit hlen havail]
  case orphan => rw [exec_dataUnit_of_writes hw, takeUnit_of_orphan hlen havail h]
  case sequence =>
    rintro b n t s hw hlen havail hpath hn hposted hdata hdead rfl htakes hlast hindex
    rw [exec_dataUnit_of_writes hw,
      takeUnit_of_sequence hlen havail hpath hn hposted hdata hdead htakes hlast hindex]
  case pipe =>
    rw [exec_commandPipeTransfer_of_runs hw ⟨hhost, hhub, hcaside⟩, pipeCommand_of_whole hlen hmb hzero hplen hidle]
  case short => rw [exec_commandPipeTransfer_of_runs hw ⟨hhost, hhub, hcaside⟩, pipeCommand_of_short hlen]

end Sys2Proof
end

section
/-!
PROOFS for enumeration, the rows of the domain, and the flush of a Cowslip queue.
-/

namespace Sys2Proof.Machine

/-- A port whose enumeration may go on: concentrated, `ENABLED`, and its group's engine up. -/
structure Enumerates (p : Nat) (s : State) : Prop where
  own : (s.port p).usb.transparent = false
  running : (s.port p).usb.st = 8
  group : s.groupUp (p / 8) = true

/-- Nothing stands above a device of tier 1. -/
theorem hubAbove_of_tier_one {d : DevDesc} (h : d.tier = 1) (p : Nat) (s : State) : s.hubAbove p d = true := by
  simp [State.hubAbove, h]

/-- A device of the chip itself joins as it is: the number is new, and there is room (R205, R206). -/
theorem joinChild_of_new {p : Port} {c : ChildDesc} {id n : Nat} {s : State} (hroot : s.isRoot = true)
    (hids : ((s.portDevs p.val).filter fun id => isOtind (s.dev id).desc && !(s.dev id).gone) = [id])
    (hparent : c.parent = 0) (hnumber : childNumber c.serial s = some n) (hnew : s.child n = {})
    (hroom : s.chipsKnown < 64) :
    joinChild p c s = .next
      (let t := s.setChild n { known := true, joined := true, parent := 0, parentPort := c.parentPort
                               tier := 1, ports := c.ports, serial := c.serial }
       abortsResume n (raiseEvent 113 1 [byte n, byte 0, byte c.parentPort, byte 1, byte 0]
         (t.setDev id { t.dev id with child := some n }))) := by
  have hfull : ¬ 64 ≤ s.chipsKnown := by omega
  simp [joinChild, hroot, hids, hparent, hnumber, hnew, hfull, b2n]

/-! ### The flush of a queue (R95) -/

theorem flushQueue_events (far sent : Nat) (s : State) : flushQueue 3 far sent s =
    State.evqLevel ({ s with cci.evq := [] }.setFld 0x228 31 16 (min (s.fld 0x228 31 16 + s.cci.evq.length) 65535)) := by
  simp only [flushQueue]

theorem flushQueue_relay (far sent : Nat) (s : State) :
    flushQueue 5 far sent s = raiseEvent 116 1 ([byte far] ++ le 2 sent) s := by
  simp only [flushQueue]

end Sys2Proof.Machine

namespace Sys2Proof

open Sys2Proof.Machine

/-! ### Enumeration -/

theorem exec_enumeration_of_port {p : Port} {d : DevDesc} {s : State} (h : Enumerates p.val s) (ht : d.tier = 1)
    (hnew : (s.port p.val).usb.enumerated = false) :
    exec (.enumeration p d) s = .next (settleDevice p.val d (forgetAddrs p.val d.hub1 d.hub2
      (s.modUsb p.val fun u => { u with
        enumerated := true, enumTries := Tbl.erase u.enumTries (d.hub1 * 256 + d.hub2) }))) := by
  change execEnumeration p d s = _
  simp [execEnumeration, h.own, h.running, h.group, ht, hnew, hubAbove_of_tier_one]

/-- R175: the device of the port itself. -/
theorem exec_enumerationStepFail_of_port {p : Port} {k : Fin 8} {s : State} (h : Enumerates p.val s)
    (hk : k.val ≠ 0) (hnew : (s.port p.val).usb.enumerated = false) :
    exec (.enumerationStepFail p k 0 0) s = .next
      (if Tbl.getD 0 (s.port p.val).usb.enumTries 0 < 2 then
         startReset p.val 1 (s.modUsb p.val fun u => { u with enumTries := Tbl.modD 0 u.enumTries 0 (· + 1) })
       else setPortState p.val 10 6 (wireDrop p.val (groupEvent (p.val / 8) 5 [0, 0, byte p.val, byte k.val, 1]
         (s.modUsb p.val fun u => { u with enumTries := Tbl.erase u.enumTries 0 })))) := by
  have hbeq : (k.val == 0) = false := beq_false_of_ne hk
  change execEnumerationStepFail p k 0 0 s = _
  by_cases htries : Tbl.getD 0 (s.port p.val).usb.enumTries 0 < 2
  · simp [execEnumerationStepFail, h.own, h.running, h.group, hbeq, hnew, hubAbove_of_tier_one, htries]
  · simp [execEnumerationStepFail, h.own, h.running, h.group, hbeq, hnew, hubAbove_of_tier_one, htries]
    rfl

/-- R175: a device behind one external hub, at its third failure. -/
theorem exec_enumerationStepFail_of_hubPort {p : Port} {k : Fin 8} {hub1 : Nat} {s : State} (h : Enumerates p.val s)
    (hk : k.val ≠ 0) (henum : (s.port p.val).usb.enumerated = true) (hhub : hub1 ≠ 0)
    (habove : s.hubAbove p.val { tier := 2, hub1 := hub1, hub2 := 0 } = true)
    (htries : 2 ≤ Tbl.getD 0 (s.port p.val).usb.enumTries (hub1 * 256)) :
    exec (.enumerationStepFail p k hub1 0) s = .next (forgetAddrs p.val hub1 0
      ((groupEvent (p.val / 8) 5 [0, 0, byte p.val, byte k.val, 2]
        (s.modUsb p.val fun u => { u with enumTries := Tbl.erase u.enumTries (hub1 * 256) })).modUsb p.val
        fun u => { u with hubOff := addSorted (hub1 * 256) u.hubOff })) := by
  have hbeq : (k.val == 0) = false := beq_false_of_ne hk
  have hthird : ¬ Tbl.getD 0 (s.port p.val).usb.enumTries (hub1 * 256) < 2 := by omega
  change execEnumerationStepFail p k hub1 0 s = _
  simp [execEnumerationStepFail, h.own, h.running, h.group, hbeq, henum, hhub, habove, hthird]
  rfl

/-! ### The domain -/

/-- R205, R206: below a parent. The operand is the model's (log 21). -/
theorem exec_childJoin_own {number : Fin 64} {tier : Fin 3} {s : State} (hroot : s.isRoot = false)
    (hnumber : number.val ≠ 0) (htier : tier.val ≠ 0) :
    exec (.childJoin (.own number tier)) s = .next { s with
      domain := { s.domain with chipNum := number.val, joined := true, tier := tier.val } } := by
  have hn : (number.val == 0) = false := beq_false_of_ne hnumber
  have ht : (tier.val == 0) = false := beq_false_of_ne htier
  change execChildJoin (.own number tier) s = _
  simp only [execChildJoin, hroot, hn, ht, Bool.or_self, Bool.false_eq_true, if_false]

theorem exec_childLost_of_joined {chip : Fin 64} {why : Fin 4} {s : State} (h : (s.child chip.val).joined = true) :
    exec (.childLost chip why) s = .next (raiseEvent 114 1
      ([byte chip.val, byte (s.child chip.val).parentPort] ++ le 2 (s.relayed chip.val).length)
      (s.setChild chip.val { s.child chip.val with joined := false })) := by
  change execChildLost chip why s = _
  simp [execChildLost, h]

/-- R207, R298: a child's event. That a full mirror loses the new record is the model's choice (log 35). -/
theorem exec_domainLinkFrame_event {chip : Fin 64} {b : List Byte} {s : State}
    (h : (s.child chip.val).joined = true) :
    exec (.domainLinkFrame chip (.event b)) s = .next (raiseEvent 112 1
      ([byte chip.val, byte (u8 b 0), byte (u8 b 1)] ++ slice b 8 5)
      (s.setChild chip.val (if (childLoads b (s.child chip.val)).mirror.length < 64 then
        { childLoads b (s.child chip.val) with mirror := (childLoads b (s.child chip.val)).mirror ++ [fit 16 b] }
       else { childLoads b (s.child chip.val) with lost := (childLoads b (s.child chip.val)).lost + 1 }))) := by
  change execDomainLinkFrame chip (.event b) s = _
  simp [execDomainLinkFrame, h]

theorem exec_cowslipFlush (q : Fin 6) (far : Fin 64) (sent : Nat) (s : State) :
    exec (.cowslipFlush q far sent) s = .next (faultPulse (80 + q.val) (flushQueue q.val far.val sent s)) := rfl

/-- Settles O39, row by row. -/
theorem enumerationAndDomainRowsComplete : Obligations.EnumerationAndDomainRowsComplete := by
  unfold Obligations.EnumerationAndDomainRowsComplete
  refine ⟨fun p d s hown hrun hgroup ht hnew => exec_enumeration_of_port ⟨hown, hrun, hgroup⟩ ht hnew,
    fun p k s hown hrun hgroup hk hnew => exec_enumerationStepFail_of_port ⟨hown, hrun, hgroup⟩ hk hnew,
    fun p k hub1 s hown hrun hgroup hk henum hhub habove htries =>
      exec_enumerationStepFail_of_hubPort ⟨hown, hrun, hgroup⟩ hk henum hhub habove htries,
    fun p c id n s hroot hids hparent hnumber hnew hroom =>
      joinChild_of_new hroot hids hparent hnumber hnew hroom,
    fun number tier s hroot hnumber htier => exec_childJoin_own hroot hnumber htier,
    fun chip why s h => exec_childLost_of_joined h, fun chip b s h => exec_domainLinkFrame_event h,
    fun far sent s => ?events, fun far sent s => ?relay⟩
  case events => exact (exec_cowslipFlush 3 far sent s).trans (congrArg _ (congrArg _ (flushQueue_events _ _ s)))
  case relay => exact (exec_cowslipFlush 5 far sent s).trans (congrArg _ (congrArg _ (flushQueue_relay _ _ s)))

end Sys2Proof
end

section
/-!
PROOFS for the tick of an empty queue, and for the `phase.*` commands: the registers each of them loads, and each row
by its rule (`Ready.run`).
-/

namespace Sys2Proof.Machine

/-! ### `phase.set` (R131) -/

/-- The registers of an output as `phase.set` loads them (R131, R140). -/
def phoLoaded (r : Req) (s : State) : State :=
  let b := phoBase (u8 r.params 0)
  (((s.setReg b (bits (s.reg b) 11 8 * 256 + b2n (s.flag b 0) + u8 r.params 2 * 4 + u8 r.params 3 * 32 +
    r.e8 16 0 * 65536)).setReg (b + 4) (u32 r.params 4)).setReg (b + 8) (u32 r.params 8)).setReg (b + 12)
    (u32 r.params 12)

theorem corePhaseSet_of_good {r : Req} {s : State} (hn : u8 r.params 0 ≤ 15) (hen : u8 r.params 1 ≤ 1)
    (hfl : u8 r.params 3 ≤ 3) (hwid : u32 r.params 12 < 2 ^ 24)
    (hbad : phoBad (u8 r.params 2) (u32 r.params 4) (u32 r.params 8) (u32 r.params 12) (bit (u8 r.params 3) 0) = false) :
    corePhaseSet r s = .commit [] (if u8 r.params 1 = 1 then phoOn (u8 r.params 0) (phoLoaded r s)
      else phoOff (u8 r.params 0) (phoLoaded r s)) := by
  have hwid' : ¬ 16777215 < u32 r.params 12 := Nat.not_lt.2 (Nat.le_of_lt_succ hwid)
  simp only [corePhaseSet, Nat.not_lt.2 hn, Nat.not_lt.2 hen, Nat.not_lt.2 hfl, hwid', hbad, phoLoaded, decide_false,
    Bool.or_self, Bool.false_eq_true, if_false, beq_iff_eq]

theorem tb_le_of_phoBad {tb pos per width : Nat} {level : Bool} (h : phoBad tb pos per width level = false) :
    tb ≤ 4 := by
  simp only [phoBad, Bool.or_eq_false_iff, decide_eq_false_iff_not] at h
  omega

theorem b2n_le (b : Bool) : b2n b ≤ 1 := by cases b <;> decide

/-- The time base an output's first register names (R140). -/
theorem fld_phoLoaded_tb {r : Req} {s : State} (htb : u8 r.params 2 ≤ 4) :
    (phoLoaded r s).fld (phoBase (u8 r.params 0)) 4 2 = u8 r.params 2 := by
  have hold := bits_lt (s.reg (phoBase (u8 r.params 0))) 11 8
  have hon := b2n_le (s.flag (phoBase (u8 r.params 0)) 0)
  have hadv := Req.e8_lt r 16 0 (by decide)
  rw [phoLoaded, fld_setReg_ne _ _ _ _ (by omega), fld_setReg_ne _ _ _ _ (by omega), fld_setReg_ne _ _ _ _ (by omega),
    fld_setReg _ _ _ (by decide)]
  generalize bits (s.reg (phoBase (u8 r.params 0))) 11 8 = old at hold
  simp only [bits]
  omega

theorem reg_phoLoaded (r : Req) (s : State) :
    (phoLoaded r s).reg (phoBase (u8 r.params 0) + 4) = u32 r.params 4 ∧
    (phoLoaded r s).reg (phoBase (u8 r.params 0) + 8) = u32 r.params 8 ∧
    (phoLoaded r s).reg (phoBase (u8 r.params 0) + 12) = u32 r.params 12 := by
  simp [phoLoaded, reg_setReg, Nat.mod_eq_of_lt (u32_lt _ _)]

/-- The 16 bytes of another output, and every other register, stay. -/
theorem reg_phoLoaded_other {r : Req} {s : State} {off : Nat} (h : off / 16 ≠ phoBase (u8 r.params 0) / 16) :
    (phoLoaded r s).reg off = s.reg off := by
  have hbase : phoBase (u8 r.params 0) % 16 = 0 := by unfold phoBase; omega
  rw [phoLoaded, reg_setReg_ne _ _ (by omega), reg_setReg_ne _ _ (by omega), reg_setReg_ne _ _ (by omega),
    reg_setReg_ne _ _ (by omega)]

/-! ### `phase.psync`, `phase.capture` (R132, R133) -/

theorem corePhasePsync_of_off {r : Req} {s : State} (hen : u8 r.params 0 ≤ 1) (hmode : u8 r.params 1 ≤ 1)
    (hpol : u8 r.params 2 ≤ 1) (hwid : 1 ≤ u16 r.params 4) (hoff : s.flag (psyncReg (tIndex r.target)) 0 = false) :
    corePhasePsync r s = .commit [] (postWrite (if tIndex r.target < 24 then 1 else 2) (psyncReg (tIndex r.target))
      (u8 r.params 0 + u8 r.params 1 * 4 + u8 r.params 2 * 8 + u16 r.params 4 * 16) s) := by
  have hwid' : ¬ u16 r.params 4 = 0 := by omega
  have hval : u8 r.params 1 * 4 + u8 r.params 2 * 8 + u16 r.params 4 * 16 + u8 r.params 0 =
      u8 r.params 0 + u8 r.params 1 * 4 + u8 r.params 2 * 8 + u16 r.params 4 * 16 := by omega
  rw [State.flag] at hoff
  simp [corePhasePsync, Nat.not_lt.2 hen, Nat.not_lt.2 hmode, Nat.not_lt.2 hpol, hwid', hoff, hval, postDom]

theorem corePhaseCapture_of_off {r : Req} {s : State} (hm : u8 r.params 0 ≤ 7) (hen : u8 r.params 1 ≤ 1)
    (hedge : u8 r.params 2 ≤ 2) (htb : u8 r.params 3 ≤ 4) (hoff : s.flag (pcapBase (u8 r.params 0)) 0 = false) :
    corePhaseCapture r s = .commit [] (s.setReg (pcapBase (u8 r.params 0))
      (u8 r.params 1 + u8 r.params 2 * 4 + s.fld (pcapBase (u8 r.params 0)) 11 8 * 256 + u8 r.params 3 * 4096 +
        (if r.expert then u8 r.params 4 else 10) * 65536)) := by
  have hval : u8 r.params 2 * 4 + u8 r.params 3 * 4096 + r.e8 4 10 * 65536 +
      bits (s.reg (pcapBase (u8 r.params 0))) 11 8 * 256 + u8 r.params 1 =
      u8 r.params 1 + u8 r.params 2 * 4 + s.fld (pcapBase (u8 r.params 0)) 11 8 * 256 + u8 r.params 3 * 4096 +
        (if r.expert then u8 r.params 4 else 10) * 65536 := by
    unfold Req.e8 State.fld
    omega
  rw [State.flag] at hoff
  simp [corePhaseCapture, Nat.not_lt.2 hm, Nat.not_lt.2 hen, Nat.not_lt.2 hedge, Nat.not_lt.2 htb, hoff, hval]

/-! ### `phase.link` (R138) -/

/-- `PLINK_CFG` as `phase.link` writes it. -/
def linkCfg (r : Req) : Nat :=
  u16 r.params 4 + u8 r.params 1 * 65536 + b2n (bit (u8 r.params 0) 2) * 2 ^ 20 + u8 r.params 2 * 2 ^ 24

/-- The link's registers as `phase.link` loads them. -/
def linkLoaded (r : Req) (s : State) : State :=
  ((s.setReg 0x1504 (linkCfg r)).setFld 0x1500 0 0 (b2n (bit (u8 r.params 0) 0))).setFld 0x1500 2 2
    (b2n (bit (u8 r.params 0) 1))

/-- A change of the configuration while the link runs restarts it first (R288). -/
theorem corePhaseLink_of_good {r : Req} {s : State} (hfl : u8 r.params 0 ≤ 7) (hsrc : u8 r.params 1 ≤ 15)
    (hdly : u16 r.params 4 ≤ 4095) : corePhaseLink r s = .commit [] (linkLoaded r
      (if linkCfg r != s.reg 0x1504 && s.linkOn then linkRestart s else s)) := by
  simp only [corePhaseLink, Nat.not_lt.2 hfl, Nat.not_lt.2 hsrc, Nat.not_lt.2 hdly, decide_false, Bool.or_self,
    Bool.false_eq_true, if_false]
  rfl

theorem decide_b2n (b : Bool) : decide (b2n b = 1) = b := by cases b <;> rfl

theorem fld_linkLoaded {r : Req} {s : State} {hi : Nat} (lo : Nat) (h : hi < 32) :
    (linkLoaded r s).fld 0x1504 hi lo = bits (linkCfg r) hi lo := by
  rw [linkLoaded, fld_setFld_ne _ _ _ _ _ _ (by decide), fld_setFld_ne _ _ _ _ _ _ (by decide), fld_setReg _ _ _ h]

/-- The fields of `PLINK_CFG` (R140). -/
theorem bits_linkCfg {r : Req} (hsrc : u8 r.params 1 ≤ 15) (hdly : u16 r.params 4 ≤ 4095) :
    bits (linkCfg r) 11 0 = u16 r.params 4 ∧ bits (linkCfg r) 19 16 = u8 r.params 1 ∧
    bits (linkCfg r) 31 24 = u8 r.params 2 ∧ bits (linkCfg r) 20 20 = b2n (bit (u8 r.params 0) 2) := by
  have hwall := b2n_le (bit (u8 r.params 0) 2)
  have hclk := u8_lt r.params 2
  simp only [bits, linkCfg]
  omega

theorem flag_setFld_b2n (s : State) (off : Nat) {i : Nat} (h : i < 32) (b : Bool) :
    (s.setFld off i i (b2n b)).flag off i = b := by
  have hb := b2n_le b
  rw [flag_eq_fld, fld_setFld _ _ _ (le_refl i) h, Nat.add_sub_cancel_left, Nat.mod_eq_of_lt (by omega), decide_b2n]

theorem flag_linkLoaded (r : Req) (s : State) :
    (linkLoaded r s).flag 0x1500 0 = bit (u8 r.params 0) 0 ∧ (linkLoaded r s).flag 0x1500 2 = bit (u8 r.params 0) 1 := by
  constructor
  · rw [linkLoaded, flag_setFld_other _ _ _ (by decide) (by decide) (by decide), flag_setFld_b2n _ _ (by decide)]
  · exact flag_setFld_b2n _ _ (by decide) _

end Sys2Proof.Machine

namespace Sys2Proof

open Sys2Proof.Machine

/-- Settles O2. -/
theorem emptyQueuePassesOneTick : Obligations.EmptyQueuePassesOneTick := by
  unfold Obligations.EmptyQueuePassesOneTick
  intro s h
  have hstep : step s = .next (s.elapse 1) := by
    unfold step
    rw [h]
  exact ⟨hstep, elapse_tick 1 s, by simp only [elapse_fields, h], by simp only [elapse_fields],
    by simp only [elapse_fields]⟩

theorem exec_phaseSet_of_good {mb : Fin 8} {r : Req} {s : State} (h : Ready mb.val 0x0121 r s)
    (hn : u8 r.params 0 ≤ 15) (hen : u8 r.params 1 ≤ 1) (hfl : u8 r.params 3 ≤ 3) (hwid : u32 r.params 12 < 2 ^ 24)
    (hbad : phoBad (u8 r.params 2) (u32 r.params 4) (u32 r.params 8) (u32 r.params 12) (bit (u8 r.params 3) 0) = false) :
    exec (.phaseSet mb) s = .next (finish mb (.commit [] (if u8 r.params 1 = 1 then
      phoOn (u8 r.params 0) (phoLoaded r s) else phoOff (u8 r.params 0) (phoLoaded r s))) s) := by
  rw [← corePhaseSet_of_good hn hen hfl hwid hbad]
  exact h.run corePhaseSet

/-- Settles O24: a ready row runs its rule, and the rules are above. -/
theorem phaseCommandsComplete : Obligations.PhaseCommandsComplete := by
  unfold Obligations.PhaseCommandsComplete
  refine ⟨fun mb r s h hn hen hfl hwid hbad => ?set, fun mb r s h hen hmode hpol hwid hoff => ?psync,
    fun mb r s h hm hen hedge htb hoff => ?capture, fun mb r s h hfl hsrc hdly => ?link⟩
  case set =>
    obtain ⟨hpos, hper, hwidth⟩ := reg_phoLoaded r s
    exact ⟨phoLoaded r s, exec_phaseSet_of_good h hn hen hfl hwid hbad, fld_phoLoaded_tb (tb_le_of_phoBad hbad),
      hpos, hper, hwidth, fun off hoff => reg_phoLoaded_other hoff⟩
  case psync =>
    change _ = Host.Outcome.next (finish mb (.commit [] (postWrite _ (psyncReg _) _ s)) s)
    rw [← corePhasePsync_of_off hen hmode hpol hwid hoff]
    exact h.run corePhasePsync
  case capture =>
    rw [← corePhaseCapture_of_off hm hen hedge htb hoff]
    exact h.run corePhaseCapture
  case link =>
    obtain ⟨hd, hs, hc, hw⟩ := bits_linkCfg hsrc hdly
    obtain ⟨hrx, htx⟩ := flag_linkLoaded r (if linkCfg r != s.reg 0x1504 && s.linkOn then linkRestart s else s)
    refine ⟨_, ?_, (fld_linkLoaded _ (by decide)).trans hd, (fld_linkLoaded _ (by decide)).trans hs,
      (fld_linkLoaded _ (by decide)).trans hc, hrx, htx, ?_⟩
    · rw [← corePhaseLink_of_good hfl hsrc hdly]
      exact h.run corePhaseLink
    · rw [flag_eq_fld, fld_linkLoaded _ (by decide), hw, decide_b2n]

end Sys2Proof
end

section
/-!
PROOFS for the events of the angle clocks: what an edge, the first event, a later one and an index edge come to, and
the row of each event.
-/

namespace Sys2Proof.Machine

/-! ### Reference events (R106 to R112) -/

/-- R106, R115: the first accepted event, where the clock does not follow the link. -/
theorem refFirst_of_pin {k : Nat} {s : State} (h : s.angMode k ≠ 3) :
    refFirst k s = s.setAng k { s.ang k with
      angle := s.fld (angBase k + 0x10) 15 0, base := s.fld (angBase k + 0x10) 15 0, evIdx := 0, seen := 1
      owe := 0, lastEvent := s.tick, inCycle := 0, cycleAt := s.tick } := by
  simp only [refFirst, beq_iff_eq, h, if_false]

/-- A running clock whose edges are no faster than 2 MHz and whose shaft turns forwards takes up an event. -/
structure TakesEvents (k : Nat) (s : State) : Prop where
  runs : (s.ang k).st ≠ 0
  slow : (s.ang k).fast = false
  forward : (s.ang k).reverse = false

theorem refEvent_of_first {k : Nat} {s : State} (h : TakesEvents k s) (hseen : (s.ang k).seen = 0)
    (hrate : ((refFirst k s).ang k).rate = 0) : refEvent k s = refQuiet k (refFirst k s) := by
  simp [refEvent, h.runs, h.slow, h.forward, hseen, hrate]

theorem refEvent_of_later {k : Nat} {s : State} (h : TakesEvents k s) (hseen : (s.ang k).seen ≠ 0)
    (hrate : ((refUpdate k s).ang k).rate = 0 ∨ rateInRange ((refUpdate k s).ang k).rate = true) :
    refEvent k s = refQuiet k (refUpdate k s) := by
  simp [refEvent, h.runs, h.slow, h.forward, hseen, hrate]

/-- R108, R116: two accepted edges less than 500 ns apart, the first such pair. -/
theorem edgeRate_of_fast {k e : Nat} {s : State} (hat : (s.ang k).edgeAt = some e) (hnear : s.tick - e < 50)
    (hslow : (s.ang k).fast = false) :
    edgeRate k s = refLoss k (refFault k 1 (s.setAng k { s.ang k with edgeAt := some s.tick, fast := true })) := by
  simp [edgeRate, hat, hnear, hslow]

/-- R110: what an index edge leaves of its clock, whether or not it is a fault. -/
theorem ang_indexSeen (k : Nat) (s : State) :
    ((indexSeen k s).ang k).indexed = true ∧ ((indexSeen k s).ang k).firstIndex = false ∧
    ((indexSeen k s).ang k).base = s.fld (angBase k + 0x10) 15 0 ∧
    ((indexSeen k s).ang k).pherr = (s.ang k).errorTo (s.fld (angBase k + 0x10) 15 0) := by
  simp only [indexSeen, ang_setAng_same, and_self]

/-! ### The shaft's direction (R109) -/

theorem reverseOn_of_forward {k : Nat} {s : State} (h : (s.ang k).reverse = false) :
    reverseOn k s = raiseEvent (54 + k) 3 [1] (s.setAng k { s.ang k with reverse := true }) := by
  simp only [reverseOn, h, Bool.false_eq_true, if_false]

/-- A clock that has had an event, and is neither in HOLDOVER nor in FREE. -/
theorem reverseOff_of_seen {k : Nat} {s : State} (hst : (s.ang k).st = 1 ∨ (s.ang k).st = 2)
    (hseen : (s.ang k).seen ≠ 0) :
    reverseOff k s = raiseEvent (54 + k) 3 [0] (s.setAng k { s.ang k with
      reverse := false, owe := 0, firstIndex := true, base := (s.ang k).angle, evIdx := 0, lastEvent := s.tick
      inCycle := 0, cycleAt := s.tick }) := by
  have hrun : ¬ 3 ≤ (s.ang k).st := by omega
  simp only [reverseOff, beq_iff_eq, hseen, hrun, if_false]

/-! ### The rows -/

theorem exec_referenceEvent_of_glitch {k : Fin 4} {chg : PinChange} {s : State}
    (hc : s.lineChange k.val chg = .glitch) (hst : (s.ang k.val).st ≠ 0) : exec (.referenceEvent k chg) s =
      .next ((s.waitUntil (s.tick + chg.after)).incFld (angBase k.val + 0x28) 7 0) := by
  change execReferenceEvent k chg s = _
  simp [execReferenceEvent, hc, hst]

theorem exec_referenceEvent_of_level {k : Fin 4} {chg : PinChange} {s u : State}
    (hc : s.lineChange k.val chg = .level) (hu : u = s.waitUntil (s.tick + chg.after)) :
    exec (.referenceEvent k chg) s =
      .next (u.setAng k.val { u.ang k.val with lines := s.linesOf k.val chg.levels }) := by
  change execReferenceEvent k chg s = _
  simp [execReferenceEvent, hc, hu]

theorem exec_referenceEvent_of_illegal {k : Fin 4} {chg : PinChange} {s u : State}
    (hc : s.lineChange k.val chg = .illegal) (hst : (s.ang k.val).st ≠ 0)
    (hu : u = s.waitUntil (s.tick + chg.after)) :
    exec (.referenceEvent k chg) s = .next (refFault k.val 3
      ((u.setAng k.val { u.ang k.val with lines := s.linesOf k.val chg.levels }).incFld
        (angBase k.val + 0x28) 15 8)) := by
  change execReferenceEvent k chg s = _
  simp [execReferenceEvent, hc, hst, hu]

theorem exec_referenceEvent_of_event {k : Fin 4} {chg : PinChange} {s u : State}
    (hc : s.lineChange k.val chg = .event) (hst : (s.ang k.val).st ≠ 0)
    (hu : u = (track k.val chg.after s).waitUntil (s.tick + chg.after)) :
    exec (.referenceEvent k chg) s = .next (refEvent k.val (edgeRate k.val
      (u.setAng k.val { u.ang k.val with lines := s.linesOf k.val chg.levels }))) := by
  change execReferenceEvent k chg s = _
  simp [execReferenceEvent, hc, hst, hu]

theorem exec_referenceEvent_of_backward {k : Fin 4} {chg : PinChange} {s u : State}
    (hc : s.lineChange k.val chg = .backward) (hst : (s.ang k.val).st ≠ 0)
    (hu : u = s.waitUntil (s.tick + chg.after)) :
    exec (.referenceEvent k chg) s = .next (reverseOn k.val (edgeRate k.val
      (u.setAng k.val { u.ang k.val with lines := s.linesOf k.val chg.levels }))) := by
  change execReferenceEvent k chg s = _
  simp [execReferenceEvent, hc, hst, hu]

/-- A running clock in a mode with an index (R110) has capture input `m` as its index. -/
structure HasIndex (k m : Nat) (s : State) : Prop where
  runs : (s.ang k).st ≠ 0
  input : s.fld (angBase k + 4) 11 8 = m
  mode : s.angMode k = 1 ∨ s.angMode k = 2

/-- The first test of INDEX_EDGE passes. -/
theorem HasIndex.heard {k m : Nat} {s : State} (h : HasIndex k m s) :
    ((s.ang k).st == 0 || s.fld (angBase k + 4) 11 8 != m || !(s.angMode k == 1 || s.angMode k == 2)) = false := by
  have hmode : (s.angMode k == 1 || s.angMode k == 2) = true := by simpa using h.mode
  simp [h.runs, h.input, hmode]

theorem exec_indexEdge_of_glitch {k : Fin 4} {m : Fin 8} {after hold : Nat} {rising : Bool} {s u : State}
    (hu : u = s.waitUntil (s.tick + after)) (h : HasIndex k.val m.val u) (hshort : hold < u.fld (pcapBase m.val) 23 16) :
    exec (.indexEdge k m after hold rising) s = .next (u.incFld (angBase k.val + 0x28) 7 0) := by
  subst hu
  change execIndexEdge k m after hold rising s = _
  simp only [execIndexEdge, h.heard, hshort, Bool.false_eq_true, if_false, if_true]

theorem exec_indexEdge_of_held {k : Fin 4} {m : Fin 8} {after hold : Nat} {rising : Bool} {s u : State}
    (hu : u = s.waitUntil (s.tick + after)) (h : HasIndex k.val m.val u) (hheld : u.fld (pcapBase m.val) 23 16 ≤ hold)
    (hrev : (u.ang k.val).reverse = false) (hedge : u.pcapEdge m.val rising = true) :
    exec (.indexEdge k m after hold rising) s = .next (indexSeen k.val u) := by
  subst hu
  change execIndexEdge k m after hold rising s = _
  simp only [execIndexEdge, h.heard, Nat.not_lt.2 hheld, hrev, hedge, Bool.not_true, Bool.or_self, Bool.false_eq_true,
    if_false]

theorem exec_reverse_of_backward {k : Fin 4} {a : Bool} {s : State} (hst : (s.ang k.val).st ≠ 0)
    (hmode : s.angMode k.val = 2) (ha : a = s.flag (angBase k.val + 4) 7) :
    exec (.reverse k a) s = .next (reverseOn k.val s) := by
  change execReverse k a s = _
  simp [execReverse, hst, hmode, ha]

theorem exec_reverse_of_resumed {k : Fin 4} {a : Bool} {s : State} (hst : (s.ang k.val).st ≠ 0)
    (hmode : s.angMode k.val = 2) (hrev : (s.ang k.val).reverse = true) (ha : a ≠ s.flag (angBase k.val + 4) 7) :
    exec (.reverse k a) s = .next (reverseOff k.val s) := by
  change execReverse k a s = _
  simp [execReverse, hst, hmode, ha, hrev]

theorem exec_referenceLoss_of_locked {k : Fin 4} {s : State} (hst : (s.ang k.val).st = 2)
    (hrev : (s.ang k.val).reverse = false) : exec (.referenceLoss k) s =
      .next (refLoss k.val (s.waitUntil ((s.ang k.val).lastEvent + s.lossTicks k.val))) := by
  change execReferenceLoss k s = _
  simp [execReferenceLoss, hst, hrev]

theorem exec_holdLimExpiry_of_clock {tb : Fin 5} {s : State} (htb : tb.val < 4) (hst : (s.ang tb.val).st = 3) :
    exec (.holdLimExpiry tb) s = .next (angState tb.val 4
      (s.waitUntil ((s.ang tb.val).heldAt + ticksMs (100 * s.fld (angBase tb.val + 0x0C) 12 0)))) := by
  have hwall : (tb.val == 4) = false := beq_false_of_ne (by omega)
  change execHoldLimExpiry tb s = _
  simp [execHoldLimExpiry, hwall, hst]

theorem exec_cycleWrap_of_reach {k : Fin 4} {s t : State}
    (h : s.reach k.val ((s.ang k.val).cycle * 65536 + 65536) = some t) : exec (.cycleWrap k) s = .next t := by
  change execCycleWrap k s = _
  simp only [execCycleWrap, h]

/-- R125: the mark has come. -/
theorem exec_anchorPeriodic_of_due {tb : Fin 5} {s : State} (huse : tb.val = 4 ∨ s.inUse tb.val = true)
    (hdue : Tbl.getD 0 s.chicory.anchorAt tb.val ≠ s.wallUs / 30000000) :
    exec (.anchorPeriodic tb) s = .next (anchor tb.val 1 { s with
      chicory.anchorAt := Tbl.setD 0 s.chicory.anchorAt tb.val (s.wallUs / 30000000) }) := by
  have hon : (decide (tb.val < 4) && !s.inUse tb.val) = false := by
    obtain hwall | hused := huse
    · simp [hwall]
    · simp [hused]
  change execAnchorPeriodic tb s = _
  simp [execAnchorPeriodic, hon, hdue]

end Sys2Proof.Machine

namespace Sys2Proof

open Sys2Proof.Machine

/-- Settles O58, row by row. -/
theorem clockRowsComplete : Obligations.ClockRowsComplete := by
  unfold Obligations.ClockRowsComplete
  refine ⟨fun k chg s => exec_referenceEvent_of_glitch, fun k chg s u => exec_referenceEvent_of_level,
    fun k chg s u => exec_referenceEvent_of_illegal, fun k chg s u => exec_referenceEvent_of_event,
    fun k chg s u => exec_referenceEvent_of_backward,
    fun k s hst hslow hrev hseen hrate hmode => ?first,
    fun k s hst hslow hrev => refEvent_of_later ⟨hst, hslow, hrev⟩, fun k e s => edgeRate_of_fast,
    fun k m after hold rising s u hu hst hin hmode => exec_indexEdge_of_glitch hu ⟨hst, hin, hmode⟩,
    fun k m after hold rising s u hu hst hin hmode hheld hrev hedge _ =>
      ⟨_, exec_indexEdge_of_held hu ⟨hst, hin, hmode⟩ hheld hrev hedge, ang_indexSeen k.val u⟩,
    fun k a s hst hmode hrev ha => ?backward, fun k a s hst hmode hrev hseen ha => ?forward,
    fun k s => exec_referenceLoss_of_locked, fun tb s => exec_holdLimExpiry_of_clock,
    fun k t s => exec_cycleWrap_of_reach, fun tb s => exec_anchorPeriodic_of_due⟩
  case first =>
    rw [← refFirst_of_pin hmode]
    exact refEvent_of_first ⟨hst, hslow, hrev⟩ hseen (by rw [refFirst_of_pin hmode, ang_setAng_same, hrate])
  case backward =>
    rw [← reverseOn_of_forward hrev]
    exact exec_reverse_of_backward hst hmode ha
  case forward =>
    rw [← reverseOff_of_seen hst hseen]
    exact exec_reverse_of_resumed (by omega) hmode hrev ha

end Sys2Proof
end

section
/-!
PROOFS for the wall clock, the phase link, the captures, the outputs and the sync drivers: what an edge of the wall
clock's source, a pulse and a frame of the link come to, and the row of each event.
-/

namespace Sys2Proof.Machine

/-! ### The wall clock (R119, R120) -/

theorem anchor_chicory (tb f : Nat) (s : State) : (anchor tb f s).chicory = s.chicory := by
  obtain ⟨h, c, j, ch, pw, ig, e⟩ := anchor_recordSide tb f s
  rw [e]

/-- The change to LOCKED keeps the offset measured, the time, and that an edge has been seen. -/
theorem wallState_locked_wall (s : State) :
    (wallState 2 s).chicory.wall.ppserr = s.chicory.wall.ppserr ∧
    (wallState 2 s).chicory.wall.edgeSeen = s.chicory.wall.edgeSeen ∧
    (wallState 2 s).chicory.wall.ns = s.chicory.wall.ns := by
  unfold wallState
  split
  · exact ⟨rfl, rfl, rfl⟩
  · rw [anchor_chicory]
    exact ⟨rfl, rfl, rfl⟩

/-- A discipline edge that calls for no step: the clock is not in HOLDOVER or FREE, and the offset is at most 1 ms or not
the first after an enable (R120). -/
structure SteersOnly (s : State) : Prop where
  on : s.disciplined = true
  running : s.chicory.wall.st ≤ 2
  near : (s.wallOffset 0).natAbs ≤ 1000000 ∨ s.chicory.wall.edgeSeen = true

theorem SteersOnly.noStep {s : State} (h : SteersOnly s) :
    (s.chicory.wall.st == 1 && !s.chicory.wall.edgeSeen && decide (1000000 < (s.wallOffset 0).natAbs)) = false := by
  obtain hnear | hseen := h.near
  · simp [Nat.not_lt.2 hnear]
  · simp [hseen]

/-- Edges within 1 µs in a row, with the one at hand (R119). -/
def goodEdges (offset : Int) (s : State) : Nat :=
  if offset.natAbs ≤ 1000 then s.chicory.wall.goodEdges + 1 else 0

/-- The wall clock's loop takes up the offset measured at an edge (R119). -/
def wallSteered (offset : Int) (s : State) : State :=
  { s.drawn with chicory.wall := { s.chicory.wall with
    edgeSeen := true, ppserr := offset, lastEdge := s.tick, goodEdges := goodEdges offset s
    adj := steerAdj offset s } }

theorem wallSteered_wall (offset : Int) (s : State) :
    (wallSteered offset s).chicory.wall.ppserr = offset ∧ (wallSteered offset s).chicory.wall.edgeSeen = true ∧
    (wallSteered offset s).chicory.wall.ns = s.chicory.wall.ns := ⟨rfl, rfl, rfl⟩

theorem wallEdge_of_steersOnly {s : State} (h : SteersOnly s) : wallEdge 0 s =
    if 4 ≤ goodEdges (s.wallOffset 0) s then wallState 2 (wallSteered (s.wallOffset 0) s)
    else wallSteered (s.wallOffset 0) s := by
  have hrun : ¬ 3 ≤ s.chicory.wall.st := Nat.not_le.2 (Nat.lt_succ_of_le h.running)
  simp only [wallEdge, h.on, hrun, h.noStep, Bool.not_true, Bool.false_eq_true, if_false]
  rfl

/-- R119: the clock takes the offset and keeps the time. -/
theorem wallEdge_wall {s : State} (h : SteersOnly s) :
    (wallEdge 0 s).chicory.wall.ppserr = s.wallOffset 0 ∧ (wallEdge 0 s).chicory.wall.edgeSeen = true ∧
    (wallEdge 0 s).chicory.wall.ns = s.chicory.wall.ns := by
  obtain ⟨herr, hseen, hns⟩ := wallSteered_wall (s.wallOffset 0) s
  rw [wallEdge_of_steersOnly h]
  split
  · obtain ⟨herr', hseen', hns'⟩ := wallState_locked_wall (wallSteered (s.wallOffset 0) s)
    exact ⟨herr'.trans herr, hseen'.trans hseen, hns'.trans hns⟩
  · exact ⟨herr, hseen, hns⟩

theorem exec_wallDisciplineEdge_of_selected {after : Nat} {rising : Bool} {s u : State}
    (hu : u = s.waitUntil (s.tick + after)) (hsrc : u.fld 0x1104 1 0 = 1) (hedge : rising ≠ u.flag 0x1104 2) :
    exec (.wallDisciplineEdge after rising) s = .next (wallEdge 0 (timeSetFirst u)) := by
  subst hu
  change execWallDisciplineEdge after rising s = _
  simp [execWallDisciplineEdge, hsrc, hedge]

theorem exec_wallHoldover_of_running {s : State} (h : s.chicory.wall.st = 1 ∨ s.chicory.wall.st = 2) :
    exec .wallHoldover s = .next (wallState 3 (s.waitUntil (s.chicory.wall.lastEdge + ticksMs 1500))) := by
  have hrun : (s.chicory.wall.st == 1 || s.chicory.wall.st == 2) = true := by simpa using h
  change execWallHoldover s = _
  simp only [execWallHoldover, hrun, if_true]

/-! ### Pulses of the phase link (R135 to R137) -/

theorem nearWidth_iff {w c : Nat} : nearWidth w c = true ↔ c ≤ w + 40 ∧ w ≤ c + 40 := by
  simp [nearWidth]

/-- The widths of the four cycle marks are 20 ns apart at least, so that a width is that of one slot at most. -/
theorem markSlot_of_cycle {w : Nat} (i : Fin 4) (h1 : 360 + 100 * i.val ≤ w) (h2 : w ≤ 440 + 100 * i.val) :
    markSlot w = some i.val := by
  unfold markSlot
  rw [List.find?_range_eq_some]
  refine ⟨nearWidth_iff.2 (by omega), List.mem_range.2 i.isLt, fun j hj => ?_⟩
  rw [Bool.not_eq_true', ← Bool.not_eq_true, nearWidth_iff]
  omega

theorem markSlot_of_second {w : Nat} (h : 960 ≤ w) : markSlot w = none := by
  unfold markSlot
  rw [List.find?_eq_none]
  intro i hi
  rw [List.mem_range] at hi
  rw [nearWidth_iff]
  omega

theorem track_tick (k n : Nat) (s : State) : (track k n s).tick = s.tick := by
  unfold track
  dsimp only
  split
  · simp only [setAng_fields]
  · rfl

theorem foldl_track_tick (n : Nat) (l : List Nat) (s : State) :
    (l.foldl (fun s k => track k n s) s).tick = s.tick := by
  induction l generalizing s with
  | nil => rfl
  | cons k l ih => rw [List.foldl_cons, ih, track_tick]

theorem linkPulse_of_cycle {x : LinkPulse} {i : Nat} {s u : State} (hslot : markSlot x.width = some i)
    (hu : u = ((s.linkClocks i).foldl (fun s k => track k x.after s) s).waitUntil (s.tick + x.after))
    (hon : u.linkOn = true) : linkPulse s x = linkCycleMark i u := by
  subst hu
  simp only [linkPulse, hslot, foldl_track_tick, hon, Bool.not_true, Bool.false_eq_true, if_false]

theorem linkPulse_of_second {x : LinkPulse} {s u : State} (h1 : 960 ≤ x.width) (h2 : x.width ≤ 1040)
    (hu : u = s.waitUntil (s.tick + x.after)) (hon : u.linkOn = true) :
    linkPulse s x = linkSecondMark (timeSetFirst u) := by
  have hnear : nearWidth x.width 1000 = true := nearWidth_iff.2 (by omega)
  subst hu
  simp [linkPulse, markSlot_of_second h1, hon, hnear]

theorem linkPulse_of_error {x : LinkPulse} {s u : State} (hslot : markSlot x.width = none)
    (hsec : nearWidth x.width 1000 = false) (hzero : nearWidth x.width 100 = false)
    (hone : nearWidth x.width 200 = false) (hu : u = s.waitUntil (s.tick + x.after)) (hon : u.linkOn = true) :
    linkPulse s x = { frameError u with chicory.plink.rxBits := [], chicory.plink.rxSkip := true } := by
  subst hu
  simp [linkPulse, hslot, hon, hsec, hzero, hone]

/-! ### Frames of the phase link (R136) -/

theorem eight_le_frameBits {ty n : Nat} (h : frameBits ty = some n) : 8 ≤ n := by
  unfold frameBits at h
  split at h
  · cases h
    decide
  · split at h
    · cases h
      decide
    · cases h

theorem linkBit_of_last {b : Bool} {n : Nat} {s : State} (hskip : s.chicory.plink.rxSkip = false)
    (htype : frameBits (u8 (bitsToBytes 1 (s.chicory.plink.rxBits ++ [b])) 0) = some n)
    (hlast : s.chicory.plink.rxBits.length + 1 = n) :
    linkBit b s = linkFrameIn (bitsToBytes (n / 8) (s.chicory.plink.rxBits ++ [b]))
      { s with chicory.plink.rxBits := [], chicory.plink.rxSkip := false } := by
  have hlen : (s.chicory.plink.rxBits ++ [b]).length = n := by simpa using hlast
  have hmany : ¬ n < 8 := Nat.not_lt.2 (eight_le_frameBits htype)
  simp only [linkBit, hskip, hlen, hmany, htype, Nat.lt_irrefl, Bool.false_eq_true, if_false]

theorem linkFrameIn_of_bad {f : List Byte} (h : crc8 f.dropLast ≠ (f.getLastD 0).toNat) (s : State) :
    linkFrameIn f s = linkFrameBad (u8 f 0) s := by
  simp only [linkFrameIn, bne_iff_ne, ne_eq, h, not_false_eq_true, if_true]

theorem linkFrameIn_slot {f : List Byte} {i : Nat} (hcrc : crc8 f.dropLast = (f.getLastD 0).toNat)
    (hty : u8 f 0 = 16 + i) (s : State) :
    linkFrameIn f s = { s with
      chicory.plink.counts :=
        Tbl.setD none s.chicory.plink.counts i (some (rdBe (slice f.dropLast 1 6), u8 f.dropLast 7)) } := by
  have hwall : (16 + i == 1) = false := beq_false_of_ne (by omega)
  simp only [linkFrameIn, hcrc, hty, hwall, bne_self_eq_false, Bool.false_eq_true, if_false, Nat.add_sub_cancel_left]

theorem linkFrameIn_wall {f : List Byte} (hcrc : crc8 f.dropLast = (f.getLastD 0).toNat) (hty : u8 f 0 = 1)
    (s : State) : linkFrameIn f s = linkWallFrame (rdBe (slice f.dropLast 1 8)) s := by
  simp only [linkFrameIn, hcrc, hty, bne_self_eq_false, Bool.false_eq_true, if_false, beq_self_eq_true, if_true]

theorem exec_linkMark (x : LinkPulse) (s : State) : exec (.linkMark x) s = .next (linkPulse s x) := rfl

theorem exec_linkTransmit_of_enabled {s : State} (h : s.flag 0x1500 2 = true) :
    exec .linkTransmit s = .next { s with
      chicory.plink.sent := linkFrames s, chicory.plink.cells := linkCells s.foreseen s.tick (linkFrames s) } := by
  change execLinkTransmit s = _
  simp only [execLinkTransmit, h, if_true]

/-! ### Captures (R133) -/

theorem capture_of_room {m : Nat} {s : State} (h : (s.pcap m).queue.length < 16) :
    capture m s = s.setPcap m { s.pcap m with
      lastWall := s.chicory.wall.ns
      lastAng := s.angStamp (s.fld (pcapBase m) 14 12)
      queue := (s.pcap m).queue ++ [(s.chicory.wall.ns, s.angStamp (s.fld (pcapBase m) 14 12),
        s.holdover (s.fld (pcapBase m) 14 12))] } := by
  simp only [capture, h, if_true]

/-- An input that captures one polarity takes no edge of the other. -/
theorem pcapEdge_of_other {m : Nat} {rise : Bool} {s : State} (h : s.fld (pcapBase m) 3 2 = b2n rise) :
    s.pcapEdge m rise = false := by
  cases rise <;> simp [State.pcapEdge, h, b2n]

theorem exec_captureEdge_of_taken {m : Fin 8} {after hold : Nat} {rise : Bool} {s u : State}
    (hu : u = s.waitUntil (s.tick + after)) (hon : u.flag (pcapBase m.val) 0 = true)
    (hheld : u.fld (pcapBase m.val) 23 16 ≤ hold) (hedge : u.pcapEdge m.val rise = true) :
    exec (.captureEdge m after hold rise) s = .next (capture m.val u) := by
  subst hu
  change execCaptureEdge m after hold rise s = _
  simp [execCaptureEdge, hon, Nat.not_lt.2 hheld, hedge]

theorem exec_captureEdge_of_glitch {m : Fin 8} {after hold : Nat} {rise : Bool} {s u : State}
    (hu : u = s.waitUntil (s.tick + after)) (hon : u.flag (pcapBase m.val) 0 = true)
    (hshort : hold < u.fld (pcapBase m.val) 23 16) :
    exec (.captureEdge m after hold rise) s = .next (pcapGlitch m.val u) := by
  subst hu
  change execCaptureEdge m after hold rise s = _
  simp [execCaptureEdge, hon, hshort]

theorem exec_captureEdge_of_off {m : Fin 8} {after hold : Nat} {rise : Bool} {s u : State}
    (hu : u = s.waitUntil (s.tick + after)) (hoff : u.flag (pcapBase m.val) 0 = false) :
    exec (.captureEdge m after hold rise) s = .next u := by
  subst hu
  change execCaptureEdge m after hold rise s = _
  simp [execCaptureEdge, hoff]

theorem exec_captureEdge_of_other {m : Fin 8} {after hold : Nat} {rise : Bool} {s u : State}
    (hu : u = s.waitUntil (s.tick + after)) (hheld : u.fld (pcapBase m.val) 23 16 ≤ hold)
    (hedge : u.fld (pcapBase m.val) 3 2 = b2n rise) :
    exec (.captureEdge m after hold rise) s = .next u := by
  subst hu
  change execCaptureEdge m after hold rise s = _
  simp [execCaptureEdge, Nat.not_lt.2 hheld, pcapEdge_of_other hedge]

/-! ### Outputs and sync drivers (R128 to R132) -/

theorem exec_phaseOutputTarget_of_end {n : Fin 16} {e c : Nat} {s t : State} (hsafe : s.warden.safe = false)
    (hend : (s.pho n.val).endPos = some e) (hreach : s.reachTick (s.phoSpec n.val).tb e = some c)
    (ht : t = s.waitUntil (s.phoEdge n.val c)) : exec (.phaseOutputTarget n) s =
      .next (t.setPho n.val { t.pho n.val with active := false, endPos := none }) := by
  subst ht
  change execPhaseOutputTarget n s = _
  simp only [execPhaseOutputTarget, hsafe, hend, hreach, Bool.false_eq_true, if_false]

theorem exec_phaseOutputTarget_of_due {n : Fin 16} {c : Nat} {s : State} (hsafe : s.warden.safe = false)
    (hend : (s.pho n.val).endPos = none) (hon : s.flag (phoBase n.val) 0 = true)
    (hreach : s.reachTick (s.phoSpec n.val).tb (s.pho n.val).next = some c) :
    exec (.phaseOutputTarget n) s = .next (phoFire n.val (s.waitUntil (s.phoEdge n.val c))) := by
  change execPhaseOutputTarget n s = _
  simp only [execPhaseOutputTarget, hsafe, hend, hon, hreach, Bool.false_eq_true, if_false, if_true]

theorem exec_phaseOutputTarget_of_safe {s : State} (n : Fin 16) (h : s.warden.safe = true) :
    exec (.phaseOutputTarget n) s = .next s := by
  change execPhaseOutputTarget n s = _
  simp only [execPhaseOutputTarget, h, if_true]

theorem exec_psyncTarget_of_due {p : Port} {c : Nat} {s : State} (hon : (s.syncPat p.val).on = true)
    (hreach : s.reachTick (s.syncPat p.val).sched.tb (s.syncPat p.val).next = some c) :
    exec (.psyncTarget p) s = .next (psyncFire p.val (s.waitUntil (c + 4))) := by
  change execPsyncTarget p s = _
  simp only [execPsyncTarget, hon, hreach, if_true]

end Sys2Proof.Machine

namespace Sys2Proof

open Sys2Proof.Machine

/-- Settles O59, row by row. -/
theorem wallLinkAndPinRowsComplete : Obligations.WallLinkAndPinRowsComplete := by
  unfold Obligations.WallLinkAndPinRowsComplete
  refine ⟨fun after rising s u => exec_wallDisciplineEdge_of_selected,
    fun s hon hrun hnear => wallEdge_wall ⟨hon, hrun, hnear⟩, fun s => exec_wallHoldover_of_running,
    fun s => rfl, fun x i s u h1 h2 hu hon => ?cycle, fun x s u h1 h2 hu hon => ?second,
    fun x s u hslot hsec hzero hone hu hon => ?error, fun l s => rfl, fun b n s => linkBit_of_last,
    fun f s h => linkFrameIn_of_bad h s, fun f i s hcrc hty => linkFrameIn_slot hcrc hty s,
    fun f s hcrc hty => linkFrameIn_wall hcrc hty s, fun s => exec_linkTransmit_of_enabled,
    fun m after hold rise s u hu hon hheld hedge hroom => ?taken,
    fun m after hold rise s u => exec_captureEdge_of_glitch, fun m after hold rise s u hu hnone => ?none,
    fun n e c s t => exec_phaseOutputTarget_of_end, fun n c s => exec_phaseOutputTarget_of_due,
    fun n s => exec_phaseOutputTarget_of_safe n, fun p c s => exec_psyncTarget_of_due⟩
  case cycle => rw [exec_linkMark, linkPulse_of_cycle (markSlot_of_cycle i h1 h2) hu hon]
  case second => rw [exec_linkMark, linkPulse_of_second h1 h2 hu hon]
  case error => rw [exec_linkMark, linkPulse_of_error hslot hsec hzero hone hu hon]
  case taken => rw [exec_captureEdge_of_taken hu hon hheld hedge, capture_of_room hroom]
  case none =>
    obtain hoff | ⟨hheld, hedge⟩ := hnone
    · exact exec_captureEdge_of_off hu hoff
    · exact exec_captureEdge_of_other hu hheld hedge

end Sys2Proof
end

section
/-!
SUPPORT AND PROOF for a change of a port's state (R141, R171): it is an event, raised where the rest is done and the
command interface is still as it was.
-/

namespace Sys2Proof.Machine

theorem overClear_cci (p : Nat) (s : State) : (overClear p s).cci = s.cci := by
  unfold overClear
  dsimp only
  split <;> rfl

theorem overClear_flag (p : Nat) (s : State) (o i : Nat) : (overClear p s).flag o i = s.flag o i := by
  unfold overClear
  dsimp only
  split <;> rfl

theorem setPortState_of_same (p cause : Nat) (s : State) : setPortState p (s.port p).usb.st cause s = s := by
  simp [setPortState]

/-- A change is posted as event code 1 of the port, with the old and the new state, the cause after them. -/
theorem setPortState_of_change {p st : Nat} (cause : Nat) {s : State} (h : st ≠ (s.port p).usb.st) :
    ∃ c t, setPortState p st cause s = raiseEvent p 1 [byte (s.port p).usb.st, byte st, byte c] t ∧
      t.cci = s.cci ∧ ∀ o i, t.flag o i = s.flag o i := by
  simp only [setPortState, beq_iff_eq, h.symm, if_false]
  refine ⟨_, _, rfl, ?cci, fun o i => ?flag⟩
  case cci =>
    split
    · exact overClear_cci p _
    · rfl
  case flag =>
    split
    · exact overClear_flag p _ o i
    · rfl

theorem setPortState_eseq {p st : Nat} (cause : Nat) {s : State} (h : st ≠ (s.port p).usb.st) :
    (setPortState p st cause s).cci.eseq = (s.cci.eseq + 1) % 65536 := by
  obtain ⟨c, t, e, hcci, _⟩ := setPortState_of_change cause h
  rw [e, (raiseEvent_cci _ _ _ t).1, hcci]

theorem setPortState_evq {p st : Nat} (cause : Nat) {s : State} (hp : p < 128) (h : st ≠ (s.port p).usb.st)
    (hon : s.flag 0x220 0 = true) (hroom : s.cci.evq.length < 256) :
    ∃ c, ∃ t : State, (setPortState p st cause s).cci.evq =
      s.cci.evq ++ [t.eventRec p 1 [byte (s.port p).usb.st, byte st, byte c]] := by
  obtain ⟨c, t, e, hcci, hflag⟩ := setPortState_of_change cause h
  refine ⟨c, t, ?_⟩
  rw [e, raiseEvent_of_room 1 _ hp ((hflag _ _).trans hon) (by rwa [hcci]), ← hcci]
  rfl

end Sys2Proof.Machine

namespace Sys2Proof

open Sys2Proof.Machine

/-- Settles O19: a change is the event of `setPortState_of_change`, and the lemmas of Laws/Ports say what stays. -/
theorem portStateChange : Obligations.PortStateChange := by
  unfold Obligations.PortStateChange
  refine ⟨fun p st cause s h => ?change, fun p st cause s hp h hon hroom => ?event, setPortState_of_same⟩
  case change =>
    obtain ⟨hpw, hpd⟩ := setPortState_pw p st cause s
    exact ⟨setPortState_st p st cause s, hpw, hpd, fun q hq => setPortState_port_ne p st cause s hq,
      setPortState_eseq cause h⟩
  case event =>
    obtain ⟨c, t, hq⟩ := setPortState_evq cause (by omega) h hon hroom
    exact ⟨_, hq, rfl, rfl, rfl⟩

end Sys2Proof
end

section
/-!
PROOFS for the `port.*` commands: what each decides, and each row by its rule (`Ready.run`).
-/

namespace Sys2Proof

open Sys2Proof.Machine

/-- A ready command answers what its row's rule decides. -/
theorem Ready.run_eq {mb op : Nat} {r : Req} {s : State} {core : Req → State → CmdRes} {a : CmdRes}
    (h : Ready mb op r s) (ha : core r s = a) : runOp mb op core s = .next (finish mb a s) := by
  rw [h.run, ha]

end Sys2Proof

namespace Sys2Proof.Machine

variable {r : Req} {s : State}

/-! ### `port.mode` (R150) -/

/-- The lock of a port's mode. -/
def State.modeLocked (s : State) (p : Nat) : Bool :=
  if p < 32 then bit s.hrs.portLo.toNat p else bit s.hrs.portHi.toNat (p - 32)

theorem corePortMode_of_same (hop : u8 r.params 0 ≤ 1)
    (h : (u8 r.params 0 == 1) = (s.port (tIndex r.target)).usb.transparent) : corePortMode r s = .commit [] s := by
  simp [corePortMode, h, Nat.not_lt.2 hop]

theorem corePortMode_to_concentrated (hop : u8 r.params 0 = 0)
    (hmode : (s.port (tIndex r.target)).usb.transparent = true) (hlock : s.modeLocked (tIndex r.target) = false) :
    corePortMode r s = .commit [] (switchMode (tIndex r.target) false s) := by
  unfold State.modeLocked at hlock
  simp [corePortMode, hop, hmode, hlock]

theorem corePortMode_to_transparent (hop : u8 r.params 0 = 1)
    (hmode : (s.port (tIndex r.target)).usb.transparent = false) (hlock : s.modeLocked (tIndex r.target) = false)
    (husb : s.usbHost = true) (hsafety : s.safetyPort (tIndex r.target) = false)
    (hslots : s.portSlots (tIndex r.target) = []) (hchild : s.childBehind (tIndex r.target) = false) :
    corePortMode r s =
      if (s.onWire (tIndex r.target)).isSome then .commitWait (.portMode (tIndex r.target)) s
      else .commit [] (switchMode (tIndex r.target) true s) := by
  unfold State.modeLocked at hlock
  simp [corePortMode, hop, hmode, hlock, husb, hsafety, hslots, hchild]

/-! ### `port.reset`, `port.suspend` and `port.resume` (R162, R163, R289) -/

theorem corePortReset_of_attached (hmode : (s.port (tIndex r.target)).usb.transparent = false)
    (hst : 7 ≤ (s.port (tIndex r.target)).usb.st) :
    corePortReset r s = .commitWait (.portReset (tIndex r.target))
      ((s.portSlots (tIndex r.target)).foldl (fun s k => ctrlEnd k 1 s) (startReset (tIndex r.target) 3 s)) := by
  simp [corePortReset, hmode, Nat.not_lt.2 hst]

theorem corePortSuspend_of_enabled (hmode : (s.port (tIndex r.target)).usb.transparent = false)
    (hst : (s.port (tIndex r.target)).usb.st = 8)
    (hidle : (s.portSlots (tIndex r.target)).any (fun k => (s.chan k).st == 1) = false) :
    corePortSuspend r s =
      if (s.onWire (tIndex r.target)).isSome then .commitWait (.portSuspend (tIndex r.target)) s
      else .commit [] (setPortState (tIndex r.target) 9 0 s) := by
  simp only [corePortSuspend, hmode, hst, hidle, bne_self_eq_false, Bool.or_self, Bool.false_eq_true, if_false]

theorem corePortResume_of_concentrated (hmode : (s.port (tIndex r.target)).usb.transparent = false) :
    corePortResume r s =
      if (s.port (tIndex r.target)).usb.st = 9 then
        .commitWait (.portResume (tIndex r.target)) (startResume (tIndex r.target) s)
      else .commit [1] s := by
  simp only [corePortResume, hmode, bne_iff_ne, ite_not, Bool.false_eq_true, if_false]

/-! ### `port.status` and `port.cfg` (R165, R289) -/

/-- R289: the state, speed, mode and cause `port.status` begins with. -/
theorem corePortStatus_eq (r : Req) (s : State) : ∃ rest,
    corePortStatus r s = .query ([byte (s.port (tIndex r.target)).usb.st, byte (s.port (tIndex r.target)).usb.speed,
      byte (b2n (s.port (tIndex r.target)).usb.transparent), byte (s.port (tIndex r.target)).usb.cause] ++ rest) :=
  ⟨_, congrArg CmdRes.query (by rw [List.append_assoc])⟩

theorem corePortCfg_of_basic (hsp : u8 r.params 0 ≤ 1) (h : r.expert = false) :
    corePortCfg r s =
      .commit [] (s.setReg (portBase (tIndex r.target) + 4) (u8 r.params 0 + 50 * 256 + 20 * 65536)) := by
  simp [corePortCfg, h, Nat.not_lt.2 hsp]

theorem corePortCfg_of_expert (hsp : u8 r.params 0 ≤ 1) (h : r.expert = true) (hdb : 10 ≤ u8 r.params 1)
    (hdb' : u8 r.params 1 ≤ 200) (hrl : 10 ≤ u8 r.params 2) (hrl' : u8 r.params 2 ≤ 20) :
    corePortCfg r s = .commit [] (s.setReg (portBase (tIndex r.target) + 4)
      (u8 r.params 0 + u8 r.params 1 * 256 + u8 r.params 2 * 65536)) := by
  simp [corePortCfg, h, Nat.not_lt.2 hsp, Nat.not_lt.2 hdb, Nat.not_lt.2 hdb', Nat.not_lt.2 hrl, Nat.not_lt.2 hrl']

end Sys2Proof.Machine

namespace Sys2Proof

open Sys2Proof.Machine

/-- Settles O25: a ready row runs its rule, and the rules are above. -/
theorem portCommandsComplete : Obligations.PortCommandsComplete := by
  unfold Obligations.PortCommandsComplete
  refine ⟨fun mb r s h hop hsame => h.run_eq (corePortMode_of_same hop hsame),
    fun mb r s h hop hmode hlock => h.run_eq (corePortMode_to_concentrated hop hmode hlock),
    fun mb r s h hop hmode hlock husb hsafety hslots hchild =>
      h.run_eq (corePortMode_to_transparent hop hmode hlock husb hsafety hslots hchild),
    fun mb r s h hmode hst => h.run_eq (corePortReset_of_attached hmode hst),
    fun mb r s h hmode hst hidle => h.run_eq (corePortSuspend_of_enabled hmode hst hidle),
    fun mb r s h hmode => h.run_eq (corePortResume_of_concentrated hmode),
    fun mb r s h => ?status,
    fun mb r s h hsp hexp => h.run_eq (corePortCfg_of_basic hsp hexp),
    fun mb r s h hsp hexp hdb hdb' hrl hrl' => h.run_eq (corePortCfg_of_expert hsp hexp hdb hdb' hrl hrl')⟩
  case status =>
    obtain ⟨rest, hcore⟩ := corePortStatus_eq r s
    exact ⟨_, h.run_eq hcore, slice_append rfl⟩

end Sys2Proof
end

section
/-!
PROOFS for the requests to the hub function: what each does to the port it names, and on the embedded port.
-/

namespace Sys2Proof.Machine

variable {h : HubPort} {s : State} {p : Nat}

/-- The test that opens a request fails where the request names another port than the embedded one (R155). -/
theorem toEmbedded_of_ne (hne : h.val ≠ s.embeddedPort) : (h.val == s.embeddedPort && s.usbHost) = false := by
  simp [hne]

/-- It passes for the embedded port of a hub that has a USB host. -/
theorem toEmbedded_of_eq (he : h.val = s.embeddedPort) (husb : s.usbHost = true) :
    (h.val == s.embeddedPort && s.usbHost) = true := by
  simp [he, husb]

/-! ### A transparent port (R143, R146, R160, R162, R163) -/

theorem exec_setPortFeaturePortReset_of_attached (hp : s.hubPortOf h.val = some p) (hne : h.val ≠ s.embeddedPort)
    (hst : 7 ≤ (s.port p).usb.st) : exec (.setPortFeaturePortReset h) s = .next (startReset p 2 s) := by
  change execSetPortFeaturePortReset h s = _
  simp only [execSetPortFeaturePortReset, toEmbedded_of_ne hne, hp, hst, Bool.false_eq_true, if_false, if_true]

theorem exec_setPortFeaturePortSuspend_of_enabled (hp : s.hubPortOf h.val = some p) (hne : h.val ≠ s.embeddedPort)
    (hst : (s.port p).usb.st = 8) : exec (.setPortFeaturePortSuspend h) s = .next
      ((setPortState p 9 0 (wireDrop p s)).modUsb p fun u => { u with selSusp := true }) := by
  change execSetPortFeaturePortSuspend h s = _
  simp only [execSetPortFeaturePortSuspend, toEmbedded_of_ne hne, hp, hst, beq_self_eq_true, Bool.false_eq_true,
    if_false, if_true]

theorem exec_clearPortFeaturePortSuspend_of_suspended (hp : s.hubPortOf h.val = some p)
    (hne : h.val ≠ s.embeddedPort) (hst : (s.port p).usb.st = 9) :
    exec (.clearPortFeaturePortSuspend h) s = .next (startResume p s) := by
  change execClearPortFeaturePortSuspend h s = _
  simp only [execClearPortFeaturePortSuspend, toEmbedded_of_ne hne, hp, hst, beq_self_eq_true, Bool.false_eq_true,
    if_false, if_true]

theorem exec_clearPortFeaturePortEnable_of_enabled (hp : s.hubPortOf h.val = some p)
    (hst : (s.port p).usb.st = 8 ∨ (s.port p).usb.st = 9) :
    exec (.clearPortFeaturePortEnable h) s = .next
      ((setPortState p 7 0 s).modUsb p fun u => { u with resuming := 0, remoteWake := false, selSusp := false }) := by
  have hon : ((s.port p).usb.st == 8 || (s.port p).usb.st == 9) = true := by simpa using hst
  change execClearPortFeaturePortEnable h s = _
  simp only [execClearPortFeaturePortEnable, hp, hon, if_true]

theorem exec_setPortFeaturePortIndicator_of_port (sel : Fin 4) (hp : s.hubPortOf h.val = some p) :
    exec (.setPortFeaturePortIndicator h sel) s = .next (s.modUsb p fun u => { u with indicator := sel.val }) := by
  change execSetPortFeaturePortIndicator h sel s = _
  simp only [execSetPortFeaturePortIndicator, hp]

theorem exec_setPortFeaturePortTest_of_port (sel : Fin 6) (hp : s.hubPortOf h.val = some p) :
    exec (.setPortFeaturePortTest h sel) s = .next (s.modUsb p fun u => { u with testSel := sel.val }) := by
  change execSetPortFeaturePortTest h sel s = _
  simp only [execSetPortFeaturePortTest, hp]

/-! ### The hub itself, and the embedded port (R155, R158) -/

theorem exec_hubSetConfiguration_off (husb : s.usbHost = true) :
    exec (.hubSetConfiguration false) s = .next { s with hub.configured := false } := by
  change execHubSetConfiguration false s = _
  simp only [execHubSetConfiguration, husb, Bool.not_true, Bool.false_eq_true, if_false]

theorem exec_setPortFeaturePortReset_of_embedded (he : h.val = s.embeddedPort) (husb : s.usbHost = true) :
    exec (.setPortFeaturePortReset h) s = .next (embeddedReset s) := by
  change execSetPortFeaturePortReset h s = _
  simp only [execSetPortFeaturePortReset, toEmbedded_of_eq he husb, if_true]

theorem exec_setPortFeaturePortSuspend_of_embedded (he : h.val = s.embeddedPort) (husb : s.usbHost = true) :
    exec (.setPortFeaturePortSuspend h) s = .next { s with hub.casideSuspended := true } := by
  change execSetPortFeaturePortSuspend h s = _
  simp only [execSetPortFeaturePortSuspend, toEmbedded_of_eq he husb, if_true]

theorem exec_clearPortFeaturePortSuspend_of_embedded (he : h.val = s.embeddedPort) (husb : s.usbHost = true) :
    exec (.clearPortFeaturePortSuspend h) s = .next { s with hub.casideSuspended := false } := by
  change execClearPortFeaturePortSuspend h s = _
  simp only [execClearPortFeaturePortSuspend, toEmbedded_of_eq he husb, if_true]

end Sys2Proof.Machine

namespace Sys2Proof

open Sys2Proof.Machine

/-- Settles O26, row by row. The operands of ALTERNATE_SETTING_CHANGE are the model's choice (log 27). -/
theorem hubRequestsComplete : Obligations.HubRequestsComplete := by
  unfold Obligations.HubRequestsComplete
  exact ⟨fun h s p => exec_setPortFeaturePortReset_of_attached, fun h s p => exec_setPortFeaturePortSuspend_of_enabled,
    fun h s p => exec_clearPortFeaturePortSuspend_of_suspended, fun h s p => exec_clearPortFeaturePortEnable_of_enabled,
    fun h sel s p => exec_setPortFeaturePortIndicator_of_port sel,
    fun h sel s p => exec_setPortFeaturePortTest_of_port sel, fun alt busy s => rfl,
    fun s => exec_hubSetConfiguration_off, fun h s he husb =>
      ⟨exec_setPortFeaturePortReset_of_embedded he husb, exec_setPortFeaturePortSuspend_of_embedded he husb,
        exec_clearPortFeaturePortSuspend_of_embedded he husb⟩⟩

end Sys2Proof
end

section
/-!
PROOFS for connection, reset, suspend, surges and babble on a port: what the end of a reset or a resume leaves of the
port, and the row of each event.
-/

namespace Sys2Proof.Machine

variable {p : Port} {s : State}

/-! ### Connection and reset (R142 to R144) -/

/-- The line a device pulls up, as the port holds it (R142). -/
def pullCode : Pull → Nat
  | .dp => 1
  | .dm => 2

theorem exec_connectSensed_of_powered (pull : Pull) (hst : (s.port p.val).usb.st = 6)
    (hpd : (s.port p.val).pd.done = true) (hrun : (s.port p.val).usb.running = true)
    (hmode : (s.port p.val).usb.transparent = false) :
    exec (.connectSensed p pull) s = .next
      (let t := connectWake p.val (s.modUsb p.val fun u => { u with pull := pullCode pull })
       t.modUsb p.val fun u => { u with debounce := some t.tick }) := by
  change execConnectSensed p pull s = _
  simp only [execConnectSensed, hst, hpd, hrun, hmode, bne_self_eq_false, Bool.not_true, Bool.or_self,
    Bool.false_eq_true, if_false]
  cases pull <;> rfl

theorem exec_connectDebounceEnd_of_stable {t : Nat} (hdb : (s.port p.val).usb.debounce = some t)
    (hmode : (s.port p.val).usb.transparent = false) (hup : s.groupUp (p.val / 8) = true) :
    exec (.connectDebounceEnd p) s = .next
      (startReset p.val 1 (s.waitUntil (t + ticksMs (s.fld (portBase p.val + 4) 15 8)))) := by
  change execConnectDebounceEnd p s = _
  simp only [execConnectDebounceEnd, hdb, hmode, hup, Bool.not_true, Bool.or_self, Bool.false_eq_true, if_false]

/-- The port at the end of its reset: the speed is settled. -/
def resetSettled (p : Nat) (chirp : Chirp) (s : State) : State :=
  s.modUsb p fun u => { u with
    resetting := none, speed := resetSpeed p chirp s, enumerated := false, sofAt := s.tick }

/-- R144: the device chirped, and the port did not come to high speed. -/
def chirpFailed (p : Nat) (s : State) : State :=
  raiseEvent p 5 [] (((s.setFlag (portBase p) 12).incFld (portBase p + 12) 31 24).modUsb p fun u =>
    { u with totChirp := satInc u.totChirp 255 })

theorem chirpFailed_usb (p : Nat) (s : State) :
    ((chirpFailed p s).port p).usb.resetting = (s.port p).usb.resetting ∧
    ((chirpFailed p s).port p).usb.speed = (s.port p).usb.speed := by
  simp [chirpFailed]

/-- The end of a reset enables the port and completes the command that asked for it; a chirp left unswitched can have
failed. -/
theorem exec_resetEnd_of_resetting {w : Nat} (chirp : Chirp) {u : State}
    (hu : u = s.waitUntil ((s.port p.val).usb.resetAt + ticksMs (s.fld (portBase p.val + 4) 20 16)))
    (hw : (s.port p.val).usb.resetting = some w) : ∃ v,
    (v = resetSettled p.val chirp u ∨ chirp = .unswitched ∧ v = chirpFailed p.val (resetSettled p.val chirp u)) ∧
    exec (.resetEnd p chirp) s = .next (completeWhere (fun w => w == .portReset p.val) .ok
      [byte (resetSpeed p.val chirp u)] (hubChange p.val 16 (setPortState p.val 8 0 v))) := by
  subst hu
  change ∃ v, _ ∧ execResetEnd p chirp s = _
  simp only [execResetEnd, hw]
  refine ⟨_, ?_, rfl⟩
  split
  case isTrue h => exact .inr ⟨by simpa using (Bool.and_eq_true_iff.1 h).2, rfl⟩
  case isFalse => exact .inl rfl

/-- Whatever the chirp, the reset is over and the speed settled. -/
theorem resetSettled_usb {chirp : Chirp} {u v : State} {p : Nat}
    (hv : v = resetSettled p chirp u ∨ chirp = .unswitched ∧ v = chirpFailed p (resetSettled p chirp u)) :
    (v.port p).usb.resetting = none ∧ (v.port p).usb.speed = resetSpeed p chirp u := by
  have hset : ((resetSettled p chirp u).port p).usb.resetting = none ∧
      ((resetSettled p chirp u).port p).usb.speed = resetSpeed p chirp u := by
    simp [resetSettled]
  obtain rfl | ⟨_, rfl⟩ := hv
  · exact hset
  · rwa [(chirpFailed_usb p _).1, (chirpFailed_usb p _).2]

/-! ### Disconnection (R148, R181) -/

theorem exec_usbDisconnect_pullUp (hpull : (s.port p.val).usb.pull ≠ 0) (hcc : (s.port p.val).usb.ccAtt = true)
    (hst : 7 ≤ (s.port p.val).usb.st) :
    exec (.usbDisconnect p .pullUp) s = .next (setPortState p.val 6 0 (portGone p.val 1
      (((usbEnd p.val 1 s).incFld (portBase p.val + 12) 23 16).modUsb p.val fun u => { u with
        pull := 0, totDisc := satInc u.totDisc 255, selSusp := false }))) := by
  change execUsbDisconnect p .pullUp s = _
  simp only [execUsbDisconnect, beq_iff_eq, hpull, hcc, Nat.not_lt.2 hst, Bool.not_true, Bool.or_false, if_false]

theorem exec_usbDisconnect_hubPort {hub1 : Nat} (hub2 : Nat) (oc : Bool) (hst : (s.port p.val).usb.st = 8)
    (hmode : (s.port p.val).usb.transparent = false) (henum : (s.port p.val).usb.enumerated = true)
    (hup : s.groupUp (p.val / 8) = true) (hhub : hub1 ≠ 0) :
    exec (.usbDisconnect p (.hubPort hub1 hub2 oc)) s = .next (hubPortLost p.val hub1 hub2 s) := by
  have hne : (hub1 == 0) = false := beq_false_of_ne hhub
  change execUsbDisconnect p (.hubPort hub1 hub2 oc) s = _
  simp only [execUsbDisconnect, hmode, hst, henum, hne, hup, bne_self_eq_false, Bool.not_true, Bool.or_self,
    Bool.false_eq_true, if_false]

/-! ### Suspend and resume (R161, R163 to R165) -/

theorem exec_remoteWake_of_suspended (hst : (s.port p.val).usb.st = 9)
    (hmode : (s.port p.val).usb.transparent = false) : exec (.remoteWake p) s = .next
      ((startResume p.val (connectWake p.val s)).modUsb p.val fun u => { u with remoteWake := true }) := by
  change execRemoteWake p s = _
  simp only [execRemoteWake, hst, hmode, bne_self_eq_false, Bool.false_and, Bool.false_eq_true, if_false]

/-- The end of a resume enables the port; a concentrated one has the device's recovery before it. -/
theorem exec_resumeEnd_of_resuming (h : (s.port p.val).usb.resuming = 1) :
    ∃ t, exec (.resumeEnd p) s = .next t ∧ (t.port p.val).usb.st = 8 ∧
      (t.port p.val).usb.resuming = (if (s.port p.val).usb.transparent then 0 else 2) := by
  change ∃ t, execResumeEnd p s = _ ∧ _
  simp only [execResumeEnd, h, bne_self_eq_false, Bool.false_eq_true, if_false]
  refine ⟨_, rfl, ?_⟩
  split
  case isTrue hmode => simp [hmode]
  case isFalse hmode => split <;> simp [hmode]

theorem exec_resumeRecoveryEnd_of_recovering (h : (s.port p.val).usb.resuming = 2) :
    exec (.resumeRecoveryEnd p) s = .next (completeWhere (fun w => w == .portResume p.val) .ok [0]
      (activateHeld p.val
        ((s.waitUntil ((s.port p.val).usb.resetAt + ticksMs 10)).modUsb p.val fun u => { u with resuming := 0 }))) := by
  change execResumeRecoveryEnd p s = _
  simp only [execResumeRecoveryEnd, h, bne_self_eq_false, Bool.false_eq_true, if_false]

/-! ### Surges and babble (R168 to R170) -/

/-- A port that recovers from a surge: the recovery counts. -/
def surgeCounted (p : Nat) (s : State) : State :=
  ((noteRecovery p s).incFld (portBase p + 12) 15 8).modUsb p fun u =>
    { u with totSurgeResets := satInc u.totSurgeResets 255 }

theorem exec_surgeRecovery_of_enabled {t : Nat} {v : State} (hat : (s.port p.val).usb.surgeAt = some t)
    (hst : (s.port p.val).usb.st = 8) (hmode : (s.port p.val).usb.transparent = false)
    (hv : v = (s.waitUntil (t + ticksMs 1)).modUsb p.val fun u => { u with surgeAt := none })
    (hroom : recoveryFull p.val v = false) :
    exec (.surgeRecovery p) s = .next (startReset p.val 4
      (((surgeCounted p.val v).portSlots p.val).foldl (fun s k => ctrlEnd k 1 s) (surgeCounted p.val v))) := by
  subst hv
  change execSurgeRecovery p s = _
  simp only [execSurgeRecovery, hat, hst, hmode, hroom, beq_self_eq_true, Bool.true_or, Bool.false_eq_true, if_true,
    if_false]
  rfl

/-- R170: what babble comes to in any mode. -/
def babbled (p : Nat) (s : State) : State :=
  setPortState p 10 4 (raiseEvent p 6 [] ((wireDrop p s).setFlag (portBase p) 13))

theorem exec_babble_of_first (hst : (s.port p.val).usb.st = 8) (hmode : (s.port p.val).usb.transparent = false)
    (hfirst : (s.port p.val).usb.babbleReset = none) :
    exec (.babble p) s = .next ((babbled p.val s).modUsb p.val fun u =>
      { u with babbleAt := some (babbled p.val s).tick, babbleReset := none }) := by
  change execBabble p s = _
  simp only [execBabble, hst, hmode, hfirst, bne_self_eq_false, Bool.false_eq_true, if_false]
  rfl

theorem exec_babble_of_second {t : Nat} (hst : (s.port p.val).usb.st = 8)
    (hmode : (s.port p.val).usb.transparent = false) (hfirst : (s.port p.val).usb.babbleReset = some t)
    (hsoon : (babbled p.val s).tick - t < ticksS 1) :
    exec (.babble p) s = .next (portGone p.val 4 ((babbled p.val s).modUsb p.val fun u =>
      { u with babbleReset := none, babbleAt := none })) := by
  unfold babbled at hsoon
  change execBabble p s = _
  simp only [execBabble, hst, hmode, hfirst, hsoon, decide_true, bne_self_eq_false, Bool.false_eq_true, if_false,
    if_true]
  rfl

/-- R170: the hub's own reset of a port that babbled, whose control transfers end. -/
def babbleRestarted (p : Nat) (s : State) : State :=
  startReset p 5 ((s.portSlots p).foldl (fun s k => ctrlEnd k 1 s) s)

theorem exec_babbleReset_of_first {t : Nat} {u : State} (hat : (s.port p.val).usb.babbleAt = some t)
    (hst : (s.port p.val).usb.st = 10) (hmode : (s.port p.val).usb.transparent = false)
    (hu : u = s.waitUntil (t + ticksMs 100)) :
    exec (.babbleReset p) s = .next ((babbleRestarted p.val u).modUsb p.val fun x =>
      { x with babbleAt := none, babbleReset := some (babbleRestarted p.val u).tick }) := by
  subst hu
  change execBabbleReset p s = _
  simp only [execBabbleReset, hat, hst, hmode, bne_self_eq_false, Bool.or_self, Bool.false_eq_true, if_false]
  rfl

end Sys2Proof.Machine

namespace Sys2Proof

open Sys2Proof.Machine

/-- Settles O27, row by row. That UPSTREAM_RESUME resumes at once, and the operands of GLOBAL_SUSPEND, are the model's
choice (log 27). -/
theorem portConnectionRowsComplete : Obligations.PortConnectionRowsComplete := by
  unfold Obligations.PortConnectionRowsComplete
  refine ⟨fun p pull s hst hpd hrun hmode => ?sensed, fun p t s => exec_connectDebounceEnd_of_stable,
    fun p chirp s w hw hchirp => ?reset, fun p chirp s w hw => ?settled, fun p s => exec_usbDisconnect_pullUp,
    fun p hub1 hub2 oc s => exec_usbDisconnect_hubPort hub2 oc, fun p s => exec_remoteWake_of_suspended,
    fun p s => exec_resumeEnd_of_resuming, fun p s => exec_resumeRecoveryEnd_of_recovering,
    fun rwake caside s husb hrun => ?suspend, fun s hsusp => ?resume,
    fun p t s hat hst hmode => exec_surgeRecovery_of_enabled hat hst hmode rfl, fun p s => exec_babble_of_first,
    fun p t s => exec_babble_of_second, fun p t s hat hst hmode => exec_babbleReset_of_first hat hst hmode rfl⟩
  case sensed =>
    rw [exec_connectSensed_of_powered pull hst hpd hrun hmode]
    cases pull <;> rfl
  case reset =>
    obtain ⟨v, rfl | ⟨hun, _⟩, hexec⟩ := exec_resetEnd_of_resetting chirp rfl hw
    · exact hexec
    · exact absurd hun hchirp
  case settled =>
    obtain ⟨v, hv, hexec⟩ := exec_resetEnd_of_resetting chirp rfl hw
    obtain ⟨hreset, hspeed⟩ := resetSettled_usb hv
    exact ⟨_, hexec, by simp, by simpa using hreset, by simpa using hspeed⟩
  case suspend =>
    change execGlobalSuspend rwake caside s = _
    simp only [execGlobalSuspend, husb, hrun, Bool.not_true, Bool.or_self, Bool.false_eq_true, if_false]
  case resume =>
    change execUpstreamResume s = _
    simp only [execUpstreamResume, hsusp, Bool.not_true, Bool.false_eq_true, if_false]

end Sys2Proof
end

section
/-!
PROOFS for the upstream link and the journal: the commands by their rules, and the row of each event.
-/

namespace Sys2Proof.Machine

variable {r : Req} {s : State}

/-! ### `link.*` (R300) -/

/-- R300: the kind and speed of the link and its budget. -/
theorem coreLinkStatus_eq (r : Req) (s : State) : ∃ kind rest,
    coreLinkStatus r s = .query ([byte kind] ++ [byte s.hub.upSpeed] ++ ([0, 0] ++ le 4 s.upBudget ++ rest)) :=
  ⟨_, _, congrArg CmdRes.query (by simp only [List.append_assoc]; rfl)⟩

theorem coreLinkBudget_of_fits (h : u32 r.params 0 ≤ s.budgetDefault) :
    coreLinkBudget r s =
      if u32 r.params 0 * 1000 < s.loadOf (s.chanSet.map (·.2)) then .refuse .noResource []
      else .commit [] { s with sched.budget := some (u32 r.params 0) } := by
  simp only [coreLinkBudget, Nat.not_lt.2 h, if_false]

theorem coreLinkDetach_of_usb (hmin : 10 ≤ u16 r.params 0) (hmax : u16 r.params 0 ≤ 1000)
    (husb : s.straps.hostsel = false) :
    coreLinkDetach r s = .commit [] { upstreamCut true s with
      hub.detachedUntil := some ((upstreamCut true s).tick + ticksMs (u16 r.params 0)) } := by
  simp only [coreLinkDetach, Nat.not_lt.2 hmin, Nat.not_lt.2 hmax, husb, decide_false, Bool.or_self,
    Bool.false_eq_true, if_false]

/-! ### The upstream link (R157, R158) -/

theorem exec_upstreamReset_of_up (detach : Bool) (husb : s.usbHost = true) (hup : s.boot.up = true) :
    exec (.upstreamReset detach) s = .next (upstreamCut detach s) := by
  change execUpstreamReset detach s = _
  simp only [execUpstreamReset, husb, hup, Bool.not_true, Bool.or_self, Bool.false_eq_true, if_false]

/-- The speed of the link, and its over-current mode, once it attaches. -/
def linkAttached (hs : Bool) (s : State) : State :=
  sampleOc { s with hub.upSpeed := if hs then 3 else 2, hub.detachedUntil := none }

theorem exec_upstreamAttach_of_detached (hs : Bool) (husb : s.usbHost = true) (hup : s.boot.up = true)
    (hoff : s.hub.upSpeed = 0) (hnow : s.hub.detachedUntil = none) :
    exec (.upstreamAttach hs) s =
      .next (fitBudget (s.chanSet.length + s.relayedHandles.length) (linkAttached hs s)) := by
  change execUpstreamAttach hs s = _
  simp only [execUpstreamAttach, husb, hup, hoff, hnow, bne_self_eq_false, Bool.not_true, Bool.or_self,
    Bool.false_eq_true, if_false]
  rfl

/-! ### The journal (R268 to R273) -/

theorem exec_journalLevel_of_change (h : s.journal.levelNow ≠ s.journal.level) :
    exec .journalLevel s = .next (changeLevel s.journal.levelNow s) := by
  change execJournalLevel s = _
  simp only [execJournalLevel, beq_iff_eq, h, if_false]

theorem exec_checkpoint_of_up (hup : s.mgmtUp = true) (hopen : s.journal.sealed = false) :
    exec .checkpoint s = .next (checkpointNow
      (if 1000 ≤ s.journal.logged then s else s.waitUntil (s.journal.checkpointAt + ticksS 1))) := by
  change execCheckpoint s = _
  simp only [execCheckpoint, hup, hopen, Bool.not_true, Bool.or_self, Bool.false_eq_true, if_false]
  split <;> rfl

/-- A hub with no channel open has no target to pass. -/
theorem sealNow_of_no_channel (hopen : s.journal.sealed = false) (hslots : s.openSlots = []) :
    sealNow s =
      { s with journal.sealed := true, keeper.sealCseq := s.cci.cseqHi, keeper.sealValid := true } := by
  unfold State.openSlots at hslots
  simp only [sealNow, hopen, State.openSlots, hslots, List.foldl_nil, Bool.false_eq_true, if_false]

theorem exec_unseal_of_sealed (hsealed : s.journal.sealed = true) (hsafe : s.warden.safe = false)
    (hreset : s.boot.resetReq = none) :
    exec .unseal s = .next (s.openSlots.foldl (fun s n => settlePassed n s)
      { s with journal.sealed := false, keeper.sealValid := false }) := by
  change execUnseal s = _
  simp only [execUnseal, hsealed, hsafe, hreset, Option.isSome_none, Bool.not_true, Bool.or_self, Bool.false_eq_true,
    if_false]
  rfl

end Sys2Proof.Machine

namespace Sys2Proof

open Sys2Proof.Machine

/-- Settles O40: the `link.*` commands by their rules, the other rows one by one. That `link.detach` cuts at its
commit, and that the safe state ignores an unseal, are the model's choice (log 36). -/
theorem linkAndJournalRowsComplete : Obligations.LinkAndJournalRowsComplete := by
  unfold Obligations.LinkAndJournalRowsComplete
  refine ⟨fun mb r s h => ?status, fun mb r s h hmax => h.run_eq (coreLinkBudget_of_fits hmax),
    fun mb r s h hmin hmax husb => h.run_eq (coreLinkDetach_of_usb hmin hmax husb),
    fun d s => exec_upstreamReset_of_up d, fun hs s husb hup hoff hnow hchans hrelayed => ?attach,
    fun s => exec_journalLevel_of_change, fun s => exec_checkpoint_of_up, fun s hopen hslots => ?sealed,
    fun s => exec_unseal_of_sealed⟩
  case status =>
    obtain ⟨kind, rest, hcore⟩ := coreLinkStatus_eq r s
    refine ⟨_, h.run_eq hcore, slice_append_append rfl rfl, ?_⟩
    rw [← List.append_assoc, ← List.append_assoc]
    exact slice_append_append rfl (length_le 4 _)
  case attach =>
    rw [exec_upstreamAttach_of_detached hs husb hup hoff hnow, hchans, hrelayed]
    rfl
  case sealed =>
    rw [← sealNow_of_no_channel hopen hslots]
    rfl

end Sys2Proof
end

section
/-!
PROOFS for the `chan.*` commands that open, close, pause and resume: what each decides, and each row by its rule
(`Ready.run`).
-/

namespace Sys2Proof.Machine

variable {r : Req} {s : State} {n : Nat}

/-! ### `chan.open` (R186 to R191) -/

/-- Admission gives a channel its bounds and leaves its kind. -/
theorem admitted_periodic (others : List Chan) (c : Chan) : (admitted others c).periodic = c.periodic := by
  unfold admitted
  split <;> rfl

theorem coreChanOpen_of_admitted {c : Chan} {t : State} (hparse : openParse s r.target r.params = .ok c)
    (hadmit : admitBoth s none c = 0) (hper : c.periodic = true)
    (hopen : openCommit (admitted (s.chanSet.map (·.2)) c) s = some (n, t)) :
    coreChanOpen r s = .commit (le 4 (t.handle n) ++ le 4 (admitted (s.chanSet.map (·.2)) c).lateBound ++
      le 4 (admitted (s.chanSet.map (·.2)) c).pool ++ zeros 4) t := by
  unfold coreChanOpen
  simp only [hparse, hadmit, admitted_periodic, hper, hopen, bne_self_eq_false, Bool.false_eq_true, if_false, if_true]

theorem coreChanOpen_of_not_admitted {c : Chan} (hparse : openParse s r.target r.params = .ok c)
    (hadmit : admitBoth s none c ≠ 0) :
    coreChanOpen r s = .refuse .noResource (zeros 15 ++ [byte (admitBoth s none c)]) := by
  unfold coreChanOpen
  simp only [hparse, bne_iff_ne.2 hadmit, if_true]

/-! ### `chan.close` (R200 to R202) -/

theorem coreChanClose_plain (hfl : u8 r.params 0 = 0) (hslot : s.slotOf r.target = some n) (hn : n ≠ 0) :
    coreChanClose r s = .commit (le 4 0) (if (s.chan n).st = 4 then s else closeNow n s) := by
  by_cases hst : (s.chan n).st = 4 <;> simp [coreChanClose, hfl, hslot, hn, hst]

/-- What `chan.close` with `ABORT` leaves of a channel before its records go (R201): nothing of it waits any more. -/
def abortedChan (n : Nat) (s : State) : State :=
  (ctrlEnd n 4 (s.setChan n { s.chan n with closing := false, pausing := false })).modChan n
    fun c => { c with st := 4, due := [], built := [] }

theorem coreChanClose_abort (hfl : u8 r.params 0 = 1) (hslot : s.slotOf r.target = some n) (hn : n ≠ 0)
    (hwire : s.slotOnWire n = false) :
    coreChanClose r s = .commit (le 4 (discardRecords n (abortedChan n s)).1)
      (closeSlot n (discardRecords n (abortedChan n s)).2) := by
  simp [coreChanClose, abortedChan, hfl, hslot, hn, hwire]

/-! ### `chan.pause` and `chan.resume` (R192, R199) -/

theorem coreChanPause_of_active (hslot : s.slotOf r.target = some n) (hn : n ≠ 0) (hst : (s.chan n).st = 1) :
    coreChanPause r s =
      if s.slotOnWire n then .commitWait (.paused [n] []) (s.setChan n { s.chan n with pausing := true, due := [] })
      else .commit [] (s.setChan n { s.chan n with st := 2, due := [] }) := by
  simp [coreChanPause, hslot, hn, hst]

theorem coreChanResume_of_paused (ok : Bool) (hslot : s.slotOf r.target = some n) (hn : n ≠ 0)
    (hst : (s.chan n).st = 2) (hgrp : s.groupStopped (s.chan n).grp = false) :
    coreChanResume ok r s = .commit [] (settlePauses (goOn n s)) := by
  simp [coreChanResume, hslot, hn, hst, hgrp]

theorem coreChanResume_of_stalled (ok : Bool) (hslot : s.slotOf r.target = some n) (hn : n ≠ 0)
    (hst : (s.chan n).st = 3) (hcause : (s.chan n).cause = 2) (hgrp : s.groupStopped (s.chan n).grp = false) :
    coreChanResume ok r s =
      if ok then .commit [] (goOn n (s.setChan n { s.chan n with toggle := false }))
      else .refuse .wrongState [] := by
  cases ok <;> simp [coreChanResume, hslot, hn, hst, hcause, hgrp]

/-! ### `chan.stop_group` and `chan.start_group` (R199) -/

/-- A group none of whose channels is served stops at once. -/
theorem coreChanStopGroup_of_idle (hrun : (s.group (tIndex r.target)).stopped = false)
    (hidle : (s.chanSet.filter fun e => e.2.grp == tIndex r.target && e.2.st ≤ 1) = []) :
    coreChanStopGroup r s = .commit (le 2 0) (groupEvent (tIndex r.target) 8 [1]
      (s.setGroup (tIndex r.target) { s.group (tIndex r.target) with stopped := true })) := by
  simp only [coreChanStopGroup, hrun, hidle, List.map_nil, List.filter_nil, List.foldl_nil, List.isEmpty_nil,
    List.length_nil, Bool.false_eq_true, if_false, if_true]

/-- The slots `chan.start_group` lets go on: those the stop has paused, or is about to. -/
def stoppedSlots (s : State) (g : Nat) : List Nat :=
  (s.chanSet.filter fun e => e.2.grp == g && e.2.byStop &&
    (e.2.st == 2 || (e.2.st ≤ 1 && e.2.pausing))).map (·.1)

theorem coreChanStartGroup_of_stopped (hstop : (s.group (tIndex r.target)).stopped = true) :
    coreChanStartGroup r s = .commit (le 2 (stoppedSlots s (tIndex r.target)).length)
      (groupEvent (tIndex r.target) 8 [0] (settlePauses ((stoppedSlots s (tIndex r.target)).foldl
        (fun s n => goOn n s)
        (s.setGroup (tIndex r.target) { s.group (tIndex r.target) with stopped := false })))) := by
  simp only [coreChanStartGroup, stoppedSlots, hstop, Bool.not_true, Bool.false_eq_true, if_false]

end Sys2Proof.Machine

namespace Sys2Proof

open Sys2Proof.Machine

/-- Settles O34: a ready row runs its rule, and the rules are above. -/
theorem channelLifeCommandsComplete : Obligations.ChannelLifeCommandsComplete := by
  unfold Obligations.ChannelLifeCommandsComplete
  exact ⟨fun mb r c n t s h hparse hadmit hper hopen => h.run_eq (coreChanOpen_of_admitted hparse hadmit hper hopen),
    fun mb r c s h hparse hadmit => h.run_eq (coreChanOpen_of_not_admitted hparse hadmit),
    fun mb r n s h hfl hslot hn => h.run_eq (coreChanClose_plain hfl hslot hn),
    fun mb r n s h hfl hslot hn hwire => h.run_eq (coreChanClose_abort hfl hslot hn hwire),
    fun mb r n s h hslot hn hst => h.run_eq (coreChanPause_of_active hslot hn hst),
    fun mb ok r n s h hslot hn hst hgrp => h.run_eq (coreChanResume_of_paused ok hslot hn hst hgrp),
    fun mb ok r n s h hslot hn hst hcause hgrp => h.run_eq (coreChanResume_of_stalled ok hslot hn hst hcause hgrp),
    fun mb r s h hrun hidle => h.run_eq (coreChanStopGroup_of_idle hrun hidle),
    fun mb r s h hstop => h.run_eq (coreChanStartGroup_of_stopped hstop)⟩

end Sys2Proof
end

section
/-!
PROOFS for the `chan.*` commands that carry data: what each decides, and each row by its rule (`Ready.run`).
-/

namespace Sys2Proof.Machine

variable {r : Req} {s : State} {n : Nat}

/-! ### `chan.ctrl` and `chan.write` (R195, R203, R291) -/

theorem coreChanCtrl_of_params (hdata : r.hasData = false) (hlen : r.params.length ≤ 232)
    (hw : u16 r.params 6 ≤ 2048) (hslot : s.slotOf r.target = some n) (hkind : (s.chan n).kind = 3)
    (hst : (s.chan n).st = 1) (hfree : (s.chan n).ctrl = none) :
    coreChanCtrl r s = .commitWait (.ctrl n) (s.setChan n { s.chan n with
      ctrl := some { setup := r.params.take 8, out := r.params.drop 8
                     deadline := s.tick + ticksMs (50 * (s.chan n).ctrlTmo) } }) := by
  have hout : ¬ 2048 < (r.params.drop 8).length := by rw [List.length_drop]; omega
  simp only [coreChanCtrl, hdata, hout, Nat.not_lt.2 hw, hslot, hkind, hst, hfree, Option.isSome_none,
    bne_self_eq_false, decide_false, Bool.false_and, Bool.or_self, Bool.false_eq_true, if_false]

/-- R291: the value of a periodic OUT channel that no earlier write waits on. -/
theorem coreChanWrite_of_value (hdata : r.hasData = false) (hlen : u16 r.params 0 = (r.params.drop 8).length)
    (hfl : u8 r.params 2 ≤ 1) (hslot : s.slotOf r.target = some n) (hkind : (s.chan n).kind = 2)
    (hring : (s.chan n).ringed = false) (hpay : (r.params.drop 8).length ≤ (s.chan n).payload)
    (hst : (s.chan n).st ≠ 4) (hfree : (s.chan n).unsent = none) :
    coreChanWrite r s = .commit (le 4 0) (storeMem n 0 0 (r.params.drop 8).length
      (s.setChan n { s.chan n with outVal := r.params.drop 8, unsent := some (r.params.drop 8, false) })) := by
  simp only [coreChanWrite, hdata, hlen, Nat.not_lt.2 hfl, hslot, hkind, hring, Nat.not_lt.2 hpay, beq_iff_eq, hst,
    hfree, bne_self_eq_false, beq_self_eq_true, Option.isSome_none, decide_false, Bool.true_or, Bool.not_true,
    Bool.and_false, Bool.false_and, Bool.or_self, Bool.false_eq_true, if_false, if_true]

/-! ### Queries (R197, R198, R291) -/

theorem coreChanInfo_of_whole (hpar : r.params = []) (hslot : s.slotOf r.target = some n)
    (hst : (s.chan n).st ≠ 4) : ∃ rest, rest.length = 52 ∧
    coreChanInfo r s = .query ([byte (s.chan n).kind, byte (s.chan n).st,
      byte (if (s.chan n).st = 3 then (s.chan n).cause else 0), byte (s.chan n).deliver] ++
      le 2 (s.chan n).nextSeq ++ le 2 (s.chan n).oldest ++ rest) := by
  refine ⟨le 4 (s.chan n).lateBound ++ le 4 (s.chan n).blockTime ++ le 4 (s.chan n).nCommitted ++
    le 4 (s.chan n).nChange ++ le 4 (s.chan n).nSkipped ++ le 4 (s.chan n).nLate ++
    ((List.range 6).map fun k => le 4 (Tbl.getD 0 (s.chan n).nMissed k)).flatten ++ le 4 (s.chan n).nError, ?_, ?_⟩
  · simp [length_le, List.range_succ]
  · simp [coreChanInfo, hpar, hslot, hst]

theorem coreChanLatest_of_open (hslot : s.slotOf r.target = some n) (hto : (s.chan n).toLatest = true)
    (hst : (s.chan n).st ≠ 4) :
    coreChanLatest r s = .query (match (s.chan n).latest with
      | none => zeros 16
      | some x => x.header ++ slice x.data (u16 r.params 0) 224) := by
  cases hl : (s.chan n).latest <;> simp [coreChanLatest, hslot, hto, hst, hl]

theorem coreChanHistory_of_empty (hslot : s.slotOf r.target = some n) (hto : (s.chan n).toHistory = true)
    (hst : (s.chan n).st ≠ 4) (hhist : (s.chan n).history = []) : coreChanHistory r s = .query [] := by
  simp [coreChanHistory, hslot, hto, hst, hhist, historyFrom]

/-- A history whose oldest record has the number asked for is read from there. -/
theorem historyFrom_head {x : Rec} {l : List Rec} {first : Nat} (h : x.seq = first) :
    historyFrom first (x :: l) = x :: l := by
  simp [historyFrom, h]

theorem coreChanHistory_of_oldest {x : Rec} {l : List Rec} (hslot : s.slotOf r.target = some n)
    (hto : (s.chan n).toHistory = true) (hst : (s.chan n).st ≠ 4) (hhist : (s.chan n).history = x :: l)
    (hseq : x.seq = u16 r.params 0) (hlen : x.data.length ≤ 224) :
    coreChanHistory r s = .query (wholeRecords 240 (x :: l)) := by
  simp [coreChanHistory, hslot, hto, hst, hhist, historyFrom_head hseq, Nat.not_lt.2 hlen]

/-! ### `chan.ack` and `chan.rewind` (R263 to R266) -/

/-- One range, of a channel that stands here, all of whose numbers are delivered. -/
theorem coreChanAck_of_range (hcount : u8 r.params 0 = 1) (hlen : r.params.length = 16)
    (hchip : tChip (u32 r.params 8) = tChip r.target)
    (hspan : (u16 r.params 14 + 65536 - u16 r.params 12) % 65536 ≤ 32766)
    (hslot : s.slotOf (u32 r.params 8) = some n)
    (hdel : (rangeSeqs (ackRange r.params 0)).any (fun q => (s.chan n).notYet q) = false) :
    coreChanAck r s =
      (let t := ackSeqs n ((rangeSeqs (ackRange r.params 0)).filter fun q => (s.chan n).acksNow q) s
       .commit ([byte 1, 0xFF] ++ (zeros 2 ++ le 4 t.journal.free)) t) := by
  have hrange : ackRange r.params 0 = (u32 r.params 8, u16 r.params 12, u16 r.params 14) := rfl
  have hspan' : ¬ 32766 < (u16 r.params 14 + 65536 - u16 r.params 12) % 65536 := Nat.not_lt.2 hspan
  rw [hrange] at hdel ⊢
  simp [coreChanAck, hcount, hlen, hrange, hchip, hspan', hslot, hdel, List.findIdx?_cons]

theorem coreChanRewind_of_stream (hslot : s.slotOf r.target = some n) (hstream : (s.chan n).stream = true)
    (hst : (s.chan n).st ≠ 4) :
    coreChanRewind r s = .commit (le 2 (match (rewind n s).1 with
        | x :: _ => x.seq
        | [] => (s.chan n).nextSeq) ++ le 2 (rewind n s).1.length) (rewind n s).2 := by
  simp only [coreChanRewind, hslot, hstream, beq_iff_eq, hst, Bool.not_true, Bool.false_eq_true, if_false] <;> rfl

end Sys2Proof.Machine

namespace Sys2Proof

open Sys2Proof.Machine

/-- Settles O35: a ready row runs its rule, and the rules are above. -/
theorem channelDataCommandsComplete : Obligations.ChannelDataCommandsComplete := by
  unfold Obligations.ChannelDataCommandsComplete
  refine ⟨fun mb r n s h hdata hlen hw hslot hkind hst hfree =>
      h.run_eq (coreChanCtrl_of_params hdata hlen hw hslot hkind hst hfree),
    fun mb r n s h hdata hlen hfl hslot hkind hring hpay hst hfree =>
      h.run_eq (coreChanWrite_of_value hdata hlen hfl hslot hkind hring hpay hst hfree),
    fun mb r n s h hpar hslot hst => ?info,
    fun mb r n s h hslot hto hst => h.run_eq (coreChanLatest_of_open hslot hto hst),
    fun mb r n s h hslot hto hst hhist => h.run_eq (coreChanHistory_of_empty hslot hto hst hhist),
    fun mb r n x l s h hslot hto hst hhist hseq hlen =>
      h.run_eq (coreChanHistory_of_oldest hslot hto hst hhist hseq hlen),
    fun mb r n s h hcount hlen hchip hspan hslot _ hdel =>
      h.run_eq (coreChanAck_of_range hcount hlen hchip hspan hslot hdel),
    fun mb r n s h hslot hstream hst => h.run_eq (coreChanRewind_of_stream hslot hstream hst)⟩
  case info =>
    obtain ⟨rest, hrest, hcore⟩ := coreChanInfo_of_whole hpar hslot hst
    exact ⟨_, h.run_eq hcore, slice_append (by simp [length_le]), by simp [length_le, hrest]⟩

end Sys2Proof
end

section
/-!
PROOFS for targets, tokens, transactions and the commit of their records: the row of each.
-/

namespace Sys2Proof.Machine

variable {s : State}

/-! ### Targets (R214, R217, R220) -/

theorem exec_targetDue_of_reach {slot : Fin 4096} {t : State}
    (hserves : (applyFirst slot.val s).tansyServes slot.val = true)
    (hreach : (applyFirst slot.val s).reach ((applyFirst slot.val s).chan slot.val).sched.tb
      ((applyFirst slot.val s).chan slot.val).next = some t) :
    exec (.targetDue slot) s = .next (atTarget slot.val t) := by
  change execTargetDue slot s = _
  simp only [execTargetDue, hserves, hreach, Bool.not_true, Bool.false_eq_true, if_false]

theorem exec_lateMiss_of_due {slot : Fin 4096} {d : Due} (hdue : (s.chan slot.val).due.find? (·.hard) = some d) :
    exec (.lateMiss slot) s = .next (missLate slot.val d (s.waitUntil (d.lateAt + 1))) := by
  change execLateMiss slot s = _
  simp only [execLateMiss, hdue]

theorem exec_bestEffortReplaced_of_reach {slot : Fin 4096} {t : State} (hserves : s.tansyServes slot.val = true)
    (hsoft : (s.chan slot.val).due.all (·.hard) = false)
    (hreach : s.reach (s.chan slot.val).sched.tb (s.chan slot.val).next = some t) :
    exec (.bestEffortReplaced slot) s = .next (atTarget slot.val t) := by
  change execBestEffortReplaced slot s = _
  simp only [execBestEffortReplaced, hserves, hsoft, hreach, Bool.not_true, Bool.or_self, Bool.false_eq_true, if_false]

/-! ### Tokens (R218, R219) -/

section
variable {p n : Nat} {d : Due}

/-- A due target that can still be issued is not missed. -/
theorem missExpired_of_waiting (hdue : (s.chan n).due = [d]) (hlive : d.expired s.tick = false) :
    missExpired n s = s := by
  simp [missExpired, hdue, hlive]

/-- The one due target of a port's one channel is of its own class alone. -/
theorem dueOn_of_single (hslots : s.portSlots p = [n]) (hdue : (s.chan n).due = [d]) (hard : Bool) :
    s.dueOn p hard = if d.hard = hard then [(n, d)] else [] := by
  by_cases h : d.hard = hard <;> simp [State.dueOn, hslots, hdue, h]

/-- With room in the journal and in the double buffer the token goes out. -/
theorem issueDue_of_room (hlevel : s.journal.level = 0) (hhalf : (s.chan n).noHalf = false) :
    issueDue p n d s = (dropDue n d s).setWire p
      (some { slot := n, angle := s.angStamp (s.chan n).sched.tb, time32 := s.time32
              holdover := s.holdover (s.chan n).sched.tb, stamp := d.target }) := by
  have hl : (dropDue n d s).journal.level = 0 := hlevel
  simp only [issueDue, hl, hhalf, Nat.reduceBEq, Bool.and_false, Bool.false_eq_true, if_false]
  rfl

end

theorem exec_tokenIssue_of_single {p : Port} {n : Nat} {d : Due} (hbus : s.busFree p.val = true)
    (hslots : s.portSlots p.val = [n]) (hdue : (s.chan n).due = [d]) (hlive : d.expired s.tick = false)
    (hsof : (d.hard || s.beforeSof p.val (s.chan n).txTime) = true) :
    exec (.tokenIssue p) s = .next (issueDue p.val n d s) := by
  change execTokenIssue p s = _
  simp only [execTokenIssue, hbus, hslots, List.foldl_cons, List.foldl_nil, missExpired_of_waiting hdue hlive,
    dueOn_of_single hslots hdue]
  cases hhard : d.hard
  case true => simp [earliest]
  case false =>
    rw [hhard, Bool.false_or] at hsof
    simp [earliest, hsof]

/-! ### Frames and transactions (R193, R204, R219) -/

theorem exec_sof_of_enabled {p : Port} (hmode : (s.port p.val).usb.transparent = false)
    (hst : (s.port p.val).usb.st = 8) (hgroup : s.groupUp (p.val / 8) = true) :
    exec (.sof p) s = .next
      (let t := s.waitUntil ((s.port p.val).usb.sofAt + (s.port p.val).usb.sofTicks)
       if (t.onWire p.val).isSome then t.modUsb p.val fun u => { u with sofPend := true } else sofNow p.val t) := by
  change execSof p s = _
  simp only [execSof, hmode, hst, hgroup, bne_self_eq_false, Bool.not_true, Bool.or_self, Bool.false_eq_true, if_false]
  split <;> rfl

theorem exec_transactionEnd_of_wire {p : Port} {w : OnWire} (o : TxnOutcome) (hwire : s.onWire p.val = some w) :
    exec (.transactionEnd p o) s = .next
      (afterBus p.val (afterWire w.slot (endOn w.slot w o (landPackets w.slot o (s.setWire p.val none))))) := by
  change execTransactionEnd p o s = _
  simp only [execTransactionEnd, hwire]

/-- R196, R221: a record of a target, once no earlier one has still to yield its own. -/
theorem exec_recordCommit_of_built {slot : Fin 4096} {r : Rec} {l : List Rec}
    (hbuilt : (s.chan slot.val).built = r :: l) (hper : (s.chan slot.val).periodic = true)
    (hfirst : s.earlier slot.val r.stamp = false) :
    exec (.recordCommit slot) s = .next (afterCommit slot.val r (s.chan slot.val)
      (commitRec slot.val r r.stamp (s.setChan slot.val { s.chan slot.val with built := l }))) := by
  change execRecordCommit slot s = _
  simp only [execRecordCommit, hbuilt, hper, hfirst, Bool.and_false, Bool.false_eq_true, if_false, if_true]

theorem exec_ctrlTmoExpiry_of_open {slot : Fin 4096} {q : CtrlReq} (hctrl : (s.chan slot.val).ctrl = some q)
    (hphase : q.phase ≠ 2) :
    exec (.ctrlTmoExpiry slot) s = .next
      (let t := s.waitUntil q.deadline
       ctrlEnd slot.val 2 (match t.onWire (t.chan slot.val).port with
         | some w => if w.slot == slot.val then
             afterBus (t.chan slot.val).port (t.setWire (t.chan slot.val).port none)
           else t
         | none => t)) := by
  change execCtrlTmoExpiry slot s = _
  simp only [execCtrlTmoExpiry, hctrl, beq_iff_eq, hphase, if_false] <;> rfl

/-! ### Schedule transactions (R237, R242) -/

theorem exec_applyPoint_of_reach {t : SchedTxn} {u : State} (hpend : s.pendingTxn = some t)
    (hmode : s.warden.mode = false) (hreach : s.reach t.applyTb t.applyAt = some u) :
    exec .applyPoint s = .next (applyTxn t.applyAt t u) := by
  change execApplyPoint s = _
  simp only [execApplyPoint, hpend, atApply, hmode, hreach, Bool.false_eq_true, if_false]

theorem exec_transactionIdleTimeout_of_open {t : SchedTxn} (hpres : s.presentTxn = some t) (hst : t.st = 0) :
    exec .transactionIdleTimeout s = .next ((s.waitUntil (t.lastUse + ticksS 60)).setTxn { t with st := 3 }) := by
  change execTransactionIdleTimeout s = _
  simp only [execTransactionIdleTimeout, hpres, hst, bne_self_eq_false, Bool.false_eq_true, if_false]

end Sys2Proof.Machine

namespace Sys2Proof

open Sys2Proof.Machine

/-- Settles O37, row by row. The phase and period of the SOF and the guard before it are the model's choice (log 35). -/
theorem serviceRowsComplete : Obligations.ServiceRowsComplete := by
  unfold Obligations.ServiceRowsComplete
  refine ⟨fun slot t s => exec_targetDue_of_reach, fun p n c d s hbus hslots hc hdue hlive hsof hlevel hhalf => ?token,
    fun slot d s => exec_lateMiss_of_due, fun slot t s => exec_bestEffortReplaced_of_reach,
    fun p s => exec_sof_of_enabled, fun p o w s => exec_transactionEnd_of_wire o,
    fun slot r l s => exec_recordCommit_of_built, fun slot q s => exec_ctrlTmoExpiry_of_open,
    fun t u s => exec_applyPoint_of_reach, fun t s => exec_transactionIdleTimeout_of_open⟩
  case token =>
    subst hc
    rw [exec_tokenIssue_of_single hbus hslots hdue hlive hsof, issueDue_of_room hlevel hhalf]

end Sys2Proof
end

section
/-!
PROOFS for the `dev.*` commands, and `dom.list`, `dom.event` and `dom.forget`: what each decides, and each row by its
rule (`Ready.run`).
-/

namespace Sys2Proof.Machine

variable {r : Req} {s : State}

theorem length_fit (n : Nat) (l : List Byte) : (fit n l).length = n := by
  simp [fit, zeros]

/-! ### `dev.*` (R179, R290) -/

theorem coreDevList_of_empty (hnone : s.devices = []) :
    coreDevList r s = .query (le 2 0xFFFF ++ [byte 0] ++ zeros 13) := by
  simp [coreDevList, hnone]

theorem length_devEntry (s : State) (id : Nat) : (devEntry s id).length = 16 := by
  simp [devEntry, length_le]

/-- A header of 16 bytes stands before the first entry. -/
theorem coreDevList_of_first {id : Nat} {d : Device} {l : List (Nat × Device)} (hfrom : u8 r.params 0 ≤ id)
    (hused : d.used = true) (hdev : s.devices = (id, d) :: l) : ∃ head rest, head.length = 16 ∧
    coreDevList r s = .query (head ++ devEntry s id ++ rest) := by
  simp only [coreDevList, hdev, List.filter_cons, hused, hfrom, decide_true, Bool.and_self, if_true, List.map_cons,
    List.take_succ_cons, List.flatten_cons]
  refine ⟨_, _, ?_, congrArg CmdRes.query (List.append_assoc _ _ _).symm⟩
  simp [length_le, zeros]

theorem coreDevInfo_of_used (hused : (s.dev (tIndex r.target)).used = true) : ∃ mid len,
    mid.length = 4 ∧ len.length = 8 ∧
    coreDevInfo r s = .query (le 4 (s.dev (tIndex r.target)).serialCrc ++ mid ++
      fit 18 (s.dev (tIndex r.target)).desc.devDesc ++ len ++
      ((s.dev (tIndex r.target)).desc.cfgDesc.drop (u16 r.params 0)).take 206) := by
  refine ⟨[byte (s.dev (tIndex r.target)).cfg, byte (u8 (s.dev (tIndex r.target)).desc.cfgDesc 4)] ++
      le 2 (u16 (s.dev (tIndex r.target)).desc.cfgDesc 2),
    zeros 6 ++ le 2 (((s.dev (tIndex r.target)).desc.cfgDesc.drop (u16 r.params 0)).take 206).length,
    by simp [length_le], by simp [length_le, zeros], ?_⟩
  simp only [coreDevInfo, hused, Bool.not_true, Bool.false_eq_true, if_false, List.append_assoc]

theorem coreDevPolicy_of_good (hpol : u8 r.params 0 ≤ 2)
    (hmode : (s.port (tIndex r.target)).usb.transparent = false) :
    coreDevPolicy r s =
      .commit [] { s with policies := Tbl.setD 0 s.policies (tIndex r.target) (u8 r.params 0) } := by
  simp only [coreDevPolicy, Nat.not_lt.2 hpol, hmode, Bool.false_eq_true, if_false]

/-! ### `dom.*` (R208, R298) -/

theorem coreDomList_of_alone (hnone : s.domain.children = []) (hfrom : u8 r.params 0 = 0) :
    coreDomList r s = .query ([byte 1, byte 1] ++ zeros 6 ++ [0, 0, 0, 0, 0, byte s.nPorts, 0, 0]) := by
  simp [coreDomList, hnone, hfrom, chipEntry]

theorem coreDomEvent_of_mirror {e : List Byte} {l : List (List Byte)}
    (hmirror : (s.child (tChip r.target)).mirror = e :: l) :
    coreDomEvent r s = .commit (fit 16 e ++ [byte l.length, byte (min (s.child (tChip r.target)).lost 255)])
      (s.setChild (tChip r.target) { s.child (tChip r.target) with mirror := l }) := by
  simp only [coreDomEvent, hmirror]

/-- The root without a child: its record and its devices' links to it are cleared. -/
def forgetChild (n : Nat) (s : State) : State :=
  { s.setChild n {} with devices := (s.setChild n {}).devices.map fun e =>
      (e.1, if e.2.child == some n then { e.2 with child := none } else e.2) }

theorem coreDomForget_of_lost (hlost : (s.child (tChip r.target)).joined = false) :
    coreDomForget r s = .commit [] (forgetChild (tChip r.target) s) := by
  simp only [coreDomForget, hlost, Bool.false_eq_true, if_false]
  rfl

end Sys2Proof.Machine

namespace Sys2Proof

open Sys2Proof.Machine

/-- The commit of `dom.forget` is an epoch break (R278). -/
theorem exec_domForget_of_lost {mb : Fin 8} {r : Req} {s : State} (h : Ready mb.val 0x0B03 r s)
    (hlost : (s.child (tChip r.target)).joined = false) :
    exec (.domForget mb) s =
      .next (epochBreak 6 (finish mb (.commit [] (forgetChild (tChip r.target) s)) s)) := by
  change execDomForget mb s = _
  rw [execDomForget, h.run_eq (coreDomForget_of_lost hlost)]
  simp only [h.committed, if_true]

/-- Settles O38: a ready row runs its rule, and the rules are above. -/
theorem deviceAndDomainCommandsComplete : Obligations.DeviceAndDomainCommandsComplete := by
  unfold Obligations.DeviceAndDomainCommandsComplete
  refine ⟨fun mb r s h hnone => h.run_eq (coreDevList_of_empty hnone),
    fun mb r id d l s h hfrom hused hdev => ?list, fun mb r s h hused => ?info,
    fun mb r s h hpol hmode => h.run_eq (coreDevPolicy_of_good hpol hmode),
    fun mb r s h hnone hfrom => h.run_eq (coreDomList_of_alone hnone hfrom),
    fun mb r e l s h hmirror => h.run_eq (coreDomEvent_of_mirror hmirror),
    fun mb r s h hlost => exec_domForget_of_lost h hlost⟩
  case list =>
    obtain ⟨head, rest, hhead, hcore⟩ := coreDevList_of_first hfrom hused hdev
    exact ⟨_, h.run_eq hcore, slice_append_append hhead (length_devEntry s id)⟩
  case info =>
    obtain ⟨mid, len, hmid, hlen, hcore⟩ := coreDevInfo_of_used hused
    refine ⟨_, h.run_eq hcore, ?_, ?_, ?_⟩
    · simp only [List.append_assoc]
      exact slice_append (length_le 4 _)
    · rw [List.append_assoc _ len]
      exact slice_append_append (by simp [length_le, hmid]) (length_fit 18 _)
    · rw [slice, List.drop_left' (by simp [length_le, length_fit, hmid, hlen]), List.take_take]
      rfl

end Sys2Proof
end

section
/-!
PROOFS for the `sched.*` commands: what each decides, and each row by its rule (`Ready.run`).
-/

namespace Sys2Proof.Machine

variable {r : Req} {s : State} {t : SchedTxn}

/-! ### The present transaction (R236 to R239) -/

theorem coreSchedBegin_of_none (hnone : s.presentTxn = none) :
    coreSchedBegin r s = .commit (le 4 s.sched.nextTxn) { s with
      sched.txns := { txn := s.sched.nextTxn, lastUse := s.tick } ::
        s.sched.txns.filter (·.txn != s.sched.nextTxn)
      sched.nextTxn := if s.sched.nextTxn == 4294967295 then 1 else s.sched.nextTxn + 1 } := by
  simp only [coreSchedBegin, hnone, Option.isSome_none, Bool.false_eq_true, if_false]

/-- An item joins the `OPEN` transaction that has room for it. -/
theorem addItem_of_room {txn : Nat} (i : Item) (ht : s.namedTxn txn = some t) (hopen : t.st = 0)
    (hroom : t.items.length < 64) :
    addItem txn i s = .commit [byte t.items.length]
      (s.setTxn { t with items := t.items ++ [i], lastUse := s.tick }) := by
  simp only [addItem, ht, hopen, Nat.not_le.2 hroom, bne_self_eq_false, Bool.false_eq_true, if_false]

theorem coreSchedAdd_of_item {i : Item} (hitem : parseItem s r = .ok i) :
    coreSchedAdd r s = addItem (u32 r.params 0) i s := by
  simp only [coreSchedAdd, hitem]

/-- R239: a new schedule for an open periodic channel, in the time base it has. -/
theorem coreSchedChange_of_channel {p : SchedSpec} {n : Nat} (hspec : parseSpec (r.params.drop 8) = some p)
    (hslot : s.slotOf r.target = some n) (hper : (s.chan n).periodic = true) (htb : (s.chan n).sched.tb = p.tb)
    (hst : (s.chan n).st ≠ 4) :
    coreSchedChange r s = addItem (u32 r.params 0)
      { code := 6, target := r.target, body := r.params.drop 8, spec := p, handle := r.target } s := by
  simp only [coreSchedChange, hspec, hslot, hper, htb, beq_iff_eq, hst, Bool.not_true, bne_self_eq_false,
    Bool.or_self, Bool.false_eq_true, if_false]

/-! ### Commit and cancel (R240, R241) -/

/-- A transaction without items passes admission, whatever channels stand. -/
theorem admitItems_of_empty (hitems : t.items = []) : admitItems s t = .ok [] := by
  simp [admitItems, hitems, newChans]

/-- An empty transaction places no channel: its commit only makes it `PENDING` at its apply point. -/
theorem coreSchedCommit_of_empty {a : Nat} (hmode : u8 r.params 4 ≤ 1) (htb : u8 r.params 5 ≤ 4)
    (ht : s.namedTxn (u32 r.params 0) = some t) (hopen : t.st = 0) (hitems : t.items = [])
    (hat : resolveApply s (u8 r.params 4) (u8 r.params 5) (u64 r.params 8) = some a) :
    coreSchedCommit r s = .commit (le 4 t.txn ++ le 8 a ++ le 2 0 ++ [byte 0xFF, byte 0])
      (s.setTxn { t with st := 1, applyTb := u8 r.params 5, applyAt := a, lastUse := s.tick }) := by
  have hplace : placeItems [] s = ([], s) := rfl
  simp only [coreSchedCommit, Nat.not_lt.2 hmode, Nat.not_lt.2 htb, ht, hopen, hat, hitems, List.map_nil,
    admitItems_of_empty, hplace, commitResult, List.length_nil, decide_false, Bool.or_self, bne_self_eq_false,
    Bool.false_eq_true, if_false]

theorem coreSchedCancel_of_open (ht : s.namedTxn (u32 r.params 0) = some t) (hopen : t.st = 0) :
    coreSchedCancel r s = .commit [] (s.setTxn { t with st := 3 }) := by
  simp only [coreSchedCancel, ht, hopen, bne_self_eq_false, Bool.false_eq_true, if_false]

/-! ### Report (R245) -/

theorem coreSchedReport_of_port (hzero : u32 r.params 0 = 0) (hscope : tScope r.target = 2) :
    coreSchedReport r s = .query (portReport s (tIndex r.target)) := by
  simp only [coreSchedReport, hzero, hscope, beq_self_eq_true, if_true]

/-- A transaction no longer `OPEN`, without items: no idle time starts again, and the report is its header alone. -/
theorem coreSchedReport_of_empty (hnum : u32 r.params 0 ≠ 0) (hscope : tScope r.target = 0)
    (ht : s.sched.txns.find? (fun t => t.txn == u32 r.params 0) = some t) (hitems : t.items = []) (hst : t.st ≠ 0) :
    coreSchedReport r s = .query ([byte t.st, 0, 0, 0] ++ le 8 t.applyAt ++ zeros 4) := by
  simp [coreSchedReport, hnum, hscope, ht, hitems, hst]

end Sys2Proof.Machine

namespace Sys2Proof

open Sys2Proof.Machine

/-- Settles O36: a ready row runs its rule, and the rules are above. -/
theorem scheduleCommandsComplete : Obligations.ScheduleCommandsComplete := by
  unfold Obligations.ScheduleCommandsComplete
  refine ⟨fun mb r s h hnone => h.run_eq (coreSchedBegin_of_none hnone),
    fun mb r i t s h hitem ht hopen hroom => ?add,
    fun mb r p n t s h hspec hslot hper htb hst ht hopen hroom => ?change,
    fun mb r t a s h hmode htb ht hopen hitems hat =>
      h.run_eq (coreSchedCommit_of_empty hmode htb ht hopen hitems hat),
    fun mb r t s h ht hopen => h.run_eq (coreSchedCancel_of_open ht hopen),
    fun mb r s h hzero hscope => h.run_eq (coreSchedReport_of_port hzero hscope),
    fun mb r t s h hnum hscope ht hitems hst =>
      h.run_eq (coreSchedReport_of_empty hnum hscope ht hitems hst)⟩
  case add => exact h.run_eq ((coreSchedAdd_of_item hitem).trans (addItem_of_room i ht hopen hroom))
  case change =>
    exact h.run_eq ((coreSchedChange_of_channel hspec hslot hper htb hst).trans
      (addItem_of_room _ ht hopen hroom))

end Sys2Proof
end

section
/-!
SUPPORT AND PROOF for the queries (R254): each decides an answer without effect, and an answer without effect writes its
own mailbox alone.
-/

namespace Sys2Proof.Machine

/-- An answer that neither commits nor changes the state: a refusal, or the results of a query. -/
def CmdRes.effectless : CmdRes → Bool
  | .refuse .. | .query _ => true
  | _ => false

variable {mb op : Nat} {s t : State}

theorem finish_of_effectless {c : CmdRes} (h : c.effectless = true) (mb : Nat) (s : State) :
    ∃ a : Resp, a.committed = false ∧ finish mb c s = answer mb a s := by
  cases c with
  | refuse st res => exact ⟨refusal st res s, rfl, rfl⟩
  | query res => exact ⟨{ results := res, time32 := s.time32 }, rfl, rfl⟩
  | noted | session | commit | commitWait | commitWith => cases h

theorem effectless_ite {p : Prop} [Decidable p] {a b : CmdRes} (ha : a.effectless = true) (hb : b.effectless = true) :
    (if p then a else b).effectless = true := by
  split <;> assumption

/-- The gate of a rescue start (R499) lets an answer pass, or refuses. -/
theorem rescueGate_effectless {c : CmdRes} (h : c.effectless = true) (op : Nat) (r : Req) (s : State) :
    (rescueGate op r s c).effectless = true := by
  unfold rescueGate
  refine effectless_ite ?_ h
  split
  · exact effectless_ite rfl rfl
  · exact effectless_ite rfl rfl
  · rfl

theorem runOp_of_effectless {core : Req → State → CmdRes} (h : ∀ r s, (core r s).effectless = true)
    (hrun : runOp mb op core s = .next t) : t = s ∨ ∃ a : Resp, a.committed = false ∧ t = answer mb a s := by
  unfold runOp runCmd at hrun
  dsimp only at hrun
  split at hrun
  · cases hrun
    refine .inr (finish_of_effectless ?_ mb s)
    split
    · exact effectless_ite rfl (rescueGate_effectless (h _ _) _ _ _)
    · rfl
  · cases hrun
    exact .inl rfl

/-! ### The queries that judge their parameters or their target -/

theorem coreDevInfo_effectless (r : Req) (s : State) : (coreDevInfo r s).effectless = true :=
  effectless_ite rfl rfl

theorem coreChanInfo_effectless (r : Req) (s : State) : (coreChanInfo r s).effectless = true := by
  unfold coreChanInfo
  refine effectless_ite rfl ?_
  split
  · rfl
  · exact effectless_ite rfl (effectless_ite rfl (effectless_ite rfl rfl))

theorem coreChanLatest_effectless (r : Req) (s : State) : (coreChanLatest r s).effectless = true := by
  unfold coreChanLatest
  split
  · rfl
  · refine effectless_ite rfl (effectless_ite rfl ?_)
    split <;> rfl

theorem coreChanHistory_effectless (r : Req) (s : State) : (coreChanHistory r s).effectless = true := by
  unfold coreChanHistory
  split
  · rfl
  · refine effectless_ite rfl (effectless_ite rfl ?_)
    split
    · rfl
    · exact effectless_ite rfl rfl

theorem corePwrStatus_effectless (r : Req) (s : State) : (corePwrStatus r s).effectless = true :=
  effectless_ite rfl rfl

theorem coreIntegStatus_effectless (r : Req) (s : State) : (coreIntegStatus r s).effectless = true :=
  effectless_ite rfl rfl

theorem coreFaultStatus_effectless (r : Req) (s : State) : (coreFaultStatus r s).effectless = true :=
  effectless_ite rfl rfl

theorem coreProfRead_effectless (r : Req) (s : State) : (coreProfRead r s).effectless = true :=
  effectless_ite rfl rfl

/-! ### The queries of R254 -/

/-- The `*.info`, `*.list`, `*.status`, `*.result` and history commands, posted in a mailbox. -/
def queries (mb : Fin 8) : List Instr :=
  [.sysInfo mb, .angStatus mb, .portStatus mb, .devList mb, .devInfo mb, .chanInfo mb, .chanLatest mb,
    .chanHistory mb, .pwrStatus mb, .pdStatus mb, .canStatus mb, .integStatus mb, .integLog mb, .faultStatus mb,
    .wardenStatus mb, .domList mb, .domStatus mb, .domKeeper mb, .fwInfo mb, .profRead mb, .linkStatus mb,
    .testResult mb]

/-- A query runs a rule whose answer has no effect; where no core lemma is named the rule answers at once. -/
theorem exec_of_query (mb : Fin 8) : ∀ c ∈ queries mb, ∃ op core, (∀ r s, (core r s).effectless = true) ∧
    ∀ s, exec c s = runOp mb op core s := by
  simp only [queries, List.forall_mem_cons]
  exact ⟨⟨_, coreSysInfo, fun _ _ => rfl, fun _ => rfl⟩, ⟨_, coreAngStatus, fun _ _ => rfl, fun _ => rfl⟩,
    ⟨_, corePortStatus, fun _ _ => rfl, fun _ => rfl⟩, ⟨_, coreDevList, fun _ _ => rfl, fun _ => rfl⟩,
    ⟨_, _, coreDevInfo_effectless, fun _ => rfl⟩, ⟨_, _, coreChanInfo_effectless, fun _ => rfl⟩,
    ⟨_, _, coreChanLatest_effectless, fun _ => rfl⟩, ⟨_, _, coreChanHistory_effectless, fun _ => rfl⟩,
    ⟨_, _, corePwrStatus_effectless, fun _ => rfl⟩, ⟨_, corePdStatus, fun _ _ => rfl, fun _ => rfl⟩,
    ⟨_, coreCanStatus, fun _ _ => rfl, fun _ => rfl⟩, ⟨_, _, coreIntegStatus_effectless, fun _ => rfl⟩,
    ⟨_, coreIntegLog, fun _ _ => rfl, fun _ => rfl⟩, ⟨_, _, coreFaultStatus_effectless, fun _ => rfl⟩,
    ⟨_, coreWardenStatus, fun _ _ => rfl, fun _ => rfl⟩, ⟨_, coreDomList, fun _ _ => rfl, fun _ => rfl⟩,
    ⟨_, coreDomStatus, fun _ _ => rfl, fun _ => rfl⟩, ⟨_, coreDomKeeper, fun _ _ => rfl, fun _ => rfl⟩,
    ⟨_, coreFwInfo, fun _ _ => rfl, fun _ => rfl⟩, ⟨_, _, coreProfRead_effectless, fun _ => rfl⟩,
    ⟨_, coreLinkStatus, fun _ _ => rfl, fun _ => rfl⟩, ⟨_, coreTestResult, fun _ _ => rfl, fun _ => rfl⟩,
    List.forall_mem_nil _⟩

end Sys2Proof.Machine

namespace Sys2Proof

open Sys2Proof.Machine

/-- Settles O10: a query runs a rule without effect (`exec_of_query`), and such a rule answers at most. -/
theorem queryCommandsFrame : Obligations.QueryCommandsFrame := by
  unfold Obligations.QueryCommandsFrame
  intro mb s t c hc hnext
  obtain ⟨op, core, heffect, hrow⟩ := exec_of_query mb c hc
  rw [hrow] at hnext
  exact runOp_of_effectless heffect hnext

end Sys2Proof
end

section
/-!
SUPPORT AND PROOF for the numbers of a channel's records (R259): what storing a record leaves of the channels, and what
each way a record takes in `commitRec` does to its channel's next number.
-/

namespace Sys2Proof.Machine

/-- What each step of a fold keeps of the state, the fold keeps. -/
theorem foldl_keeps {α β : Type} (f : State → β) {g : State → α → State} (h : ∀ s x, f (g s x) = f s) (l : List α)
    (s : State) : f (l.foldl g s) = f s :=
  List.foldlRecOn l g (motive := fun t => f t = f s) rfl fun t ht x _ => (h t x).trans ht

/-- What both branches keep of the state, a choice keeps. -/
theorem ite_keeps {β : Type} (f : State → β) {p : Prop} [Decidable p] {a b : State} {x : β} (ha : f a = x)
    (hb : f b = x) : f (if p then a else b) = x := by
  split <;> assumption

theorem chan_of_chans {s t : State} (h : t.chans = s.chans) (n : Nat) : t.chan n = s.chan n := by
  rw [State.chan, h, State.chan]

/-! ### Stores and the ring leave the channels -/

@[simp] theorem writeUnit_chans (slot sp line : Nat) (s : State) : (writeUnit slot sp line s).chans = s.chans := by
  unfold writeUnit
  dsimp only
  split <;> split <;> rfl

@[simp] theorem writeMem_chans (slot sp o l : Nat) (s : State) : (writeMem slot sp o l s).chans = s.chans := by
  unfold writeMem
  exact ite_keeps State.chans rfl (foldl_keeps State.chans (fun _ _ => writeUnit_chans _ _ _ _) _ s)

@[simp] theorem abandonAt_chans (d src : Nat) (s : State) : (abandonAt d src s).chans = s.chans := by
  unfold abandonAt
  dsimp only
  split
  · rfl
  · simp only [completeWhere_fields, raiseEvent_fields, setDom_fields]

@[simp] theorem memDemand_chans (d : Nat) (s : State) : (memDemand d s).chans = s.chans := by
  unfold memDemand
  dsimp only
  split
  · exact ite_keeps State.chans (abandonAt_chans _ _ _) rfl
  · exact ite_keeps State.chans rfl rfl

@[simp] theorem storeMem_chans (slot sp o l : Nat) (s : State) : (storeMem slot sp o l s).chans = s.chans := by
  unfold storeMem
  refine ite_keeps State.chans rfl ?_
  rw [writeMem_chans]
  exact foldl_keeps State.chans (fun _ _ => memDemand_chans _ _) _ s

theorem fillRing_chans (n : Nat) (s : State) : (fillRing n s).chans = s.chans := by
  induction n generalizing s with
  | zero => rfl
  | succ n ih =>
    unfold fillRing
    split
    · exact ite_keeps State.chans (ih _) rfl
    · split
      · exact ite_keeps State.chans (ih _) rfl
      · rfl

@[simp] theorem refill_chans (s : State) : s.refill.chans = s.chans := fillRing_chans _ s

/-! ### The next number of one channel -/

/-- `t` has the channels of `s`, but for that of a slot, whose next record takes number `q`. -/
structure Numbered (slot q : Nat) (s t : State) : Prop where
  seq : (t.chan slot).nextSeq = q
  others : ∀ n, n ≠ slot → t.chan n = s.chan n

variable {slot q : Nat} {s t u : State}

theorem Numbered.refl (slot : Nat) (s : State) : Numbered slot (s.chan slot).nextSeq s s := ⟨rfl, fun _ _ => rfl⟩

theorem Numbered.trans (h : Numbered slot q s t) (k : Numbered slot (t.chan slot).nextSeq t u) :
    Numbered slot q s u :=
  ⟨k.seq.trans h.seq, fun n hn => (k.others n hn).trans (h.others n hn)⟩

theorem Numbered.of_chans (h : Numbered slot q s t) (hu : u.chans = t.chans) : Numbered slot q s u :=
  ⟨by rw [chan_of_chans hu, h.seq], fun n hn => by rw [chan_of_chans hu, h.others n hn]⟩

theorem numbered_setChan {c : Chan} (h : c.nextSeq = q) : Numbered slot q s (s.setChan slot c) :=
  ⟨by rw [chan_setChan_same, h], fun n hn => by rw [chan_setChan, if_neg hn]⟩

theorem Numbered.modChan (h : Numbered slot q s t) {f : Chan → Chan} (hf : ∀ c, (f c).nextSeq = c.nextSeq) :
    Numbered slot q s (t.modChan slot f) :=
  h.trans (numbered_setChan (hf _))

/-! ### A record that finds no place -/

/-- A target without a record takes no number. -/
theorem skipTarget_numbered (slot target : Nat) (s : State) :
    Numbered slot (s.chan slot).nextSeq s (skipTarget slot target s) :=
  numbered_setChan rfl

theorem windowSkip_numbered (slot target : Nat) (s : State) :
    Numbered slot (s.chan slot).nextSeq s (windowSkip slot target s) := by
  have hskip := (skipTarget_numbered slot target s).modChan (f := fun c => { c with windowFull := true }) fun _ => rfl
  unfold windowSkip
  dsimp only
  split
  · exact hskip
  · exact hskip.of_chans (by simp [groupEvent])

/-! ### A record that commits -/

/-- Entering the history ring takes no number and leaves the channel's last record. -/
theorem writeHistory_numbered (slot : Nat) (r : Rec) (s : State) :
    Numbered slot (s.chan slot).nextSeq s (writeHistory slot r s) ∧
    ((writeHistory slot r s).chan slot).lastRec = (s.chan slot).lastRec := by
  unfold writeHistory
  dsimp only
  split
  · exact ⟨.refl slot s, rfl⟩
  · have hstore (l : Nat) (k : Nat) :
        (storeMem slot 2 0 l (storeMem slot 2 (s.chan slot).histAt k s)).chans = s.chans := by simp
    refine ⟨((Numbered.refl slot s).of_chans (hstore _ _)).modChan fun _ => rfl, ?_⟩
    rw [chan_modChan_same, chan_of_chans (hstore _ _)]

/-- A record that commits is numbered in its channel, which then enters the history ring; the rest of the commit leaves
the channels. -/
theorem commitPlain_chans (slot : Nat) (r : Rec) (s : State) : ∃ c r',
    (commitPlain slot r s).chans = (writeHistory slot r' (s.setChan slot c)).chans ∧
    c.nextSeq = ((s.chan slot).nextSeq + 1) % 65536 ∧
    c.lastRec = some { r with handle := s.handle slot, seq := (s.chan slot).nextSeq } := by
  unfold commitPlain
  extract_lets c r' c'
  exact ⟨c', r', ite_keeps State.chans (refill_chans _) rfl, rfl, rfl⟩

/-- A record that commits takes the channel's next number, and is the channel's last record (R196, R259). -/
theorem commitPlain_numbered (slot : Nat) (r : Rec) (s : State) :
    Numbered slot (((s.chan slot).nextSeq + 1) % 65536) s (commitPlain slot r s) ∧
    ((commitPlain slot r s).chan slot).lastRec =
      some { r with handle := s.handle slot, seq := (s.chan slot).nextSeq } := by
  obtain ⟨c, r', hout, hseq, hrec⟩ := commitPlain_chans slot r s
  obtain ⟨hnum, hlast⟩ := writeHistory_numbered slot r' (s.setChan slot c)
  refine ⟨((numbered_setChan hseq).trans hnum).of_chans hout, ?_⟩
  rw [chan_of_chans hout, hlast, chan_setChan_same, hrec]

/-- Every way a record takes (R196, R259): it takes the channel's next number, or none. -/
theorem commitRec_numbered (slot : Nat) (r : Rec) (target : Nat) (s : State) :
    Numbered slot (s.chan slot).nextSeq s (commitRec slot r target s) ∨
    Numbered slot (((s.chan slot).nextSeq + 1) % 65536) s (commitRec slot r target s) := by
  unfold commitRec
  extract_lets c dropIt
  split
  · exact .inl (numbered_setChan rfl)
  · split
    · exact .inr (commitPlain_numbered slot r s).1
    · split
      · exact .inl (numbered_setChan rfl)
      · exact .inl (windowSkip_numbered slot target s)
    · split
      · exact .inl (numbered_setChan rfl)
      · exact .inl (skipTarget_numbered slot target s)

/-- With a place, a record of a channel without `CHANGE` commits. -/
theorem commitRec_of_place {r : Rec} (target : Nat) (hchange : (s.chan slot).change = false)
    (hplace : s.noPlace slot r = none) : commitRec slot r target s = commitPlain slot r s := by
  simp [commitRec, hchange, hplace]

end Sys2Proof.Machine

namespace Sys2Proof

open Sys2Proof.Machine

/-- Settles O20: a record takes the next number of its channel or none (`commitRec_numbered`), and with a place and no
`CHANGE` filter it commits (`commitRec_of_place`). -/
theorem recordNumbers : Obligations.RecordNumbers := by
  unfold Obligations.RecordNumbers
  refine ⟨fun slot r stamp s => ?any, fun slot r stamp s hchange hplace => ?placed⟩
  case any =>
    obtain ⟨hseq, hrest⟩ | ⟨hseq, hrest⟩ := commitRec_numbered slot r stamp s
    · exact ⟨.inl hseq, hrest⟩
    · exact ⟨.inr hseq, hrest⟩
  case placed =>
    obtain ⟨⟨hseq, _⟩, hlast⟩ := commitPlain_numbered slot r s
    rw [commitRec_of_place stamp hchange hplace]
    exact ⟨hseq, hlast⟩

end Sys2Proof
end

section
/-!
SUPPORT AND PROOF for the epoch break (R236, R276 to R280, R292): up to the new epoch nothing touches the keeper or the
transactions, and the channels that open after it touch nothing the break has set.
-/

namespace Sys2Proof.Machine

/-! ### Up to the new epoch: the keeper and the transactions -/

/-- The keeper and the schedule transactions: what the break takes over from the epoch before. -/
def State.epochTxns (s : State) : Keeper × List SchedTxn := (s.keeper, s.sched.txns)

theorem epochTxns_of_fields {s t : State} (hk : t.keeper = s.keeper) (hs : t.sched = s.sched) :
    t.epochTxns = s.epochTxns := by
  rw [State.epochTxns, hk, hs, State.epochTxns]

section
variable (s : State)

@[simp] theorem raiseEvent_epochTxns (ev code : Nat) (d : List Byte) :
    (raiseEvent ev code d s).epochTxns = s.epochTxns :=
  epochTxns_of_fields (by simp) (by simp)

@[simp] theorem groupEvent_epochTxns (g code : Nat) (d : List Byte) :
    (groupEvent g code d s).epochTxns = s.epochTxns := raiseEvent_epochTxns s _ _ _

@[simp] theorem modUsb_epochTxns (p : Nat) (f : PortUsb → PortUsb) : (s.modUsb p f).epochTxns = s.epochTxns := rfl

@[simp] theorem setChan_epochTxns (n : Nat) (c : Chan) : (s.setChan n c).epochTxns = s.epochTxns := rfl

@[simp] theorem modChan_epochTxns (n : Nat) (f : Chan → Chan) : (s.modChan n f).epochTxns = s.epochTxns := rfl

@[simp] theorem rqLevel_epochTxns : s.rqLevel.epochTxns = s.epochTxns := rfl

@[simp] theorem setGroup_epochTxns (n : Nat) (g : Group) : (s.setGroup n g).epochTxns = s.epochTxns :=
  epochTxns_of_fields (by simp) (by simp)

@[simp] theorem drawn_epochTxns : s.drawn.epochTxns = s.epochTxns := rfl

@[simp] theorem answer_epochTxns (mb : Nat) (r : Resp) : (answer mb r s).epochTxns = s.epochTxns := rfl

@[simp] theorem completeMb_epochTxns (mb : Nat) (st : Status) (res : List Byte) :
    (completeMb mb st res s).epochTxns = s.epochTxns :=
  epochTxns_of_fields (by simp) (by simp)

@[simp] theorem completeWhere_epochTxns (p : Wait → Bool) (st : Status) (res : List Byte) :
    (completeWhere p st res s).epochTxns = s.epochTxns :=
  epochTxns_of_fields (by simp) (by simp)

@[simp] theorem commitRec_epochTxns (slot : Nat) (r : Rec) (target : Nat) :
    (commitRec slot r target s).epochTxns = s.epochTxns := by
  obtain ⟨_, _, _, _, _, _, h⟩ := commitRec_recordSide slot r target s
  rw [h]
  rfl

/-! #### Channels -/

@[simp] theorem haltChan_epochTxns (slot cause : Nat) : (haltChan slot cause s).epochTxns = s.epochTxns := by
  unfold haltChan
  exact ite_keeps State.epochTxns (groupEvent_epochTxns _ _ _ _) rfl

@[simp] theorem freeIfIdle_epochTxns (id : Nat) : (freeIfIdle id s).epochTxns = s.epochTxns := by
  unfold freeIfIdle
  exact ite_keeps State.epochTxns rfl rfl

/-- The slot's channel and its pages go, then the slot is freed or quarantined, then its device may be. -/
@[simp] theorem closeSlot_epochTxns (slot : Nat) : (closeSlot slot s).epochTxns = s.epochTxns := by
  unfold closeSlot
  extract_lets c t q sched u
  have ht : t.epochTxns = s.epochTxns := rfl
  have hu : u.epochTxns = t.epochTxns := by
    clear_value t
    exact ite_keeps State.epochTxns (groupEvent_epochTxns _ _ _ _) rfl
  rw [ht] at hu
  exact ite_keeps State.epochTxns ((freeIfIdle_epochTxns u _).trans hu) hu

@[simp] theorem settleLast_epochTxns (slot : Nat) : (settleLast slot s).epochTxns = s.epochTxns := by
  unfold settleLast
  dsimp only
  split
  · exact ite_keeps State.epochTxns (closeSlot_epochTxns s slot) rfl
  · rfl

@[simp] theorem emitLast_epochTxns (slot : Nat) : (emitLast slot s).epochTxns = s.epochTxns := by
  unfold emitLast
  refine ite_keeps State.epochTxns ?_ ?_
  · rw [settleLast_epochTxns, commitRec_epochTxns, setChan_epochTxns]
  · rw [modChan_epochTxns, setChan_epochTxns]

@[simp] theorem finishAbort_epochTxns (slot : Nat) : (finishAbort slot s).epochTxns = s.epochTxns := by
  have hdrop : (discardRecords slot s).2.epochTxns = s.epochTxns := rfl
  simp [finishAbort, hdrop]

@[simp] theorem settlePauses_epochTxns : (settlePauses s).epochTxns = s.epochTxns := by
  unfold settlePauses
  refine foldl_keeps State.epochTxns (fun s n => ?_) _ s
  split
  · exact ite_keeps State.epochTxns rfl (completeMb_epochTxns s _ _ _)
  · rfl

@[simp] theorem afterWire_epochTxns (slot : Nat) : (afterWire slot s).epochTxns = s.epochTxns := by
  unfold afterWire
  extract_lets c t u
  have ht : t.epochTxns = s.epochTxns := ite_keeps State.epochTxns rfl rfl
  have hu : u.epochTxns = t.epochTxns := ite_keeps State.epochTxns (finishAbort_epochTxns t slot)
    (ite_keeps State.epochTxns (emitLast_epochTxns t slot) rfl)
  rw [settlePauses_epochTxns, hu, ht]

@[simp] theorem ctrlEnd_epochTxns (slot reason : Nat) : (ctrlEnd slot reason s).epochTxns = s.epochTxns := by
  unfold ctrlEnd
  dsimp only
  split
  · rfl
  · refine ite_keeps State.epochTxns rfl ?_
    rw [afterWire_epochTxns, completeWhere_epochTxns, setChan_epochTxns]

/-! #### Devices and ports -/

@[simp] theorem devGone_epochTxns (id reason : Nat) : (devGone id reason s).epochTxns = s.epochTxns := by
  unfold devGone
  refine ite_keeps State.epochTxns ?_ rfl
  rw [groupEvent_epochTxns, freeIfIdle_epochTxns]
  exact foldl_keeps State.epochTxns (fun t n => by rw [haltChan_epochTxns, ctrlEnd_epochTxns]) _ (s.setDev id _)

@[simp] theorem dropDevices_epochTxns (p : Nat) : (dropDevices p s).epochTxns = s.epochTxns := by
  have hgone : (portGone p 3 s).epochTxns = s.epochTxns :=
    foldl_keeps State.epochTxns (fun t id => devGone_epochTxns t id 3) _ s
  unfold dropDevices
  refine (foldl_keeps State.epochTxns (fun t id => ?_) _ _).trans hgone
  exact ite_keeps State.epochTxns rfl rfl

@[simp] theorem setPortState_epochTxns (p st cause : Nat) : (setPortState p st cause s).epochTxns = s.epochTxns :=
  epochTxns_of_fields (by simp) (by simp)

@[simp] theorem hubChange_epochTxns (p mask : Nat) : (hubChange p mask s).epochTxns = s.epochTxns := by
  unfold hubChange
  exact ite_keeps State.epochTxns rfl rfl

@[simp] theorem toTransparent_epochTxns (p : Nat) : (toTransparent p s).epochTxns = s.epochTxns := by
  have hdrop : (dropDevices p (stepsOver p s)).epochTxns = s.epochTxns := by simp [stepsOver]
  unfold toTransparent
  extract_lets t u v
  have hv : v.epochTxns = u.epochTxns := ite_keeps State.epochTxns (by simp) rfl
  rw [raiseEvent_epochTxns, hv, modUsb_epochTxns, hdrop]

/-! #### Commands, levels and stops -/

/-- However a wait ends at the break (R26, R102), it ends by the operations above. -/
@[simp] theorem breakWait_epochTxns (mb : Nat) (w : Wait) : (breakWait mb w s).epochTxns = s.epochTxns := by
  cases w <;> simp [breakWait, switchMode]

@[simp] theorem settlePosted_epochTxns (k : Nat) : (settlePosted k s).epochTxns = s.epochTxns := by
  unfold settlePosted
  extract_lets t
  have ht : t.epochTxns = s.epochTxns := foldl_keeps State.epochTxns (fun s n => by
    dsimp only
    split
    · exact ite_keeps State.epochTxns (breakWait_epochTxns s _ _) rfl
    · rfl) _ s
  refine (foldl_keeps State.epochTxns (fun s n => ?_) _ t).trans ht
  dsimp only
  split
  · exact ite_keeps State.epochTxns rfl rfl
  · rfl
  · rfl

@[simp] theorem closeExpert_epochTxns : (closeExpert s).epochTxns = s.epochTxns := by
  unfold closeExpert
  extract_lets t
  have ht : t.epochTxns = s.epochTxns := ite_keeps State.epochTxns rfl rfl
  exact (foldl_keeps State.epochTxns (fun s g => raiseEvent_epochTxns s _ _ _) _ _).trans ht

@[simp] theorem closeAll_epochTxns : (closeAll s).epochTxns = s.epochTxns := by
  unfold closeAll
  dsimp only
  rw [rqLevel_epochTxns, modChan_epochTxns]
  exact foldl_keeps State.epochTxns (fun t n => closeSlot_epochTxns t n) _ _

@[simp] theorem endStops_epochTxns : (endStops s).epochTxns = s.epochTxns := by
  unfold endStops
  refine foldl_keeps State.epochTxns (fun t g => ?_) _ s
  exact ite_keeps State.epochTxns (by rw [groupEvent_epochTxns, setGroup_epochTxns]) rfl

end

/-! ### After the new epoch: the channels that open at once (R279) -/

/-- What the break has set. -/
structure EpochView where
  epoch : Nat
  norEpoch : Nat
  session : Bool
  resyncPend : Bool
  txns : List SchedTxn
  nextTxn : Nat

/-- The same of a state. -/
def State.epochView (s : State) : EpochView :=
  { epoch := s.keeper.epoch, norEpoch := s.boot.norEpoch, session := s.cci.session, resyncPend := s.cci.resyncPend
    txns := s.sched.txns, nextTxn := s.sched.nextTxn }

theorem raiseEvent_session (ev code : Nat) (d : List Byte) (s : State) :
    (raiseEvent ev code d s).cci.session = s.cci.session ∧
    (raiseEvent ev code d s).cci.resyncPend = s.cci.resyncPend := by
  have hnote : (noteEvent ev s).cci.session = s.cci.session ∧
      (noteEvent ev s).cci.resyncPend = s.cci.resyncPend := by
    simp only [noteEvent, setFlag_fields, and_self]
  rw [raiseEvent_eq]
  split
  · split
    · exact hnote
    · simpa using hnote
  · exact hnote

section
variable (s : State)

@[simp] theorem raiseEvent_epochView (ev code : Nat) (d : List Byte) :
    (raiseEvent ev code d s).epochView = s.epochView := by
  simp [State.epochView, raiseEvent_session]

theorem allocPages_epochView (r p n : Nat) : (allocPages r p n s).epochView = s.epochView := by
  unfold allocPages
  exact ite_keeps State.epochView rfl (ite_keeps State.epochView rfl rfl)

theorem allocRun_epochView (sp : Nat) (held : List (Nat × Nat)) (e : Nat × Nat) :
    (allocRun sp held e s).epochView = s.epochView := by
  unfold allocRun
  refine ite_keeps State.epochView ?_ (allocPages_epochView s _ _ _)
  refine foldl_keeps State.epochView (fun t i => ?_) _ s
  exact ite_keeps State.epochView rfl (allocPages_epochView t _ _ _)

theorem allocChan_epochView (slot : Nat) (need : List (Nat × Nat)) :
    (allocChan slot need s).epochView = s.epochView := by
  unfold allocChan
  refine foldl_keeps State.epochView (fun t e => ?_) _ s
  exact foldl_keeps State.epochView (fun u x => allocRun_epochView u _ _ x) _ _

theorem loopStop_epochView (p why : Nat) : (loopStop p why s).epochView = s.epochView := by
  unfold loopStop
  exact ite_keeps State.epochView rfl rfl

end

theorem openCommit_epochView {c : Chan} {n : Nat} {s t : State} (h : openCommit c s = some (n, t)) :
    t.epochView = s.epochView := by
  unfold openCommit placeChan at h
  dsimp only at h
  split at h
  · cases h
  · cases h
    exact allocChan_epochView _ _ _

theorem openTemplate_epochView (id rule : Nat) (q : List Byte) (s : State) :
    (openTemplate id rule q s).epochView = s.epochView := by
  unfold openTemplate
  dsimp only
  split
  · exact raiseEvent_epochView s _ _ _
  · refine ite_keeps State.epochView (raiseEvent_epochView s _ _ _) ?_
    split
    · exact raiseEvent_epochView s _ _ _
    · next hopen =>
      refine (raiseEvent_epochView _ _ _ _).trans ((openCommit_epochView hopen).trans ?_)
      exact ite_keeps State.epochView rfl (loopStop_epochView s _ _)

theorem autoOpen_epochView (id : Nat) (s : State) : (autoOpen id s).epochView = s.epochView := by
  unfold autoOpen
  dsimp only
  split
  · rfl
  · exact foldl_keeps State.epochView (fun t q => openTemplate_epochView _ _ q t) _ s

/-! ### The break -/

theorem nextEpoch_ne_zero (n : Nat) : nextEpoch n ≠ 0 := by
  unfold nextEpoch
  split <;> omega

/-- The view after a break: of the transactions only those made `VOID` at warden mode's end (R244, R292). -/
theorem epochBreak_epochView (cause : Nat) (s : State) : (epochBreak cause s).epochView =
    { epoch := nextEpoch s.keeper.epoch, norEpoch := nextEpoch s.keeper.epoch, session := false, resyncPend := false
      txns := if cause = 5 then s.sched.txns.filter (·.st == 4) else [], nextTxn := 1 } := by
  have hold : (endStops (closeAll (closeExpert (settlePosted 8 s)))).epochTxns = s.epochTxns := by simp
  obtain ⟨hkeeper, htxns⟩ := Prod.mk.inj hold
  unfold epochBreak
  refine (foldl_keeps State.epochView (fun t id => autoOpen_epochView id t) _ _).trans ?_
  rw [raiseEvent_epochView]
  simp only [State.epochView, hkeeper, htxns, beq_iff_eq]

end Sys2Proof.Machine

namespace Sys2Proof

open Sys2Proof.Machine

/-- Settles O21: the view of the state after a break (`epochBreak_epochView`), field by field. -/
theorem epochBreakEffects : Obligations.EpochBreakEffects := by
  unfold Obligations.EpochBreakEffects
  refine ⟨nextEpoch_ne_zero, fun cause s => ?_⟩
  have h := epochBreak_epochView cause s
  exact ⟨congrArg EpochView.epoch h, congrArg EpochView.norEpoch h, congrArg EpochView.session h,
    congrArg EpochView.resyncPend h, congrArg EpochView.txns h, congrArg EpochView.nextTxn h⟩

end Sys2Proof
end

section
/-!
REFUTATION for the frames of the `ang.*` commands. An anchor that finds its channel's window full tells it by the event of
the channel's group (R265, R210). The statement takes every state, so it bounds that group's number by nothing, and a large
one makes the event's pending bit a bit of another register: here one of `PHO0_CTRL`, so that the output follows another
clock than the one it was set to.
-/

namespace Sys2Proof.Machine

/-- Mailbox 0 holds an `ang.enable` of clock 1. Output 0 is enabled and follows clock 0. The anchor channel's window is full,
and its group's event would be pending in bit 2 of 0x1200, the lowest bit of the output's time base (R128). The boot opens
the anchor channel in group 0 (R124), so no run comes here. -/
def strayGroup : State :=
  { State.reset.setReg 0x1200 1 with
    boot.up := true
    cci.mbs := [(0, { state := .posted, op := 0x0102, win := [(8, 1), (10, 0x40), (11, 1), (12, 1), (16, 1)] })]
    chans := [(0, { st := 1, deliver := 1, nextSeq := 32767, grp := 1024 * 32 + 2 - 48 })]
    chicory.phos := [(0, { next := 7 })] }

/-- The request of its mailbox. -/
def strayReq : Req := (strayGroup.mb 0).req 0

theorem tIndex_strayReq : tIndex strayReq.target = 1 := by decide

theorem strayGroup_phoSpec_tb : (strayGroup.phoSpec 0).tb = 0 := by decide

theorem coreAngEnable_strayReq : coreAngEnable strayReq strayGroup = .commit [] (angOn 1 strayGroup) := rfl

/-- Output 0 is aimed from the count of clock 1. -/
theorem next_pho_strayGroup : ((finish 0 (.commit [] (angOn 1 strayGroup)) strayGroup).pho 0).next = 0 := by
  decide +kernel

end Sys2Proof.Machine

namespace Sys2Proof

open Sys2Proof.Machine

theorem ready_strayGroup : Ready 0 0x0102 strayReq strayGroup where
  runnable := by decide
  code := by decide
  start := by decide
  rescue := by decide
  journal := by decide
  req := rfl
  shape := ⟨_, rfl, by decide⟩

/-- Refutes O16: the enabling of clock 1 aims an output that follows clock 0, in a state whose anchor channel has a group
that no run gives it (`strayGroup`). -/
theorem not_commandFrames : ¬ Obligations.CommandFrames := by
  unfold Obligations.CommandFrames
  rintro ⟨-, hang, -⟩
  have hexec : exec (.angEnable 0) strayGroup =
      .next (finish 0 (.commit [] (angOn 1 strayGroup)) strayGroup) := ready_strayGroup.run_eq coreAngEnable_strayReq
  obtain ⟨-, -, hpho, -⟩ := hang 0 strayGroup _ _ (by decide) hexec
  have htb : (strayGroup.phoSpec 0).tb ≠ tIndex strayReq.target := by
    rw [strayGroup_phoSpec_tb, tIndex_strayReq]
    decide
  have hnext := congrArg PhaseOut.next (hpho 0 htb)
  rw [next_pho_strayGroup] at hnext
  exact absurd hnext (by decide)

end Sys2Proof
end

section
/-!
PROOFS for the `ang.*` and `time.*` commands: what each decides, and each row by its rule (`Ready.run`).
-/

namespace Sys2Proof.Machine

variable {r : Req} {s : State}

/-! ### `ang.*` (R288) -/

theorem coreAngConfig_of_good (hk : tIndex r.target ≤ 3) (hgood : angCfgBad r = false)
    (hoff : s.angRuns (tIndex r.target) = false) :
    coreAngConfig r s = .commit [] (angLoad (tIndex r.target) r s) := by
  simp only [coreAngConfig, Nat.not_lt.2 hk, hgood, hoff, decide_false, Bool.or_self, Bool.false_eq_true, if_false]

theorem coreAngEnable_on (hk : tIndex r.target ≤ 3) (hen : u8 r.params 0 = 1) :
    coreAngEnable r s = .commit [] (angOn (tIndex r.target) s) := by
  simp [coreAngEnable, Nat.not_lt.2 hk, hen]

theorem coreAngEnable_off (hk : tIndex r.target ≤ 3) (hen : u8 r.params 0 = 0) :
    coreAngEnable r s =
      if s.angRuns (tIndex r.target) && s.inUse (tIndex r.target) then .refuse .wrongState []
      else .commit [] (angOff (tIndex r.target) s) := by
  simp [coreAngEnable, Nat.not_lt.2 hk, hen]

theorem coreAngStatus_of_clock (hk : tIndex r.target ≤ 3) : ∃ res, coreAngStatus r s = .query res ∧
    slice res 0 1 = [byte (s.ang (tIndex r.target)).st] ∧
    slice res 4 12 = le 4 ((s.ang (tIndex r.target)).rate / 1000000) ++ le 6 (s.ang (tIndex r.target)).cycle ++
      le 2 (s.ang (tIndex r.target)).angle := by
  have hne : tIndex r.target ≠ 4 := by omega
  simp only [coreAngStatus, angStatus, beq_iff_eq, hne, if_false]
  exact ⟨_, rfl, rfl, rfl⟩

/-! ### `time.*` (R119, R120) -/

theorem coreTimeSet_of_wall (hk : tIndex r.target = 4) :
    coreTimeSet r s = .commit (le 8 s.chicory.wall.ns)
      { wallPair (wallStep (u64 r.params 0) s) with chicory.wall.valid := true } := by
  simp [coreTimeSet, hk]

theorem coreTimeAdjust_of_wall (hk : tIndex r.target = 4) :
    coreTimeAdjust r s =
      if 1000000000 < (signed 64 (u64 r.params 0)).natAbs then .refuse .badParam []
      else .commit (le 4 (slewMs (signed 64 (u64 r.params 0))))
        { s with chicory.wall.slew := signed 64 (u64 r.params 0) * 10000000 } := by
  simp [coreTimeAdjust, hk]

/-- The setting a `time.disc` loads. -/
def discCfg (r : Req) : Nat := u8 r.params 0 + u8 r.params 1 * 4 + u16 r.params 2 * 65536

theorem coreTimeDisc_of_off (hk : tIndex r.target = 4) (hsrc : u8 r.params 0 ≤ 2) (hedge : u8 r.params 1 ≤ 1)
    (hmin : 1 ≤ u16 r.params 2) (hmax : u16 r.params 2 ≤ 6000) (hen : u8 r.params 4 ≤ 1)
    (hoff : s.flag 0x1100 0 = false) :
    coreTimeDisc r s = .commit []
      (if u8 r.params 4 = 1 then wallOn (s.setReg 0x1104 (discCfg r)) else wallOff (s.setReg 0x1104 (discCfg r))) := by
  have hpos : u16 r.params 2 ≠ 0 := by omega
  simp [coreTimeDisc, hk, hpos, hoff, Nat.not_lt.2 hsrc, Nat.not_lt.2 hedge, Nat.not_lt.2 hmax, Nat.not_lt.2 hen,
    discCfg]

end Sys2Proof.Machine

namespace Sys2Proof

open Sys2Proof.Machine

/-- Settles O23: a ready row runs its rule, and the rules are above. The time of a slew at 500 ppm, and its unit, are the
model's choice (log 9). -/
theorem clockCommandsComplete : Obligations.ClockCommandsComplete := by
  unfold Obligations.ClockCommandsComplete
  refine ⟨fun mb r s h hk hgood hoff => h.run_eq (coreAngConfig_of_good hk hgood hoff),
    fun mb r s h hk hen => h.run_eq (coreAngEnable_on hk hen),
    fun mb r s h hk hen => h.run_eq (coreAngEnable_off hk hen),
    fun mb r s h hk => ?status,
    fun mb r s h hk => h.run_eq (coreTimeSet_of_wall hk),
    fun mb r s h hk => h.run_eq (coreTimeAdjust_of_wall hk),
    fun mb r s h hk hsrc hedge hmin hmax hen hoff =>
      h.run_eq (coreTimeDisc_of_off hk hsrc hedge hmin hmax hen hoff)⟩
  case status =>
    obtain ⟨res, hcore, hst, hrate⟩ := coreAngStatus_of_clock (s := s) hk
    exact ⟨res, h.run_eq hcore, hst, hrate⟩

end Sys2Proof
end

section
/-!
PROOFS for the `pwr.*` commands: what each decides, the registers that `pwr.curve` and `pwr.rails` load, and each row by its
rule (`Ready.run`).
-/

namespace Sys2Proof.Machine

/-! ### A run of registers -/

theorem reg_foldl_setReg_ne {off val : Nat → Nat} {o : Nat} (l : List Nat) (s : State) (h : ∀ k ∈ l, off k ≠ o) :
    (l.foldl (fun s k => s.setReg (off k) (val k)) s).reg o = s.reg o := by
  induction l generalizing s with
  | nil => rfl
  | cons k l ih =>
    rw [List.foldl_cons, ih _ fun j hj => h j (List.mem_cons_of_mem k hj),
      reg_setReg_ne _ _ (h k List.mem_cons_self).symm]

/-- Registers at offsets of their own keep each its own value. -/
theorem reg_foldl_setReg {off val : Nat → Nat} (hinj : Function.Injective off) {l : List Nat} {k : Nat} (h : k ∈ l)
    (s : State) : (l.foldl (fun s k => s.setReg (off k) (val k)) s).reg (off k) = val k % 2 ^ 32 := by
  induction l generalizing s with
  | nil => cases h
  | cons j l ih =>
    rw [List.foldl_cons]
    by_cases hk : k ∈ l
    · exact ih hk _
    · obtain rfl : k = j := (List.mem_cons.1 h).resolve_right hk
      have hne : ∀ i ∈ l, off i ≠ off k := fun i hi e => hk (hinj e ▸ hi)
      rw [reg_foldl_setReg_ne l _ hne, reg_setReg_same]

variable {r : Req} {s : State}

/-! ### `pwr.on`, `pwr.off` and `pwr.clear` (R293, R323) -/

theorem corePwrOn_of_free (hheld : (s.port (tIndex r.target)).pw.held = false) : corePwrOn r s = .commit [] s := by
  simp [corePwrOn, hheld]

/-- The hold of a port that is not `OFF` ends, and nothing resumes. -/
theorem corePwrOn_of_held (hheld : (s.port (tIndex r.target)).pw.held = true)
    (hst : (s.port (tIndex r.target)).usb.st ≠ 0) :
    corePwrOn r s = .commit [] (s.modPw (tIndex r.target) fun w => { w with held := false }) := by
  simp [corePwrOn, hheld, State.modPw, hst]

/-- The clearing of a latched port whose pins are down, its fault source `CLEAR`. -/
theorem corePwrClear_of_latched (hst : (s.port (tIndex r.target)).usb.st = 3)
    (hlow : (s.port (tIndex r.target)).pw.voMv ≤ 1000) (hsrc : (s.src (tIndex r.target)).st = 0) :
    corePwrClear r s = .commit [] (resumeCheck (tIndex r.target) (portInput (tIndex r.target)
      (setPortState (tIndex r.target) 0 0
        (s.modPw (tIndex r.target) fun w => { w with latch := 0, safeLatch := false, ladder := 0 })))) := by
  simp [corePwrClear, hst, Nat.not_lt.2 hlow, hsrc]

/-! ### `pwr.curve` (R317, R318) -/

/-- The bounds of a curve that `pwr.curve` takes, as far as its registers need them: the inrush limit and timer, the
cool-down base, the retry limit, the fast-trip threshold, and each breakpoint. -/
structure CurveFits (r : Req) : Prop where
  inrush : u8 r.params 0 ≤ 70
  timer : u8 r.params 1 ≤ 100
  cool : u16 r.params 2 ≤ 600
  retry : u8 r.params 4 ≤ 15
  fast : r.e8 5 0 ≤ 120
  mA : ∀ k < 8, u16 r.params (8 + 8 * k) ≤ 12775
  time : ∀ k < 8, u32 r.params (12 + 8 * k) ≤ 6000000

theorem curveFits_of_not_bad (h : curveBad r = false) : CurveFits r := by
  simp only [curveBad, Bool.or_eq_false_iff, List.any_eq_false, List.mem_range, Bool.not_eq_true,
    decide_eq_false_iff_not, Nat.not_lt, Bool.and_eq_false_iff, bne_eq_false_iff_eq] at h
  obtain ⟨⟨⟨⟨⟨⟨⟨⟨⟨-, hinrush⟩, -⟩, htimer⟩, -⟩, hcool⟩, -⟩, hretry⟩, hfast⟩, hpoints⟩ := h
  have hpoint (k : Nat) (hk : k < 8) : u16 r.params (8 + 8 * k) ≤ 12775 ∧ u32 r.params (12 + 8 * k) ≤ 6000000 := by
    obtain ⟨⟨⟨⟨-, hmA⟩, -⟩, htime⟩, -⟩ := hpoints k hk
    exact ⟨hmA, htime⟩
  exact ⟨hinrush, htimer, hcool, hretry, by omega, fun k hk => (hpoint k hk).1, fun k hk => (hpoint k hk).2⟩

/-- The fast-trip threshold in 100 mA, 100 where the command gives none. -/
def curveFast (r : Req) : Nat := if r.e8 5 0 == 0 then 100 else r.e8 5 0

/-- The limits of a port's fuse as `pwr.curve` loads them. -/
def curveLimits (r : Req) (s : State) : State :=
  (s.setReg (fuseBase (tIndex r.target) + 4)
    (u8 r.params 0 + u8 r.params 1 * 256 + curveFast r * 65536 + u8 r.params 4 * 2 ^ 24)).setFld
    (fuseBase (tIndex r.target) + 8) 9 0 (u16 r.params 2)

/-- A breakpoint's register, and what it holds: the current in 25 mA, the time in 10 µs. -/
def pointReg (r : Req) (k : Nat) : Nat := fuseBase (tIndex r.target) + 0x1C + 4 * k
def pointVal (r : Req) (k : Nat) : Nat := u16 r.params (8 + 8 * k) / 25 + u32 r.params (12 + 8 * k) * 512

/-- The limits and the breakpoints loaded. -/
def curveLoaded (r : Req) (s : State) : State :=
  (List.range 8).foldl (fun s k => s.setReg (pointReg r k) (pointVal r k)) (curveLimits r s)

/-- Under `LK_CURVES` nothing is loaded. -/
theorem corePwrCurve_of_good (hgood : curveBad r = false) :
    corePwrCurve r s =
      if s.hrs.lock0.getLsbD 2 then .refuse .locked [] else .commit [] (curveLoaded r s) := by
  simp only [corePwrCurve, hgood, Bool.false_eq_true, if_false]
  rfl

theorem reg_curveLoaded_point (h : CurveFits r) {k : Nat} (hk : k < 8) :
    (curveLoaded r s).reg (pointReg r k) = pointVal r k := by
  have hmA := h.mA k hk
  have htime := h.time k hk
  have hinj : Function.Injective (pointReg r) := fun i j e => by
    unfold pointReg at e
    omega
  rw [curveLoaded, reg_foldl_setReg hinj (List.mem_range.2 hk), Nat.mod_eq_of_lt]
  unfold pointVal
  omega

/-- Below the breakpoints the registers are those of the limits. -/
theorem fld_curveLoaded_limits {o : Nat} (hi lo : Nat) (ho : o < fuseBase (tIndex r.target) + 0x1C) :
    (curveLoaded r s).fld o hi lo = (curveLimits r s).fld o hi lo := by
  have hne : ∀ k ∈ List.range 8, pointReg r k ≠ o := fun k _ => by
    unfold pointReg
    omega
  rw [State.fld, curveLoaded, reg_foldl_setReg_ne _ _ hne]
  rfl

theorem fld_curveLimits_inrush (h : CurveFits r) :
    (curveLimits r s).fld (fuseBase (tIndex r.target) + 4) 6 0 = u8 r.params 0 := by
  have hinrush := h.inrush
  rw [curveLimits, fld_setFld_ne _ _ _ _ _ _ (by omega), fld_setReg _ _ _ (by decide)]
  simp only [bits]
  omega

theorem fld_curveLimits_cool (h : CurveFits r) :
    (curveLimits r s).fld (fuseBase (tIndex r.target) + 8) 9 0 = u16 r.params 2 := by
  have hcool := h.cool
  rw [curveLimits, fld_setFld _ _ _ (by decide) (by decide), Nat.mod_eq_of_lt (by omega)]

/-! ### `pwr.rails` (R306) -/

/-- The code of a voltage of `RAIL_HI`. -/
def railCode (v : Nat) : Nat := if v == 9 then 0 else if v == 15 then 1 else 2

/-- The rails' registers as `pwr.rails` loads them. -/
def railsLoaded (r : Req) (s : State) : State :=
  ((s.setFld 0x3C0C 1 0 (railCode (u8 r.params 0))).setReg 0x3C10 (u16 r.params 2 + u16 r.params 4 * 65536)).setReg
    0x3C14 (u16 r.params 6 + u16 r.params 6 * 65536)

theorem corePwrRails_of_unused (hv : u8 r.params 0 ∈ [9, 15, 20]) (hlock : s.hrs.lock0.getLsbD 3 = false)
    (huse : s.hiInUse = false) :
    corePwrRails r s = .commit [] (coverCheck { railsLoaded r s with
      clover.lastFeed := b2n (railsLoaded r s).clover.carrying }) := by
  have hvolt : (!(u8 r.params 0 == 9 || u8 r.params 0 == 15 || u8 r.params 0 == 20)) = false := by
    simp only [List.mem_cons, List.not_mem_nil, or_false] at hv
    obtain hv | hv | hv := hv <;> rw [hv] <;> rfl
  simp only [corePwrRails, hvolt, hlock, huse, Bool.and_false, Bool.false_eq_true, if_false]
  rfl

theorem reg_railsLoaded (r : Req) (s : State) :
    (railsLoaded r s).reg 0x3C10 = u16 r.params 2 + u16 r.params 4 * 65536 ∧
    (railsLoaded r s).reg 0x3C14 = u16 r.params 6 + u16 r.params 6 * 65536 := by
  have h2 := u16_lt r.params 2
  have h4 := u16_lt r.params 4
  have h6 := u16_lt r.params 6
  constructor
  · rw [railsLoaded, reg_setReg_ne _ _ (by decide), reg_setReg_same, Nat.mod_eq_of_lt (by omega)]
  · rw [railsLoaded, reg_setReg_same, Nat.mod_eq_of_lt (by omega)]

theorem railMv_railsLoaded (hv : u8 r.params 0 ∈ [9, 15, 20]) :
    (railsLoaded r s).railMv 1 = 1000 * u8 r.params 0 := by
  have hfld : (railsLoaded r s).fld 0x3C0C 1 0 = railCode (u8 r.params 0) % 2 ^ 2 := by
    rw [railsLoaded, fld_setReg_ne _ _ _ _ (by decide), fld_setReg_ne _ _ _ _ (by decide),
      fld_setFld _ _ _ (by decide) (by decide)]
  simp only [State.railMv, Nat.one_ne_zero, if_false, hfld]
  simp only [List.mem_cons, List.not_mem_nil, or_false] at hv
  obtain hv | hv | hv := hv <;> rw [hv] <;> rfl

/-! ### `pwr.priority`, `pwr.stagger` and `pwr.status` (R293, R332, R333) -/

theorem corePwrPriority_of_unlocked (hc : u8 r.params 0 ≤ 7) (hlock : s.hrs.lock0.getLsbD 3 = false) :
    corePwrPriority r s =
      if u8 r.params 0 == 0 && !s.isSafetyPort (tIndex r.target) then .refuse .notPermitted []
      else .commit [] (s.setFld (fuseBase (tIndex r.target) + 8) 18 16 (u8 r.params 0)) := by
  simp only [corePwrPriority, Nat.not_lt.2 hc, hlock, Bool.false_eq_true, if_false]

theorem corePwrStagger_of_range (hmin : 5 ≤ u16 r.params 0) (hmax : u16 r.params 0 ≤ 200) :
    corePwrStagger r s = .commit [] (s.setFld 0x3C08 7 0 (u16 r.params 0)) := by
  simp [corePwrStagger, Nat.not_lt.2 hmin, Nat.not_lt.2 hmax]

theorem corePwrStatus_of_chip (hscope : tScope r.target = 0) :
    corePwrStatus r s = .query (le 2 ((s.feed 0).mv / 10) ++ le 2 ((s.feed 1).mv / 10) ++ le 2 (s.railLoad 0) ++
      le 2 (s.railLoad 1) ++ le 2 s.feedLoad ++ le 2 (s.feedBudget - s.feedLoad)) := by
  simp only [corePwrStatus, hscope, beq_self_eq_true, if_true]

theorem corePwrStatus_of_port (hscope : tScope r.target = 2) : ∃ res, corePwrStatus r s = .query res ∧
    slice res 0 1 = [byte (s.port (tIndex r.target)).usb.st] ∧
    slice res 4 4 = le 2 (s.port (tIndex r.target)).pw.voMv ++ le 2 (s.port (tIndex r.target)).pw.grant := by
  simp only [corePwrStatus, hscope, beq_iff_eq, OfNat.ofNat_ne_zero, if_false]
  exact ⟨_, rfl, rfl, rfl⟩

end Sys2Proof.Machine

namespace Sys2Proof

open Sys2Proof.Machine

/-- Settles O28: a ready row runs its rule, and the rules are above. Class 0 by `isSafetyPort`, whether the safety set is
valid or not, is the model's choice (log 25). -/
theorem powerCommandsComplete : Obligations.PowerCommandsComplete := by
  unfold Obligations.PowerCommandsComplete
  refine ⟨fun mb r s h hheld => h.run_eq (corePwrOn_of_free hheld),
    fun mb r s h hheld hst => h.run_eq (corePwrOn_of_held hheld hst),
    fun mb r s h => h.run corePwrOff,
    fun mb r s h hst hlow hsrc => h.run_eq (corePwrClear_of_latched hst hlow hsrc),
    fun mb r s h hgood hlock => ?curve,
    fun mb r s h hgood hlock => h.run_eq (by rw [corePwrCurve_of_good hgood, if_pos hlock]),
    fun mb r s h hv hlock huse => ⟨railsLoaded r s, h.run_eq (corePwrRails_of_unused hv hlock huse),
      (reg_railsLoaded r s).1, (reg_railsLoaded r s).2, railMv_railsLoaded hv⟩,
    fun mb r s h hc hlock => h.run_eq (corePwrPriority_of_unlocked hc hlock),
    fun mb r s h hmin hmax => h.run_eq (corePwrStagger_of_range hmin hmax),
    fun mb r s h hscope => h.run_eq (corePwrStatus_of_chip hscope),
    fun mb r s h hscope => ?status⟩
  case curve =>
    have hfits := curveFits_of_not_bad hgood
    refine ⟨curveLoaded r s, h.run_eq (by simp only [corePwrCurve_of_good hgood, hlock, Bool.false_eq_true, if_false]),
      fun k hk => reg_curveLoaded_point hfits hk, ?_, ?_⟩
    · rw [fld_curveLoaded_limits _ _ (by omega), fld_curveLimits_inrush hfits]
    · rw [fld_curveLoaded_limits _ _ (by omega), fld_curveLimits_cool hfits]
  case status =>
    obtain ⟨res, hcore, hst, hvo⟩ := corePwrStatus_of_port (s := s) hscope
    exact ⟨res, h.run_eq hcore, hst, hvo⟩

end Sys2Proof
end

section
/-!
PROOFS for the `pd.*` commands: what each decides, and each row by its rule (`Ready.run`).
-/

namespace Sys2Proof.Machine

variable {r : Req} {s : State}

/-! ### Offers, hard resets and swaps (R345, R350, R355, R357) -/

/-- Without power-good nothing is offered again. -/
theorem corePdCaps_of_unpowered (hlevel : u8 r.params 0 ≤ 1) (hmin : 500 ≤ u16 r.params 2)
    (hmax : u16 r.params 2 ≤ 3000) (hgood : (s.port (tIndex r.target)).pw.pgood = false) :
    corePdCaps r s = .commit [] (s.modPd (tIndex r.target) fun d =>
      { d with offerHi := u8 r.params 0 == 1, maxMa := u16 r.params 2 }) := by
  simp [corePdCaps, Nat.not_lt.2 hlevel, Nat.not_lt.2 hmin, Nat.not_lt.2 hmax, hgood]

theorem corePdHardreset_of_partner (hpartner : (s.port (tIndex r.target)).pd.partner = true)
    (hpath : (s.port (tIndex r.target)).pw.path ≠ 0) :
    corePdHardreset r s = .commit [] (hardReset (tIndex r.target) false 4 s) := by
  simp [corePdHardreset, hpartner, hpath]

theorem corePdSwap_of_source (hservice : s.servicePort (tIndex r.target) = true)
    (hcontract : (s.port (tIndex r.target)).pd.contract = 2) (hsink : (s.port (tIndex r.target)).pd.sink = false)
    (hswap : (s.port (tIndex r.target)).pd.swapping = false) (hawait : (s.port (tIndex r.target)).pd.await = 0) :
    corePdSwap r s = .commitWait (.pdSwap (tIndex r.target))
      ((ownSequence (tIndex r.target) (pdSend (tIndex r.target) .prSwap [] s)).modPd (tIndex r.target) fun d =>
        { d with swapping := true, await := 5 }) := by
  simp [corePdSwap, hservice, hcontract, hsink, hswap, hawait]

theorem corePdFrs_of_arm (harm : u8 r.params 0 ≤ 1) :
    corePdFrs r s =
      if s.servicePort (tIndex r.target) then .commit [] (frsCheck (tIndex r.target)
        (s.modPd (tIndex r.target) fun d => { d with frsArm := u8 r.params 0 == 1 }))
      else .refuse .notPermitted [] := by
  cases h : s.servicePort (tIndex r.target) <;> simp [corePdFrs, Nat.not_lt.2 harm, h]

/-! ### Moisture and modes (R351, R360 to R363) -/

theorem corePdMoist_of_range (htmin : 20 ≤ u16 r.params 0) (htmax : u16 r.params 0 ≤ 2000)
    (himin : 1 ≤ u16 r.params 2) (himax : u16 r.params 2 ≤ 3600) :
    corePdMoist r s = .commit [] (s.modPd (tIndex r.target) fun d =>
      { d with threshold := u16 r.params 0, interval := u16 r.params 2 }) := by
  have hpos : u16 r.params 2 ≠ 0 := by omega
  simp [corePdMoist, Nat.not_lt.2 htmin, Nat.not_lt.2 htmax, hpos, Nat.not_lt.2 himax]

/-- A mode other than the present one, that the partner listed and whose shape fits; eight ports may be in `FIELD_CAN`. -/
theorem corePdAltmode_of_listed {v : Nat} (hmin : 1 ≤ u8 r.params 0) (hmax : u8 r.params 0 ≤ 2)
    (hcontract : (s.port (tIndex r.target)).pd.contract = 2) (hentry : (s.port (tIndex r.target)).pd.entering = 0)
    (hawait : (s.port (tIndex r.target)).pd.await = 0) (hother : u8 r.params 0 ≠ (s.port (tIndex r.target)).pd.mode)
    (hvdo : (s.port (tIndex r.target)).pd.vdo (u8 r.params 0) = some v)
    (hshape : s.shapeOk (tIndex r.target) (u8 r.params 0) v = true) :
    corePdAltmode r s =
      if u8 r.params 0 == 2 && 8 ≤ s.fieldCanPorts then .refuse .noResource []
      else .commitWait (.altMode (tIndex r.target)) (takeMode (tIndex r.target) (u8 r.params 0) s) := by
  have hpos : u8 r.params 0 ≠ 0 := by omega
  simp only [corePdAltmode, Nat.not_lt.2 hmax, hcontract, hentry, hawait, hpos, hother, hvdo, hshape, beq_iff_eq,
    bne_self_eq_false, Bool.or_self, Bool.not_true, Bool.false_eq_true, if_false]

end Sys2Proof.Machine

namespace Sys2Proof

open Sys2Proof.Machine

/-- Settles O30: a ready row runs its rule, and the rules are above. -/
theorem negotiationCommandsComplete : Obligations.NegotiationCommandsComplete := by
  unfold Obligations.NegotiationCommandsComplete
  exact ⟨fun mb r s h => h.run corePdStatus,
    fun mb r s h hlevel hmin hmax hgood => h.run_eq (corePdCaps_of_unpowered hlevel hmin hmax hgood),
    fun mb r s h hpartner hpath => h.run_eq (corePdHardreset_of_partner hpartner hpath),
    fun mb r s h hservice hcontract hsink hswap hawait =>
      h.run_eq (corePdSwap_of_source hservice hcontract hsink hswap hawait),
    fun mb r s h harm => h.run_eq (corePdFrs_of_arm harm),
    fun mb r s h htmin htmax himin himax => h.run_eq (corePdMoist_of_range htmin htmax himin himax),
    fun mb r v s h hmin hmax hcontract hentry hawait hother hvdo hshape =>
      h.run_eq (corePdAltmode_of_listed hmin hmax hcontract hentry hawait hother hvdo hshape)⟩

end Sys2Proof
end

section
/-!
PROOFS for the `can.*` commands: what each decides, and each row by its rule (`Ready.run`).
-/

namespace Sys2Proof.Machine

variable {r : Req} {s : State}

/-! ### Configuration (R371, R375, R376) -/

/-- At the basic level transmitter delay compensation is on, with its offset of 30. -/
theorem coreCanConfig_of_basic (hmode : u8 r.params 0 < 8) (hretry : u8 r.params 1 ≤ 15) (hbasic : r.expert = false)
    (hin : (timingOf (r.params.drop 2)).inRange (bit (u8 r.params 0) 0) = true)
    (hok : (timingOf (r.params.drop 2)).ok (bit (u8 r.params 0) 0) = true)
    (hlock : s.canLocked (tIndex r.target) = false) (hoff : (s.can (tIndex r.target)).running = false)
    (hst : (s.can (tIndex r.target)).st ≠ 4) :
    coreCanConfig r s = .commit [] (loadTiming (tIndex r.target) (timingOf (r.params.drop 2)) (bit (u8 r.params 0) 0)
      (s.setReg (canBase (tIndex r.target) + 4) (u8 r.params 0 + 8 + u8 r.params 1 * 16 +
        s.fld (canBase (tIndex r.target) + 4) 10 8 * 256 + 30 * 65536))) := by
  have he (o d : Nat) : r.e8 o d = d := by simp [Req.e8, hbasic]
  simp [coreCanConfig, he, Nat.not_le.2 hmode, Nat.not_lt.2 hretry, hin, hok, hlock, hoff, hst]

theorem coreCanFilter_of_range (hpair : u8 r.params 0 ≤ 63) (haction : u8 r.params 1 ≤ 3) (hext : u8 r.params 2 ≤ 1)
    (hid : u32 r.params 4 < 2 ^ 29) (hmask : u32 r.params 8 < 2 ^ 29) :
    coreCanFilter r s =
      if s.canLocked (tIndex r.target) then .refuse .locked []
      else .commit [] (((s.setReg (pairBase (tIndex r.target) (u8 r.params 0))
        (u8 r.params 1 + 4 * u8 r.params 2)).setReg
        (pairBase (tIndex r.target) (u8 r.params 0) + 4) (u32 r.params 4)).setReg
        (pairBase (tIndex r.target) (u8 r.params 0) + 8) (u32 r.params 8)) := by
  simp only [coreCanFilter, Nat.not_lt.2 hpair, Nat.not_lt.2 haction, Nat.not_lt.2 hext, Nat.not_le.2 hid,
    Nat.not_le.2 hmask, decide_false, Bool.or_self, Bool.false_eq_true, if_false]

/-- One candidate timing, in the 12 bytes after the header of 4. -/
theorem coreCanAutobaud_of_one (hone : u8 r.params 0 = 1) (hdwell : 10 ≤ u8 r.params 1)
    (hlen : r.params.length = 16)
    (hin : (timingOf (slice r.params 4 12)).inRange (s.canFd (tIndex r.target)) = true)
    (hok : (timingOf (slice r.params 4 12)).ok (s.canFd (tIndex r.target)) = true)
    (hzero : u16 (slice r.params 4 12) 10 = 0) (hlock : s.canLocked (tIndex r.target) = false)
    (hoff : (s.can (tIndex r.target)).running = false) (hst : (s.can (tIndex r.target)).st ≠ 4) :
    coreCanAutobaud r s = .commitWait (.autobaud (tIndex r.target))
      (canState (tIndex r.target) 4 (s.setCan (tIndex r.target) { s.can (tIndex r.target) with
        cands := [slice r.params 4 12], candIdx := 0, candGood := 0, candBrs := false, candAt := s.tick
        dwell := ticksMs (10 * u8 r.params 1) })) := by
  simp [coreCanAutobaud, hone, Nat.not_lt.2 hdwell, hlen, hin, hok, hzero, hlock, hoff, hst]

/-! ### Enable, disable and recovery (R387, R388) -/

theorem coreCanEnable_on (hen : u8 r.params 0 = 1) (hoff : (s.can (tIndex r.target)).running = false)
    (hst : (s.can (tIndex r.target)).st ≠ 4)
    (hok : (s.canTiming (tIndex r.target)).ok (s.canFd (tIndex r.target)) = true) :
    coreCanEnable r s = .commit (le 4 0) (canStart (tIndex r.target) s) := by
  simp [coreCanEnable, hen, hoff, hst, hok]

theorem coreCanEnable_off (hen : u8 r.params 0 = 0) (hrun : (s.can (tIndex r.target)).running = true)
    (hst : (s.can (tIndex r.target)).st ≠ 4) :
    coreCanEnable r s = .commitWait (.canDisable (tIndex r.target) ((s.can (tIndex r.target)).mask [1, 2, 3]))
      (canDisable (tIndex r.target) s) := by
  simp [coreCanEnable, hen, hrun, hst]

theorem coreCanRecover_eq (r : Req) (s : State) :
    coreCanRecover r s =
      if (s.can (tIndex r.target)).st = 3 then .commit []
        (s.setCan (tIndex r.target) { s.can (tIndex r.target) with recovering := true, recoverAt := s.tick })
      else .refuse .wrongState [] := by
  simp only [coreCanRecover, bne_iff_ne, ite_not]

/-! ### Transmission (R380, R385) -/

/-- A classic frame of standard format that is not armed: it is pending in an empty buffer. -/
theorem coreCanTx_of_classic (hbuf : u8 r.params 0 < 32) (hflags : u8 r.params 1 = 0) (hdlc : u8 r.params 2 < 16)
    (hid : u32 r.params 4 < 2 ^ 11) (hlen : (r.params.drop 16).length = min (u8 r.params 2) 8)
    (hlisten : s.canListen (tIndex r.target) = false) (hrun : (s.can (tIndex r.target)).running = true)
    (hstop : (s.can (tIndex r.target)).stopping = false) (hst : (s.can (tIndex r.target)).st ≠ 3) :
    coreCanTx r s =
      if ((s.can (tIndex r.target)).buf (u8 r.params 0)).st = 0 then .commit []
        (s.setCan (tIndex r.target) ((s.can (tIndex r.target)).setBuf (u8 r.params 0) { st := 1, frame := {
          id := u32 r.params 4, dlc := u8 r.params 2, data := r.params.drop 16 } }))
      else .refuse .busy [] := by
  have hbit (i : Nat) : bit 0 i = false := by simp [bit]
  have hid' : u32 r.params 4 < 2048 := hid
  simp [coreCanTx, hflags, hbit, hbuf, hdlc, hid', hlen, hlisten, hrun, hstop, hst, dlcBytes,
    -List.length_drop]

/-- No frame of the controller is on the bus. -/
theorem coreCanTxabort_of_idle (hbus : (s.can (tIndex r.target)).onBus = none) :
    coreCanTxabort r s = .commit
      (le 4 (u32 r.params 0 &&& (s.can (tIndex r.target)).mask [1, 2, 3]) ++ le 4 0)
      (abortBufs (tIndex r.target) (u32 r.params 0) 3 s) := by
  simp only [coreCanTxabort, hbus]

end Sys2Proof.Machine

namespace Sys2Proof

open Sys2Proof.Machine

/-- Settles O42: a ready row runs its rule, and the rules are above. -/
theorem canCommandsComplete : Obligations.CanCommandsComplete := by
  unfold Obligations.CanCommandsComplete
  exact ⟨fun mb r s h hmode hretry hbasic hin hok hlock hoff hst =>
      h.run_eq (coreCanConfig_of_basic hmode hretry hbasic hin hok hlock hoff hst),
    fun mb r s h hen hoff hst hok => h.run_eq (coreCanEnable_on hen hoff hst hok),
    fun mb r s h hen hrun hst => h.run_eq (coreCanEnable_off hen hrun hst),
    fun mb r s h hpair haction hext hid hmask => h.run_eq (coreCanFilter_of_range hpair haction hext hid hmask),
    fun mb r s h hbuf hflags hdlc hid hlen hlisten hrun hstop hst =>
      h.run_eq (coreCanTx_of_classic hbuf hflags hdlc hid hlen hlisten hrun hstop hst),
    fun mb r s h hbus => h.run_eq (coreCanTxabort_of_idle hbus),
    fun mb r s h => h.run_eq (coreCanRecover_eq r s),
    fun mb r s h hone hdwell hlen hin hok hzero hlock hoff hst =>
      h.run_eq (coreCanAutobaud_of_one hone hdwell hlen hin hok hzero hlock hoff hst),
    fun mb r s h => h.run coreCanStatus⟩

end Sys2Proof
end

section
/-!
PROOFS for the `fault.*` and `warden.*` commands: what each decides, and each row by its rule (`Ready.run`).
-/

namespace Sys2Proof.Machine

variable {r : Req} {s : State}

/-! ### `fault.*` (R297, R428, R432, R434) -/

theorem length_srcEntry (s : State) (n : Nat) : (srcEntry s n).length = 8 := by simp [srcEntry, length_le]

theorem length_flatten_srcEntry (s : State) (n : Nat) (l : List Nat) :
    (l.map fun k => srcEntry s (n + k)).flatten.length = 8 * l.length := by
  induction l with
  | nil => rfl
  | cons k l ih =>
    rw [List.map_cons, List.flatten_cons, List.length_append, ih, length_srcEntry, List.length_cons]
    omega

/-- A header of 16 bytes, and the entries of 16 sources from the first on. -/
theorem coreFaultStatus_of_first (hmax : u8 r.params 0 ≤ 112) (hstep : u8 r.params 0 % 16 = 0) :
    ∃ res, coreFaultStatus r s = .query res ∧ slice res 0 1 = [byte (u8 r.params 0)] ∧
      slice res 16 8 = srcEntry s (u8 r.params 0) ∧ res.length = 144 := by
  have hle : ¬ 127 < u8 r.params 0 := by omega
  simp only [coreFaultStatus, hle, hstep, decide_false, bne_self_eq_false, Bool.or_self, Bool.false_eq_true, if_false]
  refine ⟨_, rfl, rfl, ?_, ?_⟩
  · exact slice_append_append (a := byte (u8 r.params 0) :: zeros 15) rfl (length_srcEntry s _)
  · simp only [List.length_append, length_flatten_srcEntry]
    rfl

theorem coreFaultConfig_of_good (hn : u8 r.params 0 ≤ 127) (hthr : u8 r.params 1 ≠ 0)
    (hcls : classFits (u8 r.params 0) (u8 r.params 2) = true) (hmin : 1 ≤ u32 r.params 4)
    (hmax : u32 r.params 4 ≤ 86400000) :
    coreFaultConfig r s =
      if s.hrs.lock0.getLsbD 6 then .refuse .locked []
      else if srcFixed (u8 r.params 0) then .refuse .notPermitted []
      else .commit [] (setSrcCfg (u8 r.params 0) (u8 r.params 1, u8 r.params 2, u32 r.params 4) s) := by
  have hpos : u32 r.params 4 ≠ 0 := by omega
  simp only [coreFaultConfig, Nat.not_lt.2 hn, hthr, hcls, hpos, Nat.not_lt.2 hmax, decide_false, Bool.not_true,
    Bool.or_self, Bool.false_eq_true, if_false]

theorem coreFaultClear_of_source (hn : u8 r.params 0 ≤ 127) :
    coreFaultClear r s =
      if (s.src (u8 r.params 0)).st = 3 then .refuse .wrongState [] else .commit [] (clearSrc (u8 r.params 0) s) := by
  simp only [coreFaultClear, Nat.not_lt.2 hn, beq_iff_eq, if_false]

theorem coreFaultForce_of_permitted (hn : u8 r.params 0 ≤ 127) (hpat : u8 r.params 1 ≤ 3)
    (hperm : (s.safetyValid && srcFixed (u8 r.params 0)) = false) :
    coreFaultForce r s = .commit [] (forceSrc (u8 r.params 0) (u8 r.params 1) s) := by
  simp only [coreFaultForce, Nat.not_lt.2 hn, Nat.not_lt.2 hpat, hperm, decide_false, Bool.or_self,
    Bool.false_eq_true, if_false]

/-! ### `warden.*` (R437, R440, R447) -/

theorem coreWardenArm_of_good (hok : scriptOk (u8 r.params 0) r.data = true) :
    coreWardenArm r s =
      if s.hrs.lock0.getLsbD 1 then .refuse .locked []
      else if s.warden.mode then .refuse .wrongState []
      else .commit (le 4 (crc32 r.data)) (armScript (u8 r.params 0) r.data s) := by
  simp only [coreWardenArm, hok, Bool.not_true, Bool.false_eq_true, if_false]

theorem coreWardenEnter_of_normal (hmode : s.warden.mode = false) :
    coreWardenEnter r s = .commit [if s.safetyValid then 1 else 2] (wardenEnter 0xFF s) := by
  simp only [coreWardenEnter, hmode, Bool.false_eq_true, if_false]

/-- Warden mode entered by command is left while no script runs: no source forbids it. -/
theorem coreWardenLeave_of_command (hmode : s.warden.mode = true) (hcause : s.warden.cause = 0xFF)
    (hrun : s.warden.run ≠ 2) : coreWardenLeave r s = .commit [] s := by
  simp [coreWardenLeave, hmode, hcause, hrun]

theorem coreWardenStatus_eq (r : Req) (s : State) : ∃ res, coreWardenStatus r s = .query res ∧
    slice res 0 1 = [byte (b2n s.warden.mode)] ∧
    slice res 3 5 = byte s.warden.cause :: le 4 s.warden.entryTime := ⟨_, rfl, rfl, rfl⟩

end Sys2Proof.Machine

namespace Sys2Proof

open Sys2Proof.Machine

/-- The commit of `warden.leave` is an epoch break (R278). -/
theorem exec_wardenLeave_of_command {mb : Fin 8} {r : Req} {s : State} (h : Ready mb.val 0x0A13 r s)
    (hmode : s.warden.mode = true) (hcause : s.warden.cause = 0xFF) (hrun : s.warden.run ≠ 2) :
    exec (.wardenLeave mb) s = .next (epochBreak 5 (wardenLeft (finish mb (.commit [] s) s))) := by
  change execWardenLeave mb s = _
  rw [execWardenLeave, h.run_eq (coreWardenLeave_of_command hmode hcause hrun)]
  simp only [h.committed, if_true]

/-- Settles O44: a ready row runs its rule, and the rules are above. The source 0xFF of an entry by command, and leaving
before step 0 of a script has begun, are the model's choices (log 40). -/
theorem faultAndWardenCommandsComplete : Obligations.FaultAndWardenCommandsComplete := by
  unfold Obligations.FaultAndWardenCommandsComplete
  refine ⟨fun mb r s h hmax hstep => ?faults,
    fun mb r s h hn hthr hcls hmin hmax => h.run_eq (coreFaultConfig_of_good hn hthr hcls hmin hmax),
    fun mb r s h hn => h.run_eq (coreFaultClear_of_source hn),
    fun mb r s h hn hpat hperm => h.run_eq (coreFaultForce_of_permitted hn hpat hperm),
    fun mb r s h hok => h.run_eq (coreWardenArm_of_good hok),
    fun mb r s h hmode => h.run_eq (coreWardenEnter_of_normal hmode),
    fun mb r s h hmode hcause hrun => exec_wardenLeave_of_command h hmode hcause hrun,
    fun mb r s h => ?warden⟩
  case faults =>
    obtain ⟨res, hcore, hfirst, hentry, hlen⟩ := coreFaultStatus_of_first (s := s) hmax hstep
    exact ⟨res, h.run_eq hcore, hfirst, hentry, hlen⟩
  case warden =>
    obtain ⟨res, hcore, hmode, hcause⟩ := coreWardenStatus_eq r s
    exact ⟨res, h.run_eq hcore, hmode, hcause⟩

end Sys2Proof
end

section
/-!
PROOFS for the `integ.*` commands: what each decides, what a change of strength and an injection set, and each row by its
rule (`Ready.run`).
-/

namespace Sys2Proof.Machine

variable {r : Req} {s : State}

/-! ### `integ.status`, `integ.region` and `integ.scrub` (R296, R407, R415) -/

theorem coreIntegStatus_of_region (hn : u8 r.params 0 < 0x14) : ∃ res, coreIntegStatus r s = .query res ∧
    slice res 0 4 = [byte (s.rgnState (u8 r.params 0)), byte (s.rgnT (u8 r.params 0)),
      byte (s.rgnMode (u8 r.params 0)), byte (s.rgnRetain (u8 r.params 0))] ∧
    slice res 4 4 = le 4 (s.regionPages (u8 r.params 0)) := by
  simp only [coreIntegStatus, Nat.not_le.2 hn, if_false]
  exact ⟨_, rfl, rfl, rfl⟩

theorem not_mem_of_le_transfer {n : Nat} (hn : n ≤ 0x0D) : n ∉ [0x0E, 0x0F, 0x12, 0x13] := by
  simp only [List.mem_cons, List.not_mem_nil, or_false]
  omega

/-- A uniform region of the transfer SRAM takes any mode and retention. -/
theorem regionBar_of_transfer {n mode retain : Nat} (hn : n ≤ 0x0D) (hmode : mode ≤ 1) (hret : retain ≤ 1)
    (hst : s.rgnState n = 0) : s.regionBar n mode retain = none := by
  have h1 : ¬ 0x14 ≤ n := by omega
  have h2 : ¬ 0x10 ≤ n := by omega
  have h3 : n ≠ 0x10 := by omega
  simp [State.regionBar, h1, h2, h3, Nat.not_lt.2 hmode, Nat.not_lt.2 hret, not_mem_of_le_transfer hn, hst,
    -List.mem_cons]

theorem coreIntegRegion_of_transfer (hn : u8 r.params 0 ≤ 0x0D) (hmode : u8 r.params 1 ≤ 1)
    (hret : u8 r.params 2 ≤ 1) (hst : s.rgnState (u8 r.params 0) = 0) :
    coreIntegRegion r s = .commit [] (setRegionMode (u8 r.params 0) (u8 r.params 1) (u8 r.params 2) s) := by
  simp only [coreIntegRegion, regionBar_of_transfer hn hmode hret hst]

theorem coreIntegScrub_of_good (hm : u8 r.params 0 ≤ 1) (hrate : u16 r.params 2 ≠ 0) :
    coreIntegScrub r s = .commit [] (if u8 r.params 0 = 0 then s.setFld 0x5004 15 0 (u16 r.params 2)
      else s.setFld 0x5004 31 16 (u16 r.params 2)) := by
  simp only [coreIntegScrub, Nat.not_lt.2 hm, hrate, decide_false, Bool.or_self, Bool.false_eq_true, if_false]

/-! ### `integ.restrength` (R416) -/

/-- The pages of a region that do not stand at a strength. -/
def State.rsTodo (s : State) (n t : Nat) : Nat :=
  s.regionPages n - runCount t (s.regionPages n) (s.rgnRuns n)

/-- A change of a region's strength as it starts, before its event. -/
def rsBegun (n t rate : Nat) (s : State) : State :=
  let u := s.setRegion n { s.region n with t := some t, runs := s.rgnRuns n, mixed := false }
  { u with integ := { u.integ with rsActive := true, rsRegion := n, rsT := t, rsRate := rate, rsDone := 0
                                   rsTotal := s.rsTodo n t, rsNext := 0, rsStep := 0 } }

/-- A change of strength started, and told. -/
def rsStarted (n t rate : Nat) (s : State) : State :=
  raiseEvent 68 1 ([byte n, byte t, 0, 0] ++ le 4 (s.rsTodo n t)) (rsBegun n t rate s)

/-- At the default rate of 1,000 pages a second; seven steps of eight convert a page. -/
theorem coreIntegRestrength_of_default (hn : u8 r.params 0 ≤ 0x0D) (hmax : u8 r.params 1 ≤ 32)
    (hstep : u8 r.params 1 % 4 = 0) (hrate : u16 r.params 2 = 0) (hidle : s.integ.rsActive = false) :
    coreIntegRestrength r s = .commit
      (le 4 (s.rsTodo (u8 r.params 0) (u8 r.params 1)) ++
        le 4 ((8 * s.rsTodo (u8 r.params 0) (u8 r.params 1) + 6999) / 7000))
      (if s.rsTodo (u8 r.params 0) (u8 r.params 1) = 0
       then rsDone (rsStarted (u8 r.params 0) (u8 r.params 1) 1000 s)
       else rsStarted (u8 r.params 0) (u8 r.params 1) 1000 s) := by
  have hlt : ¬ 0x14 ≤ u8 r.params 0 := by omega
  simp only [coreIntegRestrength, hlt, Nat.not_lt.2 hmax, hstep, hrate, hidle, not_mem_of_le_transfer hn, decide_false,
    bne_self_eq_false, Bool.or_self, Bool.false_eq_true, if_true, if_false]
  rfl

theorem rsStarted_integ (n t rate : Nat) (s : State) :
    (rsStarted n t rate s).integ.rsActive = true ∧ (rsStarted n t rate s).integ.rsRegion = n ∧
    (rsStarted n t rate s).integ.rsT = t ∧ (rsStarted n t rate s).integ.rsTotal = s.rsTodo n t ∧
    (rsStarted n t rate s).integ.rsDone = 0 := by
  simp [rsStarted, rsBegun]

theorem settleRuns_rsActive (n : Nat) (s : State) : (settleRuns n s).integ.rsActive = s.integ.rsActive := by
  unfold settleRuns
  dsimp only
  split <;> rfl

theorem rsDone_rsActive (s : State) : (rsDone s).integ.rsActive = false := by
  simp [rsDone, settleRuns_rsActive]

/-! ### `integ.rotate` and `integ.inject` (R409, R421) -/

theorem coreIntegRotate_out (hb : u8 r.params 0 ≤ 15) (hout : u8 r.params 1 = 0) :
    coreIntegRotate r s =
      if s.integ.rotPhase = 0 then .commitWait .rotate (startRotation (u8 r.params 0) 1 s)
      else .refuse .busy [] := by
  simp [coreIntegRotate, Nat.not_lt.2 hb, hout]

/-- The registers of an injection as `integ.inject` arms them. -/
def injectArmed (r : Req) (s : State) : State :=
  (((((s.setFld 0x5044 23 0 (u32 r.params 4)).setReg 0x5048 (u16 r.params 8 + 65536 * u8 r.params 10)).setFld
    0x5040 12 8 (u8 r.params 0)).setFld 0x5040 21 16 1).clrFlag 0x5040 24).setFlag 0x5040 0

theorem coreIntegInject_of_page (hn : u8 r.params 0 < 0x14) (htcm : u8 r.params 0 ≠ 0x0F)
    (hpage : u32 r.params 4 < s.regionPages (u8 r.params 0)) (hoff : u16 r.params 8 < 4096)
    (hst : s.rgnState (u8 r.params 0) = 0) : coreIntegInject r s = .commit [] (injectArmed r s) := by
  simp only [coreIntegInject, Nat.not_le.2 hn, Nat.not_le.2 hpage, htcm, Nat.not_le.2 hoff, hst, if_false, decide_false,
    Bool.or_self, Bool.false_eq_true]
  rfl

theorem flag_injectArmed (r : Req) (s : State) : (injectArmed r s).flag 0x5040 0 = true :=
  flag_setFlag _ _ (by decide)

theorem fld_injectArmed_region (hn : u8 r.params 0 < 0x14) : (injectArmed r s).fld 0x5040 12 8 = u8 r.params 0 := by
  have hlt : u8 r.params 0 < 2 ^ (12 + 1 - 8) := by omega
  rw [injectArmed, State.setFlag, State.clrFlag, fld_setFld_above _ _ _ (by decide) (by decide) (by decide),
    fld_setFld_below _ _ _ (by decide) (by decide) (by decide),
    fld_setFld_below _ _ _ (by decide) (by decide) (by decide), fld_setFld _ _ _ (by decide) (by decide),
    Nat.mod_eq_of_lt hlt]

/-- The offset and the bit to flip. -/
theorem fld_injectArmed_place (hoff : u16 r.params 8 < 4096) :
    (injectArmed r s).fld 0x5048 11 0 = u16 r.params 8 ∧ (injectArmed r s).fld 0x5048 23 16 = u8 r.params 10 := by
  have hbit := u8_lt r.params 10
  have hfld (hi lo : Nat) (h : hi < 32) :
      (injectArmed r s).fld 0x5048 hi lo = bits (u16 r.params 8 + 65536 * u8 r.params 10) hi lo := by
    rw [injectArmed, State.setFlag, State.clrFlag, fld_setFld_ne _ _ _ _ _ _ (by decide),
      fld_setFld_ne _ _ _ _ _ _ (by decide), fld_setFld_ne _ _ _ _ _ _ (by decide),
      fld_setFld_ne _ _ _ _ _ _ (by decide), fld_setReg _ _ _ h]
  constructor
  · rw [hfld _ _ (by decide)]
    simp only [bits]
    omega
  · rw [hfld _ _ (by decide)]
    simp only [bits]
    omega

end Sys2Proof.Machine

namespace Sys2Proof

open Sys2Proof.Machine

/-- Settles O47: a ready row runs its rule, and the rules are above. That a change with no page to convert starts and is
done at once is the model's choice (log 39). -/
theorem integrityCommandsComplete : Obligations.IntegrityCommandsComplete := by
  unfold Obligations.IntegrityCommandsComplete
  refine ⟨fun mb r s h hn => ?status,
    fun mb r s h hn hmode hret hst => h.run_eq (coreIntegRegion_of_transfer hn hmode hret hst),
    fun mb r s h hn hmax hstep hrate hidle hall => ?none,
    fun mb r s n h hn hmax hstep hrate hidle htodo hsome => ?some,
    fun mb r s h hm hrate => h.run_eq (coreIntegScrub_of_good hm hrate),
    fun mb r s h => h.run coreIntegLog,
    fun mb r s h hb hout => h.run_eq (coreIntegRotate_out hb hout),
    fun mb r s h hn htcm hpage hoff hst => ⟨injectArmed r s,
      h.run_eq (coreIntegInject_of_page hn htcm hpage hoff hst), flag_injectArmed r s, fld_injectArmed_region hn,
      fld_injectArmed_place hoff⟩⟩
  case status =>
    obtain ⟨res, hcore, hst, hpages⟩ := coreIntegStatus_of_region (s := s) hn
    exact ⟨res, h.run_eq hcore, hst, hpages⟩
  case none =>
    have hzero : s.rsTodo (u8 r.params 0) (u8 r.params 1) = 0 := by rw [State.rsTodo, hall, Nat.sub_self]
    have hcore := coreIntegRestrength_of_default hn hmax hstep hrate hidle
    rw [hzero, if_pos rfl] at hcore
    exact ⟨_, h.run_eq hcore, rsDone_rsActive _⟩
  case some =>
    have hn' : n = s.rsTodo (u8 r.params 0) (u8 r.params 1) := htodo
    subst hn'
    have hcore := coreIntegRestrength_of_default hn hmax hstep hrate hidle
    rw [if_neg hsome] at hcore
    exact ⟨_, h.run_eq hcore, rsStarted_integ _ _ _ s⟩

end Sys2Proof
end

section
/-!
PROOFS for `dom.pstate` to `dom.keeper`: what each decides, and each row by its rule (`Ready.run`).
-/

namespace Sys2Proof.Machine

variable {r : Req} {s : State}

/-! ### `dom.pstate` (R457, R462) -/

/-- Only the domain of `B16` asks for a rotation besides. -/
theorem listed_of_ne {d t : Nat} (hlist : domLists d t = true) (hne : d ≠ 0x20) :
    (!domLists d t || (d = 0x20 && s.integ.rotPhase == 0)) = false := by
  simp [hlist, hne]

theorem coreDomPstate_on_of_on (ht : u8 r.params 0 = 0) (hlist : domLists (tIndex r.target) 0 = true)
    (hne : tIndex r.target ≠ 0x20) (hst : (s.dom (tIndex r.target)).st = 0)
    (hentry : (s.dom (tIndex r.target)).entry = none) : coreDomPstate r s = .commit [] s := by
  simp [coreDomPstate, ht, listed_of_ne hlist hne, hst, hentry]

/-- A domain that is ON, neither entering nor waking, and that R455 lets go. -/
theorem coreDomPstate_leaves (hmin : 1 ≤ u8 r.params 0) (hmax : u8 r.params 0 ≤ 2)
    (hlist : domLists (tIndex r.target) (u8 r.params 0) = true) (hne : tIndex r.target ≠ 0x20)
    (hst : (s.dom (tIndex r.target)).st = 0) (hentry : (s.dom (tIndex r.target)).entry = none)
    (hwake : (s.dom (tIndex r.target)).wake = none)
    (hleave : s.mayLeave (some r.mb) (tIndex r.target) (u8 r.params 0) = true) :
    coreDomPstate r s =
      if tIndex r.target = 2 then .commit [] (startEntry (tIndex r.target) (u8 r.params 0) 0 s)
      else .commitWait (.domain (tIndex r.target) (u8 r.params 0))
        (startEntry (tIndex r.target) (u8 r.params 0) 0 s) := by
  have hpos : u8 r.params 0 ≠ 0 := by omega
  simp [coreDomPstate, Nat.not_lt.2 hmax, listed_of_ne hlist hne, hpos, hpos.symm, hst, hentry, hwake, hleave]

/-! ### `dom.pcfg`, `dom.status` and `dom.keeper` (R298, R463, R466) -/

theorem coreDomPcfg_of_timer (hmin : 100 ≤ u32 r.params 0) (hmax : u32 r.params 0 ≤ 60000000)
    (htmin : 1 ≤ u8 r.params 4) (htmax : u8 r.params 4 ≤ 2) (hmask : u32 r.params 8 < 64)
    (hlist : domLists (tIndex r.target) (u8 r.params 4) = true) :
    coreDomPcfg r s = .commit []
      (let b := domBase (tIndex r.target)
       let t := (((s.setFld b 3 2 (u8 r.params 4)).setFld (b + 8) 5 0 (u32 r.params 8)).setFld (b + 4) 25 0
         (u32 r.params 0)).setFlag b 0
       t.setDom (tIndex r.target) { t.dom (tIndex r.target) with idleAt := t.tick }) := by
  have hpos : u32 r.params 0 ≠ 0 := by omega
  have htpos : u8 r.params 4 ≠ 0 := by omega
  simp only [coreDomPcfg, hpos, Nat.not_lt.2 hmin, Nat.not_lt.2 hmax, htpos, Nat.not_lt.2 htmax, Nat.not_le.2 hmask, hlist,
    decide_false, Bool.or_self, Bool.and_false, Bool.not_true, Bool.false_eq_true, if_false]

theorem coreDomStatus_eq (r : Req) (s : State) : ∃ res, coreDomStatus r s = .query res ∧
    slice res 0 1 = [byte (s.dom (tIndex r.target)).st] ∧
    slice res 16 16 = (s.dom (tIndex r.target)).lastWake := ⟨_, rfl, rfl, rfl⟩

end Sys2Proof.Machine

namespace Sys2Proof

open Sys2Proof.Machine

/-- Settles O49: a ready row runs its rule, and the rules are above. The bound of the mask, and that the domain's idle time
starts again with `ENABLE`, are the model's choices (log 41). -/
theorem powerDomainCommandsComplete : Obligations.PowerDomainCommandsComplete := by
  unfold Obligations.PowerDomainCommandsComplete
  refine ⟨fun mb r s h ht hlist hne hst hentry => h.run_eq (coreDomPstate_on_of_on ht hlist hne hst hentry),
    fun mb r s h hmin hmax hlist hne hst hentry hwake hleave =>
      h.run_eq (coreDomPstate_leaves hmin hmax hlist hne hst hentry hwake hleave),
    fun mb r s h hmin hmax htmin htmax hmask hlist =>
      h.run_eq (coreDomPcfg_of_timer hmin hmax htmin htmax hmask hlist),
    fun mb r s h => ?status,
    fun mb r s h => h.run coreDomKeeper⟩
  case status =>
    obtain ⟨res, hcore, hst, hwake⟩ := coreDomStatus_eq r s
    exact ⟨res, h.run_eq hcore, hst, hwake⟩

end Sys2Proof
end

section
/-!
PROOFS for the `fw.*` and `prof.*` commands and the end of an erase: what each decides, and each row by its rule
(`Ready.run`).
-/

namespace Sys2Proof.Machine

/-! ### Slots -/

theorem slot_setSlot_same (b : Boot) (n : Bool) (x : Slot) : (b.setSlot n x).slot n = x := by
  cases n <;> rfl

theorem slot_setSlot_other (b : Boot) (n : Bool) (x : Slot) : (b.setSlot n x).slot (!n) = b.slot (!n) := by
  cases n <;> rfl

theorem dropActivation_slot (n k : Bool) (s : State) : (dropActivation n s).boot.slot k = s.boot.slot k := by
  unfold dropActivation
  split
  · split <;> rfl
  · rfl

theorem dropActivation_of_none {s : State} (n : Bool) (h : s.boot.pendingAct = none) : dropActivation n s = s := by
  simp only [dropActivation, h]

variable {r : Req} {s : State} {n : Bool}

/-! ### `fw.*` (R299, R494, R496, R497) -/

theorem coreFwInfo_of_no_activation (h : s.boot.pendingAct = none) :
    coreFwInfo r s = .query (slotInfo s.boot.slotA ++ slotInfo s.boot.slotB ++ [byte s.boot.otpThermo] ++
      ([0xFF, 0, 0] ++ zeros 8)) := by
  simp only [coreFwInfo, h]

/-- A slot's erase begun, an activation of it cancelled. -/
def eraseBegun (n : Bool) (size : Nat) (s : State) : State :=
  { (dropActivation n s).drawn with boot := (dropActivation n s).boot.setSlot n { st := 1, size := size } }

/-- The result is the estimate of the erase's time: a free value. -/
theorem coreFwBegin_of_idle (hslot : slotArg r = some n) (hmin : 1 ≤ u32 r.params 4)
    (hmax : u32 r.params 4 ≤ 1835008) (hlock : s.fwLocked = false) (hrun : s.boot.running ≠ n)
    (h5 : (s.boot.slot n).st ≠ 5) (h1 : (s.boot.slot n).st ≠ 1) :
    coreFwBegin r s = .commit (le 4 (dropActivation n s).free.toNat) (eraseBegun n (u32 r.params 4) s) := by
  have hpos : u32 r.params 4 ≠ 0 := by omega
  simp only [coreFwBegin, hslot, beq_iff_eq, hpos, Nat.not_lt.2 hmax, hlock, hrun, h5, h1, decide_false,
    Bool.or_eq_true, or_self, Bool.false_eq_true, if_false]
  rfl

theorem eraseBegun_slot (n : Bool) (size : Nat) (s : State) :
    (eraseBegun n size s).boot.slot n = { st := 1, size := size } ∧
    (eraseBegun n size s).boot.slot (!n) = s.boot.slot (!n) :=
  ⟨slot_setSlot_same _ _ _, (slot_setSlot_other _ _ _).trans (dropActivation_slot n (!n) s)⟩

/-- Data at the end of a staging slot, within its size. -/
theorem coreFwWrite_of_next (hslot : slotArg r = some n) (hdata : r.hasData = true)
    (hst : (s.boot.slot n).st = 2) (hoff : u32 r.params 4 = (s.boot.slot n).bytes.length)
    (hfit : (s.boot.slot n).bytes.length + r.data.length ≤ (s.boot.slot n).size) (hlock : s.fwLocked = false) :
    coreFwWrite r s = .commit (le 4 ((s.boot.slot n).bytes ++ r.data).length)
      { s with boot := s.boot.setSlot n { s.boot.slot n with
          bytes := (s.boot.slot n).bytes ++ r.data
          st := if ((s.boot.slot n).bytes ++ r.data).length == (s.boot.slot n).size then 3 else 2 } } := by
  have hlen : ¬ (s.boot.slot n).size < ((s.boot.slot n).bytes ++ r.data).length := by
    rw [List.length_append]
    omega
  simp only [coreFwWrite, hslot, hdata, hst, hoff, hlen, hlock, Bool.not_true, bne_self_eq_false, decide_false,
    Bool.and_false, Bool.or_self, Bool.false_eq_true, if_false]
  rfl

theorem coreFwVerify_of_slot (hslot : slotArg r = some n) :
    coreFwVerify r s = .commit [byte (imageOutcome s.variant s.boot.otpThermo (s.boot.slot n))]
      (raiseEvent 120 2 [byte (b2n n), byte (imageOutcome s.variant s.boot.otpThermo (s.boot.slot n))] { s with
        boot := s.boot.setSlot n { s.boot.slot n with
          st := if imageOutcome s.variant s.boot.otpThermo (s.boot.slot n) == 0 && (s.boot.slot n).st == 3 then 4
            else (s.boot.slot n).st } }) := by
  simp only [coreFwVerify, hslot]

/-- Activation at the next chip-level start (mode 0), or at once (1). -/
theorem coreFwActivate_of_verified (hslot : slotArg r = some n) (hmode : u8 r.params 1 ≤ 1)
    (hlock : s.fwLocked = false) (hst : (s.boot.slot n).st = 4) :
    coreFwActivate r s = .commit [] { s with boot.pendingAct := some (n, u8 r.params 1, u64 r.params 8) } := by
  have hle : ¬ 2 < u8 r.params 1 := by omega
  have hne : u8 r.params 1 ≠ 2 := by omega
  simp [coreFwActivate, hslot, hle, hne, hlock, hst]

theorem coreFwCancel_of_no_activation (hslot : slotArg r = some n) (hlock : s.fwLocked = false)
    (hnone : s.boot.pendingAct = none) :
    coreFwCancel r s = .commit []
      (if (s.boot.slot n).st = 2 then { s with boot := s.boot.setSlot n {} } else s) := by
  simp only [coreFwCancel, hslot, hlock, dropActivation_of_none n hnone, Bool.false_eq_true, if_false, beq_iff_eq]

/-! ### `prof.*` (R299, R489) -/

theorem coreProfRead_of_offset (hoff : u32 r.params 0 ≤ s.boot.norProfile.length) :
    coreProfRead r s = .query (le 4 s.boot.norProfile.length ++ le 4 (u32 s.boot.norProfile 8) ++ zeros 8 ++
      slice s.boot.norProfile (u32 r.params 0) 224) := by
  simp only [coreProfRead, Nat.not_lt.2 hoff, if_false]

theorem coreProfWrite_of_good (hdata : r.hasData = true) (hmin : 16 ≤ u32 r.params 0) (hmax : u32 r.params 0 ≤ 65536)
    (hlen : r.data.length = u32 r.params 0) (hhead : u32 r.data 8 = u32 r.params 4)
    (hcrc : crc32 (r.data.drop 16) = u32 r.params 4) :
    coreProfWrite r s =
      if s.profLocked then .refuse .locked []
      else .commit [] (raiseEvent 121 1 (le 4 (u32 r.params 4)) { s with boot.nextProfile := some r.data }) := by
  simp only [coreProfWrite, hdata, Nat.not_lt.2 hmin, Nat.not_lt.2 hmax, hlen, hhead, hcrc, decide_false, Bool.not_true,
    bne_self_eq_false, Bool.or_self, Bool.false_eq_true, if_false]

end Sys2Proof.Machine

namespace Sys2Proof

open Sys2Proof.Machine

theorem exec_eraseEnd_of_erasing {b : Bool} {s : State} (hst : (s.boot.slot b).st = 1) (hdark : s.boot.dark = false)
    (hsafe : s.warden.safe = false) : exec (.eraseEnd b) s = .next (raiseEvent 120 1 [byte (b2n b)]
      { s with boot := s.boot.setSlot b { s.boot.slot b with st := 2 } }) := by
  change execEraseEnd b s = _
  simp only [execEraseEnd, hst, hdark, hsafe, bne_self_eq_false, Bool.or_self, Bool.false_eq_true, if_false]

/-- Settles O51: a ready row runs its rule, and the rules are above. That `fw.verify` makes only a staged slot verified,
that `fw.cancel` with nothing to cancel answers `OK` (log 43), and which profile the `prof.*` commands mean and what its
CRC-32 covers (log 18), are the model's choices. -/
theorem firmwareCommandsComplete : Obligations.FirmwareCommandsComplete := by
  unfold Obligations.FirmwareCommandsComplete
  exact ⟨fun mb r s h hnone => h.run_eq (coreFwInfo_of_no_activation hnone),
    fun mb r n s h hslot hmin hmax hlock hrun h5 h1 =>
      ⟨_, eraseBegun n (u32 r.params 4) s, h.run_eq (coreFwBegin_of_idle hslot hmin hmax hlock hrun h5 h1),
        length_le 4 _, eraseBegun_slot n _ s⟩,
    fun mb r n s h hslot hdata hst hoff hfit hlock => h.run_eq (coreFwWrite_of_next hslot hdata hst hoff hfit hlock),
    fun mb r n s h hslot => h.run_eq (coreFwVerify_of_slot hslot),
    fun mb r n s h hslot hmode hlock hst => h.run_eq (coreFwActivate_of_verified hslot hmode hlock hst),
    fun mb r n s h hslot hlock hnone => h.run_eq (coreFwCancel_of_no_activation hslot hlock hnone),
    fun b s hst hdark hsafe => exec_eraseEnd_of_erasing hst hdark hsafe,
    fun mb r s h hoff => h.run_eq (coreProfRead_of_offset hoff),
    fun mb r s h hdata hmin hmax hlen hhead hcrc =>
      h.run_eq (coreProfWrite_of_good hdata hmin hmax hlen hhead hcrc)⟩

end Sys2Proof
end

section
/-!
PROOFS for the `test.*` commands, the ends of self-tests and the test access port: what each decides or does, and each row
by its rule (`Ready.run`).
-/

namespace Sys2Proof.Machine

variable {r : Req} {s : State}

/-! ### `test.*` (R301, R503, R507, R509) -/

theorem coreTestTmux_of_code (hn : u8 r.params 0 ≤ 7) (hg : u8 r.params 1 ≤ 7) (hsel : u16 r.params 2 ≠ 0xFFFF)
    (hcode : s.tmuxCode (u8 r.params 1) (u16 r.params 2) = true) :
    coreTestTmux r s =
      if s.hrs.lock0.getLsbD 7 then .refuse .locked []
      else if s.boot.otpTmuxOff then .refuse .notPermitted []
      else .commit [] ((s.setReg (0xE10 + 4 * u8 r.params 0) (u8 r.params 1 + 65536 * u16 r.params 2)).setFlag
        0xE00 11) := by
  simp only [coreTestTmux, Nat.not_lt.2 hn, Nat.not_lt.2 hg, hsel, hcode, beq_iff_eq, decide_false, Bool.not_true,
    Bool.or_self, Bool.and_false, Bool.false_eq_true, if_false]

theorem coreTestBist_of_group (hscope : tScope r.target = 1) (hpar : r.params = [])
    (hsafety : s.safetyGroup (tIndex r.target) = false) (hup : s.groupUp (tIndex r.target) = true)
    (hidle : s.test.bist = 0) : coreTestBist r s = .commitWait .bist (bistStop (tIndex r.target) s) := by
  simp [coreTestBist, hscope, hpar, hsafety, hup, hidle]

theorem coreTestLoop_of_unused (hmin : 1 ≤ u16 r.params 0) (hmax : u16 r.params 0 ≤ 1000)
    (hslots : s.portSlots (tIndex r.target) = []) (hmode : (s.port (tIndex r.target)).usb.transparent = false)
    (hidle : s.test.loopPort = none) :
    coreTestLoop r s = .commitWait (.loop (tIndex r.target)) { s with test := { s.test with
      loopPort := some (tIndex r.target), loopEnd := 0, loopAt := s.tick, loopMs := u16 r.params 0 } } := by
  have hpos : u16 r.params 0 ≠ 0 := by omega
  simp [coreTestLoop, hpos, Nat.not_lt.2 hmax, hslots, hmode, hidle]

/-! ### The test access port (R512 to R514) -/

theorem capturePins_test (n : Nat) (s : State) : (capturePins n s).2.test = s.test := by
  induction n generalizing s with
  | zero => rfl
  | succ n ih => exact ih s.drawn

/-- What a clock finds to do leaves the controller's state. -/
theorem tapAct_st (tdi : Bool) (s : State) : (tapAct tdi s).test.tap.st = s.test.tap.st := by
  unfold tapAct
  dsimp only
  split
  · split
    · rfl
    · split <;> rfl
  · rfl
  · split <;> rfl
  · rfl
  · rfl
  · rfl

theorem excludedReset_test (s : State) : (excludedReset s).test = s.test := by
  unfold excludedReset
  refine (foldl_keeps State.test (fun t p => ?_) _ _).trans rfl
  rfl

theorem tapLoad_st (low : Bool) (s : State) : (tapLoad low s).test.tap.st = s.test.tap.st := by
  unfold tapLoad
  exact ite_keeps (fun t => t.test.tap.st) (congrArg (·.tap.st) (excludedReset_test _)) rfl

/-- Without a rise of `RESET_N` the controller and its instruction stay. -/
theorem tapRise_tap_of_no_rise {low : Bool} (h : (s.test.tap.resetLow && !low) = false) :
    (tapRise low s).test.tap = { s.test.tap with resetLow := low } := by
  simp only [tapRise, h, Bool.false_eq_true, if_false]

/-- In Shift-DR a clock shifts the data register. -/
theorem tapAct_tap_of_shift (tdi : Bool) (h : s.test.tap.st = 4) : (tapAct tdi s).test.tap =
    { s.test.tap with tdo := bit s.test.tap.dr 0, dr := shiftIn s.test.tap.instr.drLen s.test.tap.dr tdi } := by
  simp only [tapAct, h, setTap]

end Sys2Proof.Machine

namespace Sys2Proof

open Sys2Proof.Machine

/-! ### The ends of self-tests (R507 to R510) -/

theorem exec_bistDone_of_failed_group {sig : Word} {s : State} (hsafe : s.warden.safe = false)
    (hbist : s.test.bist = 1) (hpaused : (s.chanSet.any fun e => e.2.grp == s.test.bistOf && e.2.pausing) = false) :
    exec (.bistDone false sig) s = .next (bistFinish s.test.bistOf (groupEvent s.test.bistOf 8 [3]
      (let w := s.waitUntil (s.test.bistAt + ticksMs 150)
       let t := { w with test := { w.test with bistResult := 1, bistSig := sig.toNat } }
       t.setGroup s.test.bistOf { t.group s.test.bistOf with engine := 3 }))) := by
  change execBistDone false sig s = _
  simp only [execBistDone, hsafe, hbist, hpaused, beq_self_eq_true, Bool.false_eq_true, if_true, if_false]
  rfl

/-- A loop test that ends early has no time to wait for. -/
theorem exec_loopDone_of_early {n e p : Nat} {s : State} (hport : s.test.loopPort = some p) (hend : s.test.loopEnd ≠ 0)
    (hsafe : s.warden.safe = false) :
    exec (.loopDone n e) s = .next (completeWhere (fun w => w == .loop p) .ok
      (le 4 (n % 4294967296) ++ le 4 (e % 4294967296))
      (raiseEvent 122 2 ([byte p, byte s.test.loopEnd, 0, 0] ++ le 4 (e % 4294967296))
        { s with test := { s.test with
            loopPort := none, loopPackets := n % 4294967296, loopErrors := e % 4294967296 } })) := by
  change execLoopDone n e s = _
  simp only [execLoopDone, hport, hsafe, hend, beq_iff_eq, Bool.false_eq_true, if_false]

/-! ### One clock of `TCK` -/

theorem exec_tapClock_st (tms tdi low : Bool) (s : State) : ∃ t, exec (.tapClock tms tdi low) s = .next t ∧
    t.test.tap.st = tapNext (if s.test.tap.resetLow && !low then 0 else s.test.tap.st) tms := by
  refine ⟨_, rfl, ?_⟩
  have hact : (tapAct tdi (tapRise low s)).test.tap.st =
      if s.test.tap.resetLow && !low then 0 else s.test.tap.st := tapAct_st tdi _
  rw [← hact]
  exact ite_keeps (fun t => t.test.tap.st) (tapLoad_st low _) (ite_keeps (fun t => t.test.tap.st) rfl rfl)

/-- Into a state other than Test-Logic-Reset and Update-IR a clock brings no more than its own action. -/
theorem exec_tapClock_of_plain {tms tdi low : Bool} {s : State}
    (h15 : tapNext (tapAct tdi (tapRise low s)).test.tap.st tms ≠ 15)
    (h0 : tapNext (tapAct tdi (tapRise low s)).test.tap.st tms ≠ 0) :
    ∃ t, exec (.tapClock tms tdi low) s = .next t ∧ t.test.tap = { (tapAct tdi (tapRise low s)).test.tap with
      st := tapNext (tapAct tdi (tapRise low s)).test.tap.st tms } := by
  refine ⟨_, rfl, ?_⟩
  rw [if_neg (by simpa using h15), if_neg (by simpa using h0)]

theorem exec_tapClock_of_shift {tdi low : Bool} {s : State} (hst : s.test.tap.st = 4)
    (hrise : (s.test.tap.resetLow && !low) = false) : ∃ t, exec (.tapClock false tdi low) s = .next t ∧
    t.test.tap.tdo = bit s.test.tap.dr 0 ∧ t.test.tap.dr = shiftIn s.test.tap.instr.drLen s.test.tap.dr tdi := by
  have hlow := tapRise_tap_of_no_rise hrise
  have hst' : (tapRise low s).test.tap.st = 4 := by rw [hlow, hst]
  have hnext : tapNext (tapAct tdi (tapRise low s)).test.tap.st false = 4 := by rw [tapAct_st, hst']; rfl
  obtain ⟨t, hexec, htap⟩ := exec_tapClock_of_plain (tms := false) (tdi := tdi) (low := low) (s := s)
    (by rw [hnext]; decide) (by rw [hnext]; decide)
  rw [tapAct_tap_of_shift tdi hst', hlow] at htap
  exact ⟨t, hexec, by rw [htap], by rw [htap]⟩

/-- Settles O52: a ready row runs its rule, the rules are above, and a clock of `TCK` leaves the controller in the next
state whatever it finds to do. That the 150 ms run from the commit is the model's choice (log 59). -/
theorem testCommandsComplete : Obligations.TestCommandsComplete := by
  unfold Obligations.TestCommandsComplete
  exact ⟨fun mb r s h hn hg hsel hcode => h.run_eq (coreTestTmux_of_code hn hg hsel hcode),
    fun mb r s h hscope hpar hsafety hup hidle => h.run_eq (coreTestBist_of_group hscope hpar hsafety hup hidle),
    fun mb r s h hmin hmax hslots hmode hidle => h.run_eq (coreTestLoop_of_unused hmin hmax hslots hmode hidle),
    fun mb r s h => h.run coreTestResult,
    fun sig s hsafe hbist hpaused => exec_bistDone_of_failed_group hsafe hbist hpaused,
    fun n e p s hport hend hsafe => exec_loopDone_of_early hport hend hsafe,
    exec_tapClock_st,
    fun tdi low s hst hrise => exec_tapClock_of_shift hst hrise⟩

end Sys2Proof
end

section
/-!
PROOFS for the role swaps, the modes, the partner's other messages and the rescue sequence (R340, R354 to R363), row by
row.
-/

namespace Sys2Proof.Machine

variable {s : State} {p : Port}

/-! ### Fast role swap (R357) -/

theorem exec_frSwap_of_enabled (hfrs : (s.port p.val).pd.frsEnabled = true) :
    exec (.frSwap p) s = .next
      (let t := (toSink p.val (pdSend p.val .accept [] s)).modPd p.val fun d => { d with
         frsDone := true, mv := 5000, contract := 2, pos := 1 }
       raiseEvent p.val 0x23 [2, 0, 1]
         { t with rescue := { t.rescue with port := some p.val, en := true, frs := true } }) := by
  change execFrSwap p s = _
  simp [execFrSwap, hfrs]

/-! ### Modes (R360, R361, R363) -/

theorem vdo_of_none {d : PortPd} (h1 : d.vdo1 = none) (h2 : d.vdo2 = none) (m : Nat) : d.vdo m = none := by
  simp [PortPd.vdo, h1, h2]

/-- R360: of a partner that is no UFP no mode is recorded, so none is there for the profile to have entered. -/
theorem exec_discoverIdentity_of_no_ufp (svid : Nat) (modes : List Nat)
    (hdiscover : (s.port p.val).pd.discover = true) (hcontract : (s.port p.val).pd.contract = 2)
    (hawait : (s.port p.val).pd.await = 0) :
    exec (.discoverIdentity p false svid modes) s = .next
      ((pdSend p.val .discoverIdentity []
        (if (s.port p.val).pd.rp = 2 then s.elapse (ticksMs 20) else s)).modPd p.val
        fun d => { d with discover := false, vdo1 := none, vdo2 := none }) := by
  change execDiscoverIdentity p false svid modes s = _
  simp [execDiscoverIdentity, hdiscover, hcontract, hawait, vdo_of_none]

/-- R361: the partner's ACK, with the time of the answer passed, makes the mode entered the port's mode. -/
def modeEntered (p : Nat) (s : State) : State :=
  s.modPd p fun d => { d with
    mode := d.entering, sbu := if d.entering == 1 then 2 else 3, entering := 0, enterTries := 0, await := 0
    atomic := false }

/-- The ACK is told by an event, and the `pd.altmode` that waits for it is answered. -/
theorem exec_enterModeAck_of_ack {u : State} (hu : s.waitUntil (s.port p.val).pd.sentAt = u)
    (hawait : (s.port p.val).pd.await = 6) (hent : (s.port p.val).pd.entering ≠ 0) :
    exec (.enterModeAck p .ack) s = .next (completeWhere (fun w => w == .altMode p.val) .ok []
      (raiseEvent p.val 0x25 [byte (s.port p.val).pd.entering, 1,
        byte (if waitsFor (fun w => w == .altMode p.val) u then 0 else 1)] (modeEntered p.val u))) := by
  change execEnterModeAck p .ack s = _
  unfold execEnterModeAck
  simp only [hawait, hent, hu, modeEntered, beq_iff_eq, bne_self_eq_false, Bool.false_or, Nat.reduceEqDiff,
    if_false]

theorem modeEntered_pd (hent : (s.port p.val).pd.entering = 1) :
    ((modeEntered p.val s).port p.val).pd.mode = 1 ∧ ((modeEntered p.val s).port p.val).pd.sbu = 2 ∧
      ((modeEntered p.val s).port p.val).pd.entering = 0 := by
  simp [modeEntered, hent]

theorem exec_partnerExitMode_of_mode (hmode : (s.port p.val).pd.mode ≠ 0) :
    exec (.partnerExitMode p) s = .next (pdSend p.val .vdmAck [] (sbuOpen p.val 4 s)) := by
  change execPartnerExitMode p s = _
  simp [execPartnerExitMode, hmode]

section
variable (hpgood : (s.port p.val).pw.pgood = true) (hsilent : (s.port p.val).pd.silent = false)
include hpgood hsilent

/-! ### Role swaps with a partner the port talks to (R355) -/

theorem exec_prSwap_of_partner (a : PdAnswer) (hservice : s.servicePort p.val = true)
    (hswap : (s.port p.val).pd.swapping = false) (hcontract : (s.port p.val).pd.contract = 2)
    (hsink : (s.port p.val).pd.sink = false) :
    exec (.prSwap p true a) s = .next
      (if (s.feed 0).present || (s.feed 1).present then raiseEvent p.val 0x23 [1, 1, 0] (pdSend p.val .reject [] s)
       else raiseEvent p.val 0x23 [1, 0, 1] (toSink p.val (pdSend p.val .accept [] s))) := by
  change execPrSwap p true a s = _
  cases h0 : (s.feed 0).present <;> cases h1 : (s.feed 1).present <;>
    simp [execPrSwap, hpgood, hsilent, hservice, hswap, hcontract, hsink, h0, h1]

theorem exec_prSwap_of_rejected (hswap : (s.port p.val).pd.swapping = true) :
    exec (.prSwap p false .reject) s = .next (swapEnd p.val 1 (s.waitUntil (s.port p.val).pd.sentAt)) := by
  change execPrSwap p false .reject s = _
  simp [execPrSwap, hpgood, hsilent, hswap]

theorem exec_prSwap_of_wait (hswap : (s.port p.val).pd.swapping = true) :
    exec (.prSwap p false .waitAnswer) s = .next (swapEnd p.val 2 (s.waitUntil (s.port p.val).pd.sentAt)) := by
  change execPrSwap p false .waitAnswer s = _
  simp [execPrSwap, hpgood, hsilent, hswap]

/-! ### Messages without a row of their own (R340) -/

theorem exec_pdMessageReceived_unknown :
    exec (.pdMessageReceived p .unknown) s = .next (pdSend p.val .notSupported [] s) := by
  change execPdMessageReceived p .unknown s = _
  simp [execPdMessageReceived, hpgood, hsilent]

theorem exec_pdMessageReceived_drSwap :
    exec (.pdMessageReceived p .drSwap) s = .next (pdSend p.val .reject [] s) := by
  change execPdMessageReceived p .drSwap s = _
  simp [execPdMessageReceived, hpgood, hsilent]

theorem exec_pdMessageReceived_goodCrc (hawait : (s.port p.val).pd.await = 1) :
    exec (.pdMessageReceived p .goodCrc) s = .next (s.modPd p.val fun d =>
      { d with partner := true, sends := 0, await := 2, atomic := true }) := by
  change execPdMessageReceived p .goodCrc s = _
  simp [execPdMessageReceived, hpgood, hsilent, hawait]

theorem exec_pdMessageReceived_getSinkCap (hservice : s.servicePort p.val = true) :
    exec (.pdMessageReceived p .getSinkCap) s =
      .next (pdSend p.val .sinkCapabilities [2 ^ 29 + 100 * 1024 + 300] s) := by
  change execPdMessageReceived p .getSinkCap s = _
  simp [execPdMessageReceived, hpgood, hsilent, hservice]

end

/-! ### Sink role and rescue (R354, R358, R359) -/

/-- A sink port asks for an object of its partner's: position, mV, mA. -/
def sinkRequest (p : Nat) (o : Nat × Nat × Nat) (s : State) : State :=
  (pdSend p .request [o.1 * 2 ^ 28 + 2 ^ 25 + o.2.2 / 10 * 1024 + o.2.2 / 10] s).modPd p fun d => { d with
    await := 8, atomic := true, newPos := o.1, newMv := o.2.1, newMa := o.2.2, partner := true, sentAt := s.tick }

theorem sinkRequest_pd (o : Nat × Nat × Nat) :
    ((sinkRequest p.val o s).port p.val).pd.sent = .request ∧ ((sinkRequest p.val o s).port p.val).pd.await = 8 ∧
      ((sinkRequest p.val o s).port p.val).pd.newMv = o.2.1 ∧
      ((sinkRequest p.val o s).port p.val).pd.newMa = o.2.2 := by
  simp [sinkRequest, pdSend]

/-- Once the hub is up no rescue is under way, and the 5 V object is the one asked for. -/
theorem exec_partnerSourceCapabilities_of_up (o : Word) (l : List Word) (hsink : (s.port p.val).pd.sink = true)
    (hup : s.boot.up = true) :
    exec (.partnerSourceCapabilities p (o :: l)) s =
      .next (sinkRequest p.val (1, 5000, min 3000 (10 * bits o.toNat 9 0)) s) := by
  change execPartnerSourceCapabilities p (o :: l) s = _
  simp only [execPartnerSourceCapabilities, hsink, hup, List.map_cons, List.getD_cons_zero, List.isEmpty_cons,
    Bool.not_true, Bool.and_false, Bool.false_and, Bool.false_or, Bool.false_eq_true, Nat.reduceBEq, if_false]
  rfl

theorem exec_rescueVbus_of_present {mv : Nat} (hup : s.boot.up = false) (hmv : 4000 < mv)
    (hservice : s.servicePort p.val = true) (hnone : s.rescue.port = none) (h0 : (s.feed 0).present = false)
    (h1 : (s.feed 1).present = false) :
    exec (.rescueVbus p mv) s = .next { toSink p.val (s.modUsb p.val fun u => { u with ccAtt := true }) with
      rescue := { port := some p.val, step := 1 } } := by
  change execRescueVbus p mv s = _
  simp [execRescueVbus, hup, hservice, hnone, h0, h1, Nat.not_le.2 hmv]

theorem exec_rescueRegulationCheck_of_band {mv : Nat} (hport : s.rescue.port = some p.val)
    (hstep : s.rescue.step = 4) (hen : s.rescue.en = true) (hlo : 855 ≤ mv) (hhi : mv ≤ 945) :
    exec (.rescueRegulationCheck p mv) s =
      .next { s.elapse (ticksMs 20) with rescue := { s.rescue with step := 5 } } := by
  change execRescueRegulationCheck p mv s = _
  simp [execRescueRegulationCheck, hport, hstep, hen, hlo, hhi]

end Sys2Proof.Machine

namespace Sys2Proof

open Sys2Proof.Machine

/-- Settles O33, row by row. The time up to an ACK of Enter Mode, its event and its answer leave the port's contract. -/
theorem roleAndModeRowsComplete : Obligations.RoleAndModeRowsComplete := by
  unfold Obligations.RoleAndModeRowsComplete
  refine ⟨fun p a s hpgood hsilent => exec_prSwap_of_partner hpgood hsilent a,
    fun p s hpgood hsilent hswap =>
      ⟨exec_prSwap_of_rejected hpgood hsilent hswap, exec_prSwap_of_wait hpgood hsilent hswap⟩,
    fun p s => exec_frSwap_of_enabled, fun p svid modes s => exec_discoverIdentity_of_no_ufp svid modes,
    fun p s hawait hent => ?ack, fun p s => exec_partnerExitMode_of_mode,
    fun p s hpgood hsilent => ⟨exec_pdMessageReceived_unknown hpgood hsilent,
      exec_pdMessageReceived_drSwap hpgood hsilent, exec_pdMessageReceived_goodCrc hpgood hsilent,
      exec_pdMessageReceived_getSinkCap hpgood hsilent⟩,
    fun p o l s hsink hup => ⟨_, exec_partnerSourceCapabilities_of_up o l hsink hup, sinkRequest_pd _⟩,
    fun p mv s => exec_rescueVbus_of_present, fun p mv s => exec_rescueRegulationCheck_of_band⟩
  case ack =>
    refine ⟨_, exec_enterModeAck_of_ack rfl hawait (by omega), ?_⟩
    simp only [completeWhere_reads, raiseEvent_reads]
    exact modeEntered_pd (by simp only [waitUntil_port, hent])

end Sys2Proof
end

section
/-!
PROOFS for the resets and starts (R481 to R486, R494 to R500), row by row.
-/

namespace Sys2Proof.Machine

variable {s : State}

/-! ### What a seal and a start leave of the boot state -/

/-- A channel's due targets are passed. -/
theorem passDue_recordSide (n : Nat) (s : State) : RecordSide s
    ((s.chan n).due.foldl (fun s d => skipTarget n d.target s) (s.modChan n fun c => { c with due := [] })) :=
  (modChan_recordSide s n _).trans (foldl_recordSide _ (fun s _ => modChan_recordSide s n _) _ _)

theorem passDue_foldl_boot (l : List Nat) (s : State) : (l.foldl (fun s n =>
    (s.chan n).due.foldl (fun s d => skipTarget n d.target s) (s.modChan n fun c => { c with due := [] })) s).boot =
      s.boot := by
  obtain ⟨_, _, _, _, _, _, e⟩ := foldl_recordSide _ (fun s n => passDue_recordSide n s) l s
  rw [e]

/-- A seal touches the records and the keeper (R271). -/
@[simp] theorem sealNow_boot (s : State) : (sealNow s).boot = s.boot := by
  unfold sealNow
  split
  · rfl
  · exact passDue_foldl_boot _ _

/-- The boot state over a chip-level start (R483). -/
theorem chipStart_boot (cause : Nat) (full keeperKept journalKept : Bool) (s : State) :
    (chipStart cause full keeperKept journalKept s).boot = { s.boot with
      loader := false, rescue := none, up := false, resetReq := none, dark := false, trial := false
      keeperKept := keeperKept, journalKept := journalKept && !s.keeper.retLow } := by
  unfold chipStart
  dsimp only
  split
  · simp only [raiseEvent_fields]
    rfl
  · rfl

/-- Without supply the hub is dark and not up, and NOR keeps both images (R481). -/
theorem loseSupply_boot (s : State) : (loseSupply s).boot.dark = true ∧ (loseSupply s).boot.up = false ∧
    (loseSupply s).boot.slot = s.boot.slot := by
  simp only [loseSupply, chipStart_boot]
  exact ⟨trivial, trivial, rfl⟩

theorem trialFailed_of_no_trial (h : s.boot.trial = false) : s.trialFailed = false := by
  simp [State.trialFailed, h]

/-! ### Resets (R481 to R485) -/

theorem exec_powerOnReset (st : Straps) (keeperKept journalKept : Bool) :
    exec (.powerOnReset st keeperKept journalKept) s =
      .next (chipStart 0 true keeperKept journalKept { s with straps := st }) := rfl

theorem exec_pinReset_of_supplied (st : Straps) (hdark : s.boot.dark = false) :
    exec (.pinReset st) s = .next (chipStart (if s.warden.safe ∧ s.resetUnderWay = false then 3 else 1) true true true
      { s with straps := st }) := by
  change execPinReset st s = _
  simp [execPinReset, hdark]

theorem exec_supplyLoss_of_supplied (hdark : s.boot.dark = false) :
    exec .supplyLoss s = .next (loseSupply s) := by
  change execSupplyLoss s = _
  simp [execSupplyLoss, hdark]

/-- R484: with no image on trial and no rescue start to leave, the start follows, sealed first where the command or an
activation asked for it. Neither the time passed nor the seal touches the boot state. -/
theorem exec_chipReset_of_request {c t : Nat} (hreq : s.boot.resetReq = some (c, t)) (hdark : s.boot.dark = false)
    (hrescue : s.boot.rescue = none) (htrial : (s.waitUntil t).boot.trial = false) :
    exec .chipReset s = .next (chipStart c false true true
      (if c = 2 ∨ c = 3 then sealNow (s.waitUntil t) else s.waitUntil t)) := by
  change execChipReset s = _
  simp only [waitUntil_fields] at htrial
  by_cases hseal : c = 2 ∨ c = 3 <;>
    simp [execChipReset, hreq, hdark, hrescue, hseal, trialFailed_of_no_trial, htrial]

/-! ### The boot sequence (R486, R494, R498) -/

section
variable (hup : s.boot.up = false) (hdark : s.boot.dark = false) (hsafe : s.warden.safe = false)
include hup hdark hsafe

theorem exec_bootSequence_of_loader (h : s.straps.bootsel1 = true ∨ s.chooseSlot = none) :
    exec (.bootSequence true) s = .next (bootLoader s) := by
  change execBootSequence true s = _
  rcases h with hsel | hnone
  · simp [execBootSequence, hup, hdark, hsafe, hsel]
  · simp [execBootSequence, hup, hdark, hsafe, hnone]

theorem exec_bootSequence_of_slot {n : Bool} (hsel : s.straps.bootsel1 = false) (hslot : s.chooseSlot = some n) :
    exec (.bootSequence true) s = .next (bootNormal n s) := by
  change execBootSequence true s = _
  simp [execBootSequence, hup, hdark, hsafe, hsel, hslot]

end

/-! ### Images (R495, R497) -/

/-- R495: the running image's slot becomes confirmed, and the other one falls back to valid where it was. -/
def confirmSlots (b : Boot) : Boot :=
  (b.setSlot b.running { b.slot b.running with st := 5, failures := 0 }).setSlot (!b.running)
    { b.slot (!b.running) with st := if (b.slot (!b.running)).st == 5 then 4 else (b.slot (!b.running)).st }

/-- The trial ends, and the thermometer follows the image's rollback index. -/
def confirmRunning (s : State) : State :=
  { s with boot := { confirmSlots s.boot with
      trial := false, confirmed := s.boot.running, nextSlot := none
      otpThermo := max (confirmSlots s.boot).otpThermo (s.boot.slot s.boot.running).rollback } }

/-- To write a slot leaves which image runs. -/
@[simp] theorem running_setSlot (b : Boot) (n : Bool) (x : Slot) : (b.setSlot n x).running = b.running := by
  cases n <;> rfl

theorem confirmRunning_boot (s : State) : (confirmRunning s).boot.trial = false ∧
    (confirmRunning s).boot.confirmed = (confirmRunning s).boot.running ∧
    (confirmRunning s).boot.nextSlot = none := by
  simp [confirmRunning, confirmSlots]

theorem exec_imageConfirm_of_trial (htrial : s.boot.trial = true) (hup : s.boot.up = true)
    (hmgmt : s.mgmtDown = none) (hsafe : s.warden.safe = false) (hmode : s.warden.mode = false) :
    exec .imageConfirm s = .next (confirmRunning (s.waitUntil (s.boot.trialAt + ticksS 60))) := by
  change execImageConfirm s = _
  unfold execImageConfirm
  rw [if_neg (by simp [htrial, hup, hmgmt, hsafe, hmode])]
  rfl

theorem exec_bootFailure_of_failed (hfail : s.trialFailed = true) (hreq : s.boot.resetReq = none) :
    exec .bootFailure s = .next (chipStart (bootFailed (if s.warden.safe then 3 else 2) s).1 false true true
      (bootFailed (if s.warden.safe then 3 else 2) s).2) := by
  change execBootFailure s = _
  simp [execBootFailure, hfail, hreq]

theorem exec_activationDue_of_reach {n : Bool} {t : Nat} {u : State} (hact : s.boot.pendingAct = some (n, 2, t))
    (hup : s.boot.up = true) (hmode : s.warden.mode = false) (hsafe : s.warden.safe = false)
    (hreach : s.reach 4 t = some u) :
    exec .activationDue s = .next (chipStart 2 false true true (sealNow u)) := by
  change execActivationDue s = _
  simp [execActivationDue, hact, hup, hmode, hsafe, hreach]

/-! ### Rescue starts (R499, R500) -/

theorem exec_rescueStart_of_regulation {p : Nat} (hport : s.rescue.port = some p) (hstep : s.rescue.step = 5)
    (hnone : s.boot.rescue = none) (hup : s.boot.up = false) :
    exec .rescueStart s = .next (rescueStart p s) := by
  change execRescueStart s = _
  simp [execRescueStart, hport, hstep, hnone, hup]

theorem exec_rescuePortDetach_of_rescue {p : Nat} (h : s.boot.rescue = some p) :
    exec .rescuePortDetach s = .next (leaveRescue s) := by
  change execRescuePortDetach s = _
  simp [execRescuePortDetach, h]

theorem exec_frsFeedReturn_of_feed {p : Nat} (hport : s.rescue.port = some p) (hfrs : s.rescue.frs = true)
    (hfed : s.fed = true) (h0 : (s.rail 0).inBand = true) (h1 : (s.rail 1).inBand = true) :
    exec (.frsFeedReturn true) s = .next (coverCheck
      { s.waitUntil (max (s.rail 0).since (s.rail 1).since + ticksS 1) with rescue := {} }) := by
  change execFrsFeedReturn true s = _
  simp [execFrsFeedReturn, hport, hfrs, hfed, h0, h1]

theorem exec_frsFeedReturn_of_no_feed {p : Nat} (hport : s.rescue.port = some p) (hfrs : s.rescue.frs = true) :
    exec (.frsFeedReturn false) s = .next (rescueStart p (sealNow s)) := by
  change execFrsFeedReturn false s = _
  simp [execFrsFeedReturn, hport, hfrs]

end Sys2Proof.Machine

namespace Sys2Proof

open Sys2Proof.Machine

/-- Settles O60, row by row. The choice of the slot and the cause after a failed trial, the keeper at a rescue start,
and the operands of the resets are the model's choices (logs 17, 19 and 20). -/
theorem startRowsComplete : Obligations.StartRowsComplete := by
  unfold Obligations.StartRowsComplete
  exact ⟨fun st kk jk s => exec_powerOnReset st kk jk, fun st s => exec_pinReset_of_supplied st,
    fun s hdark => ⟨_, exec_supplyLoss_of_supplied hdark, loseSupply_boot s⟩,
    fun c t s => exec_chipReset_of_request, fun s => exec_bootSequence_of_loader,
    fun n s hup hdark hsafe => exec_bootSequence_of_slot hup hdark hsafe,
    fun s htrial hup hmgmt hsafe hmode =>
      ⟨_, exec_imageConfirm_of_trial htrial hup hmgmt hsafe hmode, confirmRunning_boot _⟩,
    fun s => exec_bootFailure_of_failed, fun n t u s => exec_activationDue_of_reach,
    fun p s => exec_rescueStart_of_regulation,
    fun p s => exec_rescuePortDetach_of_rescue,
    fun p s hport hfrs hfed h0 h1 => ⟨_, rfl, exec_frsFeedReturn_of_feed hport hfrs hfed h0 h1⟩,
    fun p s => exec_frsFeedReturn_of_no_feed⟩

end Sys2Proof
end

section
/-!
PROOFS for what happens on a CAN bus (R375 to R389), row by row.
-/

namespace Sys2Proof.Machine

variable {c : Fin 2} {s : State}

/-! ### A controller that takes part -/

theorem canUp_iff (n : Nat) (s : State) : s.canUp n = true ↔
    s.warden.safe = false ∧ (s.can n).running = true ∧ ((s.can n).st = 1 ∨ (s.can n).st = 2) := by
  simp [State.canUp, and_assoc]

theorem canUp_of_canLive {n : Nat} (h : s.canLive n = true) : s.canUp n = true :=
  ((Bool.and_eq_true _ _).mp h).1

/-- A controller that takes part is not looking for its bit rate. -/
theorem can_st_ne_of_canLive {n : Nat} (h : s.canLive n = true) : (s.can n).st ≠ 4 := by
  obtain ⟨-, -, h1 | h2⟩ := (canUp_iff n s).mp (canUp_of_canLive h) <;> omega

/-! ### Reception (R376 to R379) -/

/-- A frame that is no FD frame is stored, at the end of its time on the bus (log 38). -/
theorem exec_canFrameReceived_of_classic {f : CanFrame} (hlive : s.canLive c.val = true) (hfd : f.fd = false)
    (n : Nat) : exec (.canFrameReceived c f n) s =
      .next (canStore c.val f (fun k => rxRec s c.val k f) (s.elapse n)) := by
  change execCanFrameReceived c f n s = _
  simp [execCanFrameReceived, hlive, hfd, can_st_ne_of_canLive hlive]

section
variable {n : Nat} {f : CanFrame} {t : State} (r : Nat → Rec) (hrx : (t.can n).rxErr = 0)
include hrx

/-- With a receive counter of 0 none is drawn, and where no pair matches the drop is counted. -/
theorem canStore_of_unmatched
    (hmatch : (List.range 64).find? (fun k => pairMatches (canCounters n (t.can n).tec 0 t) n k f) = none) :
    canStore n f r t = (canCounters n (t.can n).tec 0 t).incFld (canBase n + 0x24) 15 0 := by
  simp only [canStore, hrx, recDown, beq_self_eq_true, if_true, hmatch]

theorem canStore_of_queue0 {k : Nat}
    (hmatch : (List.range 64).find? (fun k => pairMatches (canCounters n (t.can n).tec 0 t) n k f) = some k)
    (hact : (canCounters n (t.can n).tec 0 t).fld (pairBase n k) 1 0 = 0) :
    canStore n f r t = rxPush n 0 (r k) (canCounters n (t.can n).tec 0 t) := by
  simp only [canStore, hrx, recDown, beq_self_eq_true, if_true, hmatch, hact]

end

/-! ### Transmission (R381 to R385) -/

/-- The delay of the loop concerns FD frames alone (R373). -/
theorem canSample_of_classic {n : Nat} {f : CanFrame} (hfd : f.fd = false) (s : State) : canSample n f s = s := by
  simp [canSample, hfd]

theorem exec_canArbitrationStart_of_top {b : Nat} {t : TxBuf} (hup : s.canUp c.val = true)
    (hstop : (s.can c.val).stopping = false) (hbus : (s.can c.val).onBus = none) (hlisten : s.canListen c.val = false)
    (htop : topBuf ((s.can c.val).bufs.filter fun e => e.2.st == 1) = some (b, t)) (hfd : t.frame.fd = false) :
    exec (.canArbitrationStart c) s = .next
      (let u := s.waitUntil (s.can c.val).joinAt
       u.setCan c.val ((u.can c.val).setBuf b { t with
         st := 4, sofAt := u.tick, frame := { t.frame with esi := false } })) := by
  change execCanArbitrationStart c s = _
  simp [execCanArbitrationStart, hup, hstop, hbus, hlisten, htop, hfd, canSample_of_classic]

/-- Where no mailbox holds a command, no `can.txabort` waits for the frame (R385). -/
theorem answerAbort_of_no_posted (h : ∀ n < 8, (s.mb n).state ≠ .posted) (k b : Nat) (sent : Bool) :
    answerAbort k b sent s = s := by
  unfold answerAbort
  refine List.foldlRecOn (motive := fun t => t = s) _ _ rfl fun t ht n hn => ?_
  subst ht
  have hst := h n (List.mem_range.mp hn)
  split
  · next hposted _ => exact absurd hposted hst
  · rfl

theorem mb_of_mbs {t : State} (h : t.cci.mbs = s.cci.mbs) (n : Nat) : t.mb n = s.mb n := by
  unfold State.mb
  rw [h]

theorem exec_canTxEnd_sent {b : Nat} (hlive : s.canLive c.val = true) (hbus : (s.can c.val).onBus = some b)
    (hnone : ∀ n < 8, (s.mb n).state ≠ .posted) (hmbs : (txSent c.val b s).cci.mbs = s.cci.mbs) :
    exec (.canTxEnd c .sent) s = .next (txSent c.val b s) := by
  have hnone' : ∀ n < 8, ((txSent c.val b s).mb n).state ≠ .posted := fun n hn => mb_of_mbs hmbs n ▸ hnone n hn
  change execCanTxEnd c .sent s = _
  simp [execCanTxEnd, hlive, hbus, answerAbort_of_no_posted hnone']

/-- An armed buffer whose target stands on the wall clock. -/
theorem exec_canArmedDue_of_wall {b : Fin 32} {t : State} (hst : ((s.can c.val).buf b.val).st = 2)
    (hsafe : s.warden.safe = false) (htb : ((s.can c.val).buf b.val).tb = 4)
    (hreach : s.reach 4 ((s.can c.val).buf b.val).target = some t) :
    exec (.canArmedDue c b) s = .next (t.setCan c.val ((t.can c.val).setBuf b.val
      { (s.can c.val).buf b.val with
        st := 1, dueAt := t.tick, late := t.chicory.wall.ns - 1000 * ((s.can c.val).buf b.val).target })) := by
  change execCanArmedDue c b s = _
  simp [execCanArmedDue, hst, hsafe, htb, hreach, State.pastBy]

/-! ### Errors and bus-off (R386 to R388) -/

theorem exec_busOff_of_live (hlive : s.canLive c.val = true) :
    exec (.busOff c) s = .next (canCounters c.val 256 (s.can c.val).rxErr s) := by
  change execBusOff c s = _
  rw [execBusOff, if_pos hlive]

theorem exec_canErrorStateChange_of_live (err : CanError) (hlive : s.canLive c.val = true) :
    exec (.canErrorStateChange c err) s = .next (match err with
      | .received kind => canCounters c.val (s.can c.val).tec ((s.can c.val).rxErr + 1) (canError c.val kind s)
      | .receiverFlag => canCounters c.val (s.can c.val).tec ((s.can c.val).rxErr + 8) s
      | .transmitterFlag => canCounters c.val ((s.can c.val).tec + 8) (s.can c.val).rxErr s) := by
  change execCanErrorStateChange c err s = _
  cases err <;> simp [execCanErrorStateChange, hlive]

theorem exec_busOffRecoveryEnd_of_recovering (hst : (s.can c.val).st = 3) (hrec : (s.can c.val).recovering = true)
    (hsafe : s.warden.safe = false) : exec (.busOffRecoveryEnd c) s = .next
      (let t := s.waitUntil ((s.can c.val).recoverAt + s.canBits c.val 1408)
       faultGone (92 + c.val) (canState c.val 1
         (t.setCan c.val { t.can c.val with tec := 0, rxErr := 0, recovering := false }))) := by
  change execBusOffRecoveryEnd c s = _
  rw [execBusOffRecoveryEnd, if_neg (by simp [hst, hrec, hsafe])]

theorem exec_autobaudDwellEnd_last (hst : (s.can c.val).st = 4) (hsafe : s.warden.safe = false)
    (hlast : (s.can c.val).cands.length ≤ (s.can c.val).candIdx + 1) :
    exec (.autobaudDwellEnd c) s = .next (autobaudEnd c.val 0xFF false
      (s.waitUntil ((s.can c.val).candAt + (s.can c.val).dwell))) := by
  change execAutobaudDwellEnd c s = _
  rw [execAutobaudDwellEnd, if_neg (by simp [hst, hsafe])]
  exact if_neg (by omega)

theorem exec_canDisableComplete_of_idle (hstop : (s.can c.val).stopping = true) (hbus : (s.can c.val).onBus = none)
    (hsafe : s.warden.safe = false) : exec (.canDisableComplete c) s = .next
      (canStopped c.val (if (s.can c.val).st = 3 then faultGone (92 + c.val) s else s)) := by
  change execCanDisableComplete c s = _
  simp [execCanDisableComplete, hstop, hbus, hsafe]

end Sys2Proof.Machine

namespace Sys2Proof

open Sys2Proof.Machine

/-- Settles O43, row by row. That a frame's time passes within its row, and the stamps its record takes at its start,
are the model's choices (log 38). -/
theorem canBusRowsComplete : Obligations.CanBusRowsComplete := by
  unfold Obligations.CanBusRowsComplete
  refine ⟨fun c f n t s hlive hfd ht hrx hmatch => ?unmatched,
    fun c f n k t s hlive hfd ht hrx hmatch hact => ?queue0,
    fun c b t s => exec_canArbitrationStart_of_top, fun c b s => exec_canTxEnd_sent,
    fun c b t s => exec_canArmedDue_of_wall, fun c s => exec_busOff_of_live,
    fun c err s => exec_canErrorStateChange_of_live err, fun c s => exec_busOffRecoveryEnd_of_recovering,
    fun c s => exec_autobaudDwellEnd_last, fun c s => exec_canDisableComplete_of_idle⟩
  case unmatched =>
    subst ht
    rw [exec_canFrameReceived_of_classic hlive hfd, canStore_of_unmatched _ hrx hmatch]
  case queue0 =>
    subst ht
    rw [exec_canFrameReceived_of_classic hlive hfd, canStore_of_queue0 _ hrx hmatch hact]

end Sys2Proof
end

section
/-!
PROOFS for host writes in the safe state (R449).
-/

namespace Sys2Proof.Machine

variable {s : State}

/-- R449: the hub takes no writes in the safe state. -/
theorem hostWrites_of_safe (h : s.warden.safe = true) : s.hostWrites = false := by
  simp [State.hostWrites, h]

theorem hostWrite_of_safe (h : s.warden.safe = true) (off val : Nat) : hostWrite off val s = .next s :=
  hostWrite_of_not_writes (by simp [hostWrites_of_safe h])

theorem exec_bitAliasWrite_of_safe (h : s.warden.safe = true) (off : BitVec 16) (val : Word) :
    exec (.bitAliasWrite off val) s = .next s := by
  change execBitAliasWrite off val s = _
  simp [execBitAliasWrite, hostWrite_of_safe h]

/-- What happens only where the hub takes writes does not happen. -/
theorem gatedWrite_of_safe (h : s.warden.safe = true) (o : Out) :
    (if s.hostWrites then o else .next s) = .next s :=
  if_neg (by simp [hostWrites_of_safe h])

theorem exec_commandPipeTransfer_of_safe (h : s.warden.safe = true) (bytes : List Byte) :
    exec (.commandPipeTransfer bytes) s = .next s := by
  change execCommandPipeTransfer bytes s = _
  simp [execCommandPipeTransfer, hostWrites_of_safe h]

/-- The range is judged before the data are applied, so a bad one still stalls the pipe (R55, log 11). -/
theorem exec_regWrite_of_safe (h : s.warden.safe = true) (off : BitVec 16) (len : Nat) (data : List Byte) :
    exec (.regWrite off len data) s = .next s ∨
      (rangeBad off.toNat len = true ∧ exec (.regWrite off len data) s = .next (pipeAnswer true s)) := by
  change execRegWrite off len data s = _ ∨ (_ ∧ execRegWrite off len data s = _)
  simp only [execRegWrite, hostWrites_of_safe h]
  split
  · exact .inl rfl
  · split
    · next hbad => exact .inr ⟨hbad, rfl⟩
    · exact .inl rfl

/-- A write frame leaves its status byte at most (log 11). -/
theorem exec_spiWriteFrame_of_safe (h : s.warden.safe = true) (b : List Byte) :
    exec (.spiWriteFrame b) s = .next s ∨ ∃ n, exec (.spiWriteFrame b) s = .next (spiStatus n s) := by
  change execSpiWriteFrame b s = _ ∨ ∃ n, execSpiWriteFrame b s = _
  simp only [execSpiWriteFrame, hostWrites_of_safe h]
  split
  · exact .inl rfl
  · split <;> exact .inr ⟨_, rfl⟩

end Sys2Proof.Machine

namespace Sys2Proof

open Sys2Proof.Machine

/-- Settles O11, write by write. The stall of a vendor request out of range and the status byte of an SPI frame are
the model's choice (log 11). -/
theorem safeStateIgnoresWrites : Obligations.SafeStateIgnoresWrites := by
  unfold Obligations.SafeStateIgnoresWrites
  refine ⟨fun s c off val mask bytes pat h hc => ?rows,
    fun s off len bytes h => exec_regWrite_of_safe h off len bytes, fun s b h => exec_spiWriteFrame_of_safe h b⟩
  simp only [List.mem_cons, List.not_mem_nil, or_false] at hc
  have hreg (o v : Nat) : hostWrite o v s = .next s := hostWrite_of_safe h o v
  have hgate (o : Out) := gatedWrite_of_safe h o
  obtain rfl | rfl | rfl | rfl | rfl | rfl | rfl | rfl | rfl | rfl | rfl | rfl | rfl := hc
  · exact hreg off.toNat val.toNat
  · exact hreg off.toNat val.toNat
  · exact exec_bitAliasWrite_of_safe h off val
  · exact hreg off.toNat val.toNat
  · exact hreg 0x6010 val.toNat
  · exact hreg 0xD10 0x10000
  · exact hreg 0xC18 1
  · exact hreg 0xC1C pat.toNat
  · exact hgate (.next (ring mask.toNat s))
  · exact hgate (.next (doneWrite mask.toNat s))
  · exact hgate (.next (abortWrite mask.toNat s))
  · exact hgate (.next (takeUnit bytes s))
  · exact exec_commandPipeTransfer_of_safe h bytes

end Sys2Proof
end

section
/-!
PROOFS for fault sources, the self-check and the clock monitor (R426 to R430, R436, R483), row by row.
-/

namespace Sys2Proof.Machine

variable {src : Source} {s : State}

/-! ### Events on a source (R426, R427) -/

/-- A port's source acts through the built-in action of its block alone: no restart of its own follows. -/
theorem exec_faultEvent_of_port (per : Bool) (hport : src.val < 48) (hraised : s.srcRaised src.val = true)
    (hmask : s.srcMasked src.val = false) (hin : (s.src src.val).input = 1) :
    exec (.faultEvent src per) s =
      .next (builtIn src.val (if per then faultHold src.val s else faultPulse src.val s)) := by
  have hmgmt1 : ¬src.val = 54 := by omega
  have hmgmt2 : ¬src.val = 55 := by omega
  have hgroup : ¬(48 ≤ src.val ∧ src.val ≤ 53) := by omega
  change execFaultEvent src per s = _
  simp [execFaultEvent, hraised, hmask, hin, hmgmt1, hmgmt2, hgroup]

/-- A pair that reads a sound pattern comes to read a wire fault. -/
theorem exec_wireFault_of_sound (high : Bool) (hin : (s.src src.val).input = 1 ∨ (s.src src.val).input = 2) :
    exec (.wireFault src high) s = .next (wireFault src.val (if high then 3 else 0) s) := by
  change execWireFault src high s = _
  rcases hin with h | h <;> simp [execWireFault, h]

/-- From FS56 on no block keeps its own source at fault. -/
theorem exec_causeGone_of_free (hown : 56 ≤ src.val) (hpair : (s.src src.val).pair ≠ 1) :
    exec (.causeGone src) s = .next (faultGone src.val s) := by
  have hport : ¬src.val < 48 := by omega
  have hgroup : ¬src.val ≤ 53 := by omega
  have hmgmt : ¬(src.val = 54 ∨ src.val = 55) := by omega
  change execCauseGone src s = _
  simp [execCauseGone, hpair, hport, hgroup, hmgmt]

theorem exec_selfCheckFail (s : State) :
    exec .selfCheckFail s = .next (faultPulse 58 { s with campion.selfOk := false }) := rfl

/-- The built-in action of the clock monitor asks for a reset, in the safe state too. -/
theorem builtIn_clockMonitor (s : State) :
    builtIn 95 s = { s with boot.resetReq := some (6, s.tick + ticksMs 1) } := by
  simp [builtIn]

theorem exec_clock_of_sound (hin : (s.src 95).input = 1) : exec .clock s = .next
    (let t := faultPulse 95 s
     { t with boot.resetReq := some (6, t.tick + ticksMs 1) }) := by
  change execClock s = _
  simp [execClock, hin, builtIn_clockMonitor]

/-! ### The end of a sub-window (R429, R430) -/

/-- A source that goes on counting has an event in its window. -/
theorem exec_subWindowEnd (src : Source) (s : State) : ∃ t, exec (.subWindowEnd src) s = .next t ∧
    ((t.src src.val).st = 1 → t.srcCount src.val ≠ 0) := by
  change ∃ t, execSubWindowEnd src s = _ ∧ _
  unfold execSubWindowEnd
  dsimp only
  split
  · exact ⟨_, rfl, by simp⟩
  · next hcounts =>
    refine ⟨_, rfl, fun hst hzero => hcounts ?_⟩
    simp only [hst, hzero, beq_self_eq_true, Bool.and_self]

end Sys2Proof.Machine

namespace Sys2Proof

open Sys2Proof.Machine

/-- Settles O45, row by row. That the row of a source's event takes the built-in action of its block, and what a
sub-window of `COUNTING` comes to, are the model's choices (log 16). -/
theorem faultRowsComplete : Obligations.FaultRowsComplete := by
  unfold Obligations.FaultRowsComplete
  exact ⟨fun src per s hport hraised hmask hin _ => exec_faultEvent_of_port per hport hraised hmask hin,
    fun src high s => exec_wireFault_of_sound high, fun src s => exec_causeGone_of_free, exec_selfCheckFail,
    fun s => exec_clock_of_sound, exec_subWindowEnd⟩

end Sys2Proof
end

section
/-!
PROOFS for warden mode step by step, `ALIVE`, and the hold of the safe state (R437, R442 to R446, R450, R451), row by
row.
-/

namespace Sys2Proof.Machine

variable {s : State}

/-! ### The clean-up after an entry (R437) -/

theorem exec_wardenCleanup_of_due (hmode : s.warden.mode = true) (hdue : s.warden.cleanup = true)
    (hsafe : s.warden.safe = false) : exec .wardenCleanup s = .next
      (let t := wardenDoms (canDisable 1 (rsEnd 2 (closeExpert (voidTxns (settlePosted 7 (bistAbandon s))))))
       let u := { t with warden := { t.warden with cleanup := false } }
       raiseEvent 81 1 ([byte u.warden.cause, 0, 0, 0] ++ le 4 u.scriptCrc) u) := by
  change execWardenCleanup s = _
  rw [execWardenCleanup, if_neg (by simp [hmode, hdue, hsafe])]

/-! ### The script (R442 to R446) -/

theorem can_setWarden (s : State) (w : Warden) (n : Nat) : ({ s with warden := w } : State).can n = s.can n := rfl

/-- A group that starts with step `i` tells of each empty mirror its steps take (R444). -/
def tellMirrors (i : Nat) (g : List Step) (s : State) : State :=
  (List.range g.length).foldl (fun s k => match g[k]? with
    | some x => if x.mirror && (s.mirrorOf x).isEmpty then raiseEvent 81 4 [byte (i + k), byte x.mix] s else s
    | none => s) s

/-- What the start of a step does at its instant. -/
def startStep (s : State) : State :=
  let op := (s.scriptGroup.head?.map (·.op)).getD 6
  let t := tellMirrors s.warden.stepIdx s.scriptGroup (raiseEvent 81 2 [byte s.warden.stepIdx, byte op]
    { s with warden := { s.warden with run := 2, started := true, frames := [], matched := [] } })
  if (t.can 0).st == 3 then scriptEnd s.warden.stepIdx 1 t
  else if op == 6 then scriptEnd s.warden.stepIdx 0 t else t

theorem exec_scriptStepStart_of_live (hlive : s.scriptLive = true) (hnew : s.warden.started = false) :
    exec .scriptStepStart s = .next (startStep (s.waitUntil s.warden.startAt)) := by
  change execScriptStepStart s = _
  rw [execScriptStepStart, if_neg (by simp [hlive, hnew])]
  rfl

theorem tellMirrors_of_lone {x : Step} (hmirror : x.mirror = false) (i : Nat) (s : State) :
    tellMirrors i [x] s = s := by
  simp [tellMirrors, hmirror]

/-- Only an `END` step, or a controller in bus-off, ends the script at its start (R446). -/
theorem startStep_of_lone {x : Step} (hlone : s.scriptGroup = [x]) (hmirror : x.mirror = false) (hop : x.op ≠ 6)
    (hbus : (s.can 0).st ≠ 3) : startStep s = raiseEvent 81 2 [byte s.warden.stepIdx, byte x.op]
      { s with warden := { s.warden with run := 2, started := true, frames := [], matched := [] } } := by
  simp [startStep, hlone, tellMirrors_of_lone hmirror, can_setWarden, hbus, hop]

theorem exec_scriptStepStart_of_lone {x : Step} (hlive : s.scriptLive = true) (hnew : s.warden.started = false)
    (hnow : s.tick = s.warden.startAt) (hlone : s.scriptGroup = [x]) (hmirror : x.mirror = false) (hop : x.op ≠ 6)
    (hbus : (s.can 0).st ≠ 3) : exec .scriptStepStart s = .next (raiseEvent 81 2 [byte s.warden.stepIdx, byte x.op]
      { s with warden := { s.warden with run := 2, started := true, frames := [], matched := [] } }) := by
  rw [exec_scriptStepStart_of_live hlive hnew, waitUntil_now s _ hnow.ge, startStep_of_lone hlone hmirror hop hbus]

/-- A frame of a step falls due at its instant and enters its buffer. -/
theorem exec_scriptFrame_of_due {buf : Fin 8} {x : Step} (hstep : s.scriptGroup[buf.val]? = some x)
    (hlive : s.scriptLive = true) (hrun : s.warden.started = true)
    (hleft : Tbl.getD 0 s.warden.frames buf.val < x.frames) (hfree : ((s.can 0).buf buf.val).st ≠ 4)
    (hnow : s.tick = s.warden.startAt + ticksMs (Tbl.getD 0 s.warden.frames buf.val * x.period))
    (hon : (s.can 0).running = true) (hbus : (s.can 0).st ≠ 3) : exec (.scriptFrame buf) s = .next
      (let k := Tbl.getD 0 s.warden.frames buf.val
       let t := { s with warden.frames := Tbl.setD 0 s.warden.frames buf.val (k + 1) }
       t.setCan 0 ((t.can 0).setBuf buf.val { st := 1, frame := t.scriptFrame x k })) := by
  change execScriptFrame buf s = _
  simp [execScriptFrame, hstep, hlive, hrun, Nat.not_le.mpr hleft, hfree, waitUntil_now s _ hnow.ge,
    can_setWarden, hon, hbus]

/-- The frame a lone `WAIT_RX` step waits for ends the step. -/
theorem exec_waitRxMatch_of_lone {f : CanFrame} {x : Step} (hlone : s.scriptGroup = [x]) (hlive : s.scriptLive = true)
    (hrun : s.warden.started = true) (hcan : s.canLive 0 = true) (hop : x.op = 5) (hnew : s.warden.matched = [])
    (hid : x.id = f.id) (hext : x.ext = f.ext) (hlen : x.fpos + x.width ≤ f.data.length)
    (hlimit : x.readField f.data ≤ x.limit) (htime : s.tick ≤ s.stepEnd x) :
    exec (.waitRxMatch f) s = .next (scriptGo (s.warden.stepIdx + 1) s.tick
      { s with warden.matched := [(0, s.tick)] }) := by
  change execWaitRxMatch f s = _
  simp [execWaitRxMatch, hlone, hlive, hrun, hcan, hop, hnew, hid, hext, hlen, hlimit, htime, List.range_succ]

/-- The ticks at which the positions of a group end, each by its match or by its duration. -/
def positionEnds (matched : List (Nat × Nat)) (byDuration : Step → Nat) (g : List Step) : List Nat :=
  (List.range g.length).map fun k =>
    match matched.find? fun e => e.1 == k with
    | some e => e.2
    | none => (g[k]?.map byDuration).getD 0

theorem groupEnds_eq (s : State) : s.groupEnds = positionEnds s.warden.matched s.stepEnd s.scriptGroup := rfl

theorem foldl_max_positionEnds_lone (byDuration : Step → Nat) (x : Step) :
    (positionEnds [] byDuration [x]).foldl max 0 = byDuration x :=
  Nat.zero_max _

/-- R445: a lone step that waits for no frame ends by its duration, and the script goes on to the next step. -/
theorem exec_scriptStepEnd_of_lone {x : Step} (hlive : s.scriptLive = true) (hrun : s.warden.started = true)
    (hlone : s.scriptGroup = [x]) (hop : x.op ≠ 5) (hnew : s.warden.matched = []) :
    exec .scriptStepEnd s = .next (scriptGo ((s.waitUntil (s.stepEnd x)).warden.stepIdx + 1) (s.stepEnd x)
      (s.waitUntil (s.stepEnd x))) := by
  have hend : s.groupEnds.foldl max 0 = s.stepEnd x := by
    rw [groupEnds_eq, hlone, hnew, foldl_max_positionEnds_lone]
  change execScriptStepEnd s = _
  rw [execScriptStepEnd, if_neg (by simp [hlive, hrun]), hend]
  simp [hlone, hop]

/-! ### The heartbeat and `ALIVE` (R451) -/

theorem exec_wardenHeartbeatMissing_of_alive (hsafe : s.warden.safe = false) (hrun : s.warden.aliveRun = true) :
    exec .wardenHeartbeatMissing s = .next (faultPulse 57 (s.waitUntil (s.warden.heartbeat + ticksMs 2))) := by
  change execWardenHeartbeatMissing s = _
  simp [execWardenHeartbeatMissing, hsafe, hrun]

/-- An edge of `ALIVE` falls due, with the last heartbeat so many ticks before it. -/
def edgeDue (ago : Nat) (s : State) : State :=
  let t := s.waitUntil (s.warden.edgeAt + ticksUs 500)
  { t with warden := { t.warden with edgeAt := t.tick, heartbeat := max t.warden.heartbeat (t.tick - ago) } }

/-- To judge the edge leaves the level and the count of the edges made. -/
@[simp] theorem edgeDue_alive (ago : Nat) (s : State) :
    (edgeDue ago s).warden.aliveLevel = s.warden.aliveLevel ∧ (edgeDue ago s).warden.toggles = s.warden.toggles := by
  simp [edgeDue]

/-- The edge is made. -/
def edgeMade (s : State) : State :=
  { s with warden := { s.warden with
      aliveLevel := !s.warden.aliveLevel, toggles := (s.warden.toggles + 1) % 65536 } }

section
variable {ago : Nat} (hsafe : s.warden.safe = false) (hrun : s.warden.aliveRun = true)
include hsafe hrun

theorem exec_aliveEdge_of_heartbeat (hself : s.campion.selfOk = true) (hago : ago ≤ ticksUs 500) :
    exec (.aliveEdge ago) s = .next (edgeMade (edgeDue ago s)) := by
  have hrecent (t beat : Nat) : t ≤ max beat (t - ago) + ticksUs 500 := by omega
  change execAliveEdge ago s = _
  rw [execAliveEdge, if_neg (by simp [hsafe, hrun])]
  exact if_pos (by simp [hself, hrecent])

theorem exec_aliveEdge_of_failed (hself : s.campion.selfOk = false) :
    exec (.aliveEdge ago) s = .next (edgeDue ago s) := by
  change execAliveEdge ago s = _
  simp [execAliveEdge, hsafe, hrun, hself, edgeDue]

end

/-! ### The hold of the safe state (R450) -/

theorem exec_safeHoldExpiry_of_hold (hsafe : s.warden.safe = true) (hhold : s.fld 0xC48 11 0 ≠ 0)
    (hcount : s.keeper.holdTimes.length < 3) (hreq : s.boot.resetReq = none) : exec .safeHoldExpiry s = .next
      (let t := s.waitUntil (s.warden.safeAt + ticksS (s.fld 0xC48 11 0))
       { t with boot.resetReq := some (3, t.tick) }) := by
  change execSafeHoldExpiry s = _
  rw [execSafeHoldExpiry, if_neg (by simp [hsafe, hhold, hcount, hreq])]

end Sys2Proof.Machine

namespace Sys2Proof

open Sys2Proof.Machine

/-- Settles O46, row by row. That the domains' actions belong to the clean-up, and the age of the heartbeat as an
operand of an edge, are the model's choices (log 40). -/
theorem wardenRowsComplete : Obligations.WardenRowsComplete := by
  unfold Obligations.WardenRowsComplete
  refine ⟨fun s => exec_wardenCleanup_of_due, fun x s => exec_scriptStepStart_of_lone,
    fun buf x s => exec_scriptFrame_of_due, fun f x s => exec_waitRxMatch_of_lone,
    fun x s hlive hrun hlone hop => exec_scriptStepEnd_of_lone hlive hrun hlone (by omega),
    fun s => exec_wardenHeartbeatMissing_of_alive, fun ago s hsafe hrun hself hago => ?made,
    fun ago s hsafe hrun hself => ?omitted, fun s => exec_safeHoldExpiry_of_hold⟩
  case made => exact ⟨_, exec_aliveEdge_of_heartbeat hsafe hrun hself hago, by simp [edgeMade]⟩
  case omitted => exact ⟨_, exec_aliveEdge_of_failed hsafe hrun hself, edgeDue_alive ago s⟩

end Sys2Proof
end
